-- ==== Sys2Proof/Word.lean ====
section
/-! DEFINITION. The word types of the S9 and their plainest arithmetic. -/

namespace Sys2Proof

/-- One byte of memory. -/
abbrev Byte := BitVec 8

/-- One instruction word (R161). -/
abbrev Word := BitVec 64

/-- A lane value of 32 bits (R51). -/
abbrev Lane := BitVec 32

/-- A lane mask: bit L is lane L (R38). -/
abbrev Mask := BitVec 32

/-- A 48-bit byte address (R95). -/
abbrev Addr := BitVec 48

/-- The mask of all 32 lanes. -/
def Mask.all : Mask := 0xFFFFFFFF#32

end Sys2Proof
end

