-- ==== Sys2Proof/Machine/Numfmt.lean ====
section
/-! DEFINITION. Number formats and exact arithmetic: the floating-point formats, Round, the elementary functions,
RN8, L4, the residue cells and the sum order of the matrix engine (R71 to R94). -/

namespace Sys2Proof.Machine

open Sys2Proof

/-! ### Formats -/

/-- A floating-point format by its exponent and fraction widths (R73). -/
structure Fmt where
  eb : Nat
  fb : Nat
  deriving DecidableEq, Repr, Inhabited

/-- FP64 (R73). -/
def f64 : Fmt := ⟨11, 52⟩
/-- FP32. -/
def f32 : Fmt := ⟨8, 23⟩
/-- FP16. -/
def f16 : Fmt := ⟨5, 10⟩
/-- BF16. -/
def bf16 : Fmt := ⟨8, 7⟩

/-- The exponent bias, which is also emax. -/
def Fmt.bias (f : Fmt) : Nat := 2 ^ (f.eb - 1) - 1
/-- The least exponent of a normal number. -/
def Fmt.emin (f : Fmt) : Int := 1 - (f.bias : Int)
/-- The width in bits. -/
def Fmt.width (f : Fmt) : Nat := 1 + f.eb + f.fb
/-- The code of an exponent field of ones with fraction 0. -/
def Fmt.infBits (f : Fmt) : Nat := (2 ^ f.eb - 1) * 2 ^ f.fb
/-- The canonical quiet NaN (R73). -/
def Fmt.canon (f : Fmt) : Nat := f.infBits + 2 ^ (f.fb - 1)
/-- The sign bit. -/
def Fmt.signBit (f : Fmt) : Nat := 2 ^ (f.eb + f.fb)
/-- The code of a sign and a magnitude code. -/
def Fmt.signed (f : Fmt) (s : Bool) (mag : Nat) : Nat := if s then f.signBit + mag else mag

/-- A decoded value: sub-normal numbers are `fin` with `sub` true; the value is ±m × 2^e. -/
inductive FVal where
  | nan (signalling : Bool)
  | inf (s : Bool)
  | zero (s : Bool)
  | fin (s : Bool) (m : Nat) (e : Int) (sub : Bool)
  deriving DecidableEq, Repr, Inhabited

/-- The value of a code (R73). -/
def decF (f : Fmt) (b : Nat) : FVal :=
  let s := b.testBit (f.eb + f.fb)
  let e := b / 2 ^ f.fb % 2 ^ f.eb
  let m := b % 2 ^ f.fb
  if e = 2 ^ f.eb - 1 then (if m = 0 then .inf s else .nan (!m.testBit (f.fb - 1)))
  else if e = 0 then (if m = 0 then .zero s else .fin s m (f.emin - f.fb) true)
  else .fin s (2 ^ f.fb + m) ((e : Int) - f.bias - f.fb) false

/-- FlushIn (R71). FP64 is never flushed. -/
def flushIn (ftz : Bool) (f : Fmt) (v : FVal) : FVal :=
  match v with
  | .fin s _ _ true => if ftz && f != f64 then .zero s else v
  | _ => v

/-! ### Flags (R78) -/

/-- NV of the lane flags. -/
def flNV : BitVec 5 := 16
/-- DZ. -/
def flDZ : BitVec 5 := 8
/-- OF. -/
def flOF : BitVec 5 := 4
/-- UF. -/
def flUF : BitVec 5 := 2
/-- NX. -/
def flNX : BitVec 5 := 1

/-- Lane flags as tile events: [4] WRAP, [3] NV, [2] OF, [1] UF, [0] NX (R78). -/
def eventsOfFlags (b : BitVec 5) : BitVec 5 :=
  (if b.getLsbD 4 then 8 else 0) ||| (b &&& 7)

/-- Tile events as lane flags; WRAP sets OF (R94). -/
def flagsOfEvents (b : BitVec 5) : BitVec 5 :=
  (if b.getLsbD 4 then 4 else 0) ||| (if b.getLsbD 3 then 16 else 0) ||| (b &&& 7)

/-! ### Round (R75) -/

/-- An exact result before rounding: `val s m e st` is a real of sign s whose magnitude is m × 2^e, or lies
strictly between m × 2^e and (m + 1) × 2^e where st is true. -/
inductive Exact where
  | nan (nv : Bool)
  | inf (s : Bool)
  | zero (s : Bool)
  | val (s : Bool) (m : Nat) (e : Int) (st : Bool)
  deriving DecidableEq, Repr, Inhabited

/-- Whether rounding adds one unit: the mode, the sign, whether the quotient is odd, the remainder compared with
half a unit (0 below, 1 equal, 2 above), and whether the value is exact. -/
def roundsUp (rm : BitVec 2) (s odd : Bool) (half : Nat) (exact : Bool) : Bool :=
  if exact then false
  else match rm.toNat with
    | 0 => half == 2 || (half == 1 && odd)
    | 1 => false
    | 2 => !s
    | _ => s

/-- Overflow (R75). -/
def overflowBits (f : Fmt) (rm : BitVec 2) (s : Bool) : Nat :=
  let big := f.infBits - 1
  f.signed s (match rm.toNat with
    | 0 => f.infBits
    | 1 => big
    | 2 => if s then big else f.infBits
    | _ => if s then f.infBits else big)

/-- Round of a nonzero real (R75). -/
def roundVal (f : Fmt) (rm : BitVec 2) (ftz s : Bool) (m : Nat) (e : Int) (st : Bool) : Nat × BitVec 5 :=
  let lg : Int := (Nat.log2 m : Int) + e
  let tiny := decide (lg < f.emin)
  if tiny && ftz then (f.signed s 0, flUF ||| flNX)
  else
    let ee := max lg f.emin
    let sh := e - (ee - f.fb)
    let k := (-sh).toNat
    let n := if 0 ≤ sh then m * 2 ^ sh.toNat else m / 2 ^ k
    let r := if 0 ≤ sh then 0 else m % 2 ^ k
    let exact := r == 0 && !st
    let half := if 2 * r < 2 ^ k then 0 else if 2 * r == 2 ^ k then (if st then 2 else 1) else 2
    let half := if 0 ≤ sh then 0 else half
    let n' := if roundsUp rm s (n % 2 == 1) half exact then n + 1 else n
    let fl := if exact then 0 else if tiny then flNX ||| flUF else flNX
    let mag := (ee - f.emin).toNat * 2 ^ f.fb + n'
    if decide (lg > (f.bias : Int)) || decide (f.infBits ≤ mag) then (overflowBits f rm s, fl ||| flOF ||| flNX)
    else (f.signed s mag, fl)

/-- The delivered code and the flags of an exact result (R73, R75). -/
def deliver (f : Fmt) (rm : BitVec 2) (ftz : Bool) : Exact → Nat × BitVec 5
  | .nan nv => (f.canon, if nv then flNV else 0)
  | .inf s => (f.signed s f.infBits, 0)
  | .zero s => (f.signed s 0, 0)
  | .val s m e st => roundVal f rm ftz s m e st

/-! ### Exact sums and products -/

/-- A finite signed number ±m × 2^e as an integer over 2^g, for g at most e. -/
def scaled (s : Bool) (m : Nat) (e g : Int) : Int :=
  let a : Int := (m : Int) * 2 ^ (e - g).toNat
  if s then -a else a

/-- The exact value n × 2^e; a zero takes the given sign. -/
def exactOf (n : Int) (e : Int) (zs : Bool) : Exact :=
  if n = 0 then .zero zs else .val (decide (n < 0)) n.natAbs e false

/-- The sign of an exact zero sum of operands that are not zeros of one sign (R76). -/
def zeroSum (rm : BitVec 2) : Bool := rm == 3

/-- Whether a value is a signalling NaN. -/
def FVal.isSNaN : FVal → Bool
  | .nan s => s
  | _ => false

/-- Whether a value is a NaN. -/
def FVal.isNaN : FVal → Bool
  | .nan _ => true
  | _ => false

/-- The sign of a value. -/
def FVal.sign : FVal → Bool
  | .nan _ => false
  | .inf s | .zero s => s
  | .fin s _ _ _ => s

/-- The negated value. -/
def FVal.neg : FVal → FVal
  | .nan s => .nan s
  | .inf s => .inf (!s)
  | .zero s => .zero (!s)
  | .fin s m e b => .fin (!s) m e b

/-- An exact product without NaNs: none where it is 0 × ∞. -/
def mulExact (a b : FVal) : Option FVal :=
  let s := xor a.sign b.sign
  match a, b with
  | .inf _, .zero _ => none
  | .zero _, .inf _ => none
  | .inf _, _ => some (.inf s)
  | _, .inf _ => some (.inf s)
  | .zero _, _ => some (.zero s)
  | _, .zero _ => some (.zero s)
  | .fin _ m e _, .fin _ m' e' _ => some (.fin s (m * m') (e + e') false)
  | _, _ => none

/-- An exact sum without NaNs: NV where it is ∞ − ∞ (R73, R76). -/
def addExact (rm : BitVec 2) (a b : FVal) : Exact :=
  match a, b with
  | .inf s, .inf s' => if s == s' then .inf s else .nan true
  | .inf s, _ => .inf s
  | _, .inf s => .inf s
  | .zero s, .zero s' => .zero (if s == s' then s else zeroSum rm)
  | .zero _, .fin s m e _ => .val s m e false
  | .fin s m e _, .zero _ => .val s m e false
  | .fin s m e _, .fin s' m' e' _ =>
    let g := min e e'
    exactOf (scaled s m e g + scaled s' m' e' g) g (zeroSum rm)
  | _, _ => .nan false

/-- FADD (R212). -/
def fAdd (rm : BitVec 2) (a b : FVal) : Exact :=
  if a.isNaN || b.isNaN then .nan (a.isSNaN || b.isSNaN) else addExact rm a b

/-- FSUB (R212). -/
def fSub (rm : BitVec 2) (a b : FVal) : Exact := fAdd rm a b.neg

/-- A value as an exact result. -/
def FVal.exact : FVal → Exact
  | .nan s => .nan s
  | .inf s => .inf s
  | .zero s => .zero s
  | .fin s m e _ => .val s m e false

/-- FMUL (R212). -/
def fMul (a b : FVal) : Exact :=
  if a.isNaN || b.isNaN then .nan (a.isSNaN || b.isSNaN)
  else match mulExact a b with
    | none => .nan true
    | some p => p.exact

/-- FFMA (R212): 0 × ∞ is invalid even when c is a NaN. -/
def fFma (rm : BitVec 2) (a b c : FVal) : Exact :=
  let zi := match a, b with
    | .zero _, .inf _ => true
    | .inf _, .zero _ => true
    | _, _ => false
  if zi then .nan true
  else if a.isNaN || b.isNaN || c.isNaN then .nan (a.isSNaN || b.isSNaN || c.isSNaN)
  else match mulExact a b with
    | none => .nan true
    | some p => addExact rm p c

/-! ### Comparison, minimum and maximum -/

/-- Order of two values that are not NaNs, −0 equal to +0. -/
def FVal.cmp (a b : FVal) : Ordering :=
  match a, b with
  | .inf s, .inf s' => if s == s' then .eq else if s then .lt else .gt
  | .inf s, _ => if s then .lt else .gt
  | _, .inf s => if s then .gt else .lt
  | .zero _, .zero _ => .eq
  | .zero _, .fin s _ _ _ => if s then .gt else .lt
  | .fin s _ _ _, .zero _ => if s then .lt else .gt
  | .fin s m e _, .fin s' m' e' _ =>
    let g := min e e'
    compare (scaled s m e g) (scaled s' m' e' g)
  | _, _ => .eq

/-- FMIN and FMAX of two codes: the code and NV (R213). -/
def fMinMax (f : Fmt) (ftz isMax : Bool) (x y : Nat) : Nat × BitVec 5 :=
  let a := flushIn ftz f (decF f x)
  let b := flushIn ftz f (decF f y)
  let fl := if a.isSNaN || b.isSNaN then flNV else 0
  let code := fun (v : FVal) (c : Nat) => match v with
    | .zero s => f.signed s 0
    | _ => c
  let aBelow := match a.cmp b with
    | .lt => true
    | .gt => false
    | .eq => a.sign
  let r := if a.isNaN && b.isNaN then f.canon
    else if a.isNaN then code b y
    else if b.isNaN then code a x
    else if a.cmp b == .eq && a.sign == b.sign then code a x
    else if aBelow != isMax then code a x else code b y
  (r, fl)

/-- FCMP (R203): the result and NV. -/
def fCompare (f : Fmt) (ftz : Bool) (cond : Nat) (x y : Nat) : Bool × BitVec 5 :=
  let a := flushIn ftz f (decF f x)
  let b := flushIn ftz f (decF f y)
  let un := a.isNaN || b.isNaN
  let sn := a.isSNaN || b.isSNaN
  let o := a.cmp b
  let ordered := match cond with
    | 0 => o == .eq
    | 1 => o != .eq
    | 2 => o == .lt
    | 3 => o != .gt
    | 4 => o == .gt
    | 5 => o != .lt
    | 6 => false
    | _ => true
  let r := if un then cond == 1 || cond == 6 else ordered
  let nv := if 2 ≤ cond && cond ≤ 5 then un else sn
  (r, if nv then flNV else 0)

/-- FCLASS (R215): the class bit of a code. -/
def fClass (f : Fmt) (x : Nat) : Nat :=
  match decF f x with
  | .inf s => if s then 1 else 128
  | .fin s _ _ sub => if sub then (if s then 4 else 32) else (if s then 2 else 64)
  | .zero s => if s then 8 else 16
  | .nan sig => if sig then 256 else 512

/-! ### Elementary functions (R214) -/

/-- The integer square root, one bit of the result at a time from bit k down. -/
def isqrtFrom (n : Nat) : Nat → Nat → Nat
  | 0, r => r
  | k + 1, r =>
    let r' := r + 2 ^ k
    isqrtFrom n k (if r' * r' ≤ n then r' else r)

/-- The integer square root. -/
def isqrt (n : Nat) : Nat := isqrtFrom n (Nat.log2 n / 2 + 1) 0

/-- 1 ÷ a. -/
def rcpVal (s : Bool) (m : Nat) (e : Int) : Exact :=
  let k := Nat.log2 m + 70
  .val s (2 ^ k / m) (-(k : Int) - e) (2 ^ k % m != 0)

/-- √a. -/
def sqrtVal (m : Nat) (e : Int) : Exact :=
  let m := if e % 2 = 0 then m else 2 * m
  let e := if e % 2 = 0 then e else e - 1
  let n := m * 2 ^ 128
  let r := isqrt n
  .val false r (e / 2 - 64) (r * r != n)

/-- 1 ÷ √a. -/
def rsqVal (m : Nat) (e : Int) : Exact :=
  let m := if e % 2 = 0 then m else 2 * m
  let e := if e % 2 = 0 then e else e - 1
  let k := Nat.log2 m + 140
  let k := k + k % 2
  let r := isqrt (2 ^ k / m)
  .val false r (-(e / 2) - (k / 2 : Nat)) (r * r * m != 2 ^ k)

/-- Fraction bits of the fixed-point working precision. -/
def fixBits : Nat := 760

/-- arctan(1 ÷ x) in fixed point: the alternating series, n terms. -/
def atanInv (x : Nat) : Nat → Nat → Nat → Int → Int
  | 0, _, _, acc => acc
  | n + 1, i, p, acc =>
    let t : Int := (p / (2 * i + 1) : Nat)
    atanInv x n (i + 1) (p / (x * x)) (if i % 2 = 0 then acc + t else acc - t)

/-- π in fixed point, by π = 16 arctan(1/5) − 4 arctan(1/239). -/
def piFix : Nat :=
  let one := 2 ^ (fixBits + 32)
  ((16 * atanInv 5 180 0 (one / 5) 0 - 4 * atanInv 239 60 0 (one / 239) 0) / 2 ^ 32).toNat

/-- ln 2 in fixed point, by ln 2 = Σ 1 ÷ (k 2^k). -/
def ln2From : Nat → Nat → Nat → Nat
  | 0, _, acc => acc
  | n + 1, k, acc => ln2From n (k + 1) (acc + 2 ^ (fixBits + 32) / (k * 2 ^ k))

/-- ln 2 in fixed point. -/
def ln2Fix : Nat := ln2From 800 1 0 / 2 ^ 32

/-- Σ x^i ÷ i! in fixed point from term t, n terms. -/
def expSeries (x : Nat) : Nat → Nat → Nat → Nat → Nat
  | 0, _, _, acc => acc
  | n + 1, i, t, acc => expSeries x n (i + 1) (t * x / 2 ^ fixBits / (i + 1)) (acc + t)

/-- Σ (−1)^i x^(2i+k) ÷ (2i+k)! in fixed point, with x² given: sine for k = 1, cosine for k = 0. -/
def trigSeries (xx : Nat) : Nat → Nat → Nat → Bool → Int → Int
  | 0, _, _, _, acc => acc
  | n + 1, k, t, neg, acc =>
    trigSeries xx n (k + 2) (t * xx / 2 ^ fixBits / ((k + 1) * (k + 2))) (!neg) (if neg then acc - t else acc + t)

/-- Low bits of a fixed-point value that its error bound may reach; they are dropped (log 14). -/
def fixGuard : Nat := 120

/-- 2^a for a = ±m × 2^e. -/
def exp2Val (s : Bool) (m : Nat) (e : Int) : Exact :=
  if (Nat.log2 m : Int) + e ≥ 14 then (if s then .val false 1 (-20000) true else .val false 1 20000 false)
  else
    let g := max (-e).toNat 0
    let n : Int := scaled s m e (-(g : Int))
    let i : Int := n / 2 ^ g
    let fr := (n % 2 ^ g).toNat
    if fr = 0 then .val false 1 i false
    else
      let x := fr * 2 ^ fixBits / 2 ^ g
      let y := x * ln2Fix / 2 ^ fixBits
      let v := expSeries y 150 0 (2 ^ fixBits) 0
      .val false (v / 2 ^ fixGuard) (i - fixBits + fixGuard) true

/-- The fraction bits of log2 y for y in [1, 2) at w fraction bits: squares and compares, n bits. -/
def log2Bits (w : Nat) : Nat → Nat → Nat → Nat
  | 0, _, acc => acc
  | n + 1, y, acc =>
    let y := y * y / 2 ^ w
    if 2 ^ (w + 1) ≤ y then log2Bits w n (y / 2) (2 * acc + 1) else log2Bits w n y (2 * acc)

/-- log2 a for a = m × 2^e. -/
def log2Val (m : Nat) (e : Int) : Exact :=
  let l := Nat.log2 m
  let i : Int := (l : Int) + e
  if m = 2 ^ l then exactOf i 0 false
  else
    let k := 300
    let fr := log2Bits 800 k (m * 2 ^ 800 / 2 ^ l) 0
    if 0 ≤ i then .val false (i.toNat * 2 ^ k + fr) (-(k : Int)) true
    else .val true ((-i).toNat * 2 ^ k - fr - 1) (-(k : Int)) true

/-- sin a or cos a for a = ±m × 2^e, with the argument reduced modulo π ÷ 2 exactly enough for every FP32 value. -/
def trigVal (cosine s : Bool) (m : Nat) (e : Int) : Exact :=
  let x := if 0 ≤ e + fixBits then m * 2 ^ (e + fixBits).toNat else m / 2 ^ (-(e + fixBits)).toNat
  let q := 2 * x / piFix
  let r := (2 * x - q * piFix) / 2
  let quad := q % 4
  let useCos := (quad % 2 == 1) != cosine
  let xx := r * r / 2 ^ fixBits
  let v := (if useCos then trigSeries xx 110 0 (2 ^ fixBits) false 0 else trigSeries xx 110 1 r false 0).natAbs
  let neg := if cosine then quad == 1 || quad == 2 else (quad ≥ 2) != s
  .val neg (v / 2 ^ fixGuard) (-(fixBits : Int) + fixGuard) true

/-- A function opcode on a code: FRCP, FRSQ, FSQRT, FEXP2, FLOG2, FSIN, FCOS by number (R214). -/
def fFunc (f : Fmt) (rm : BitVec 2) (ftz : Bool) (fn : Nat) (x : Nat) : Nat × BitVec 5 :=
  let a := flushIn ftz f (decF f x)
  let out := deliver f rm ftz
  let nv := out (.nan true)
  let inf := fun s => f.signed s f.infBits
  match a, fn with
  | .nan s, _ => out (.nan s)
  | .zero s, 0 => (inf s, flDZ)
  | .inf s, 0 => (f.signed s 0, 0)
  | .fin s m e _, 0 => out (rcpVal s m e)
  | .zero s, 1 => (inf s, flDZ)
  | .inf s, 1 => if s then nv else (0, 0)
  | .fin s m e _, 1 => if s then nv else out (rsqVal m e)
  | .zero s, 2 => (f.signed s 0, 0)
  | .inf s, 2 => if s then nv else (inf false, 0)
  | .fin s m e _, 2 => if s then nv else out (sqrtVal m e)
  | .zero _, 3 => out (.val false 1 0 false)
  | .inf s, 3 => if s then (0, 0) else (inf false, 0)
  | .fin s m e _, 3 => out (exp2Val s m e)
  | .zero _, 4 => (inf true, flDZ)
  | .inf s, 4 => if s then nv else (inf false, 0)
  | .fin s m e _, 4 => if s then nv else out (log2Val m e)
  | .zero s, 5 => (f.signed s 0, 0)
  | .inf _, _ => nv
  | .fin s m e _, 5 => out (trigVal false s m e)
  | .zero _, _ => out (.val false 1 0 false)
  | .fin s m e _, _ => out (trigVal true s m e)

/-! ### Integers, RN8 and L4 (R79 to R84, R217, R218) -/

/-- ±m × 2^e rounded to an integer by a mode, and whether it was one. -/
def roundInt (rm : BitVec 2) (s : Bool) (m : Nat) (e : Int) : Int × Bool :=
  let k := (-e).toNat
  let n := if 0 ≤ e then m * 2 ^ e.toNat else m / 2 ^ k
  let r := if 0 ≤ e then 0 else m % 2 ^ k
  let half := if 2 * r < 2 ^ k then 0 else if 2 * r == 2 ^ k then 1 else 2
  let n' := if roundsUp rm s (n % 2 == 1) half (r == 0) then n + 1 else n
  (if s then -(n' : Int) else n', r == 0)

/-- IntConv (R218). -/
def intConv (rm : BitVec 2) (lo hi : Int) : FVal → Int × BitVec 5
  | .nan _ => (0, flNV)
  | .inf s => (if s then lo else hi, flNV)
  | .zero _ => (0, 0)
  | .fin s m e _ =>
    let r := roundInt rm s m e
    if r.1 < lo then (lo, flNV) else if hi < r.1 then (hi, flNV) else (r.1, if r.2 then 0 else flNX)

/-- DecodeRN8 (R80): the value and NV. -/
def decRN8 (c : BitVec 8) : Int × BitVec 5 :=
  let a := (c.extractLsb' 6 2).toNat
  let b := (c.extractLsb' 3 3).toNat
  let d := (c.extractLsb' 0 3).toNat
  if 2 < a || 4 < b || 6 < d then (0, flNV)
  else
    let v : Int := ((70 * a + 21 * b + 15 * d) % 105 : Nat)
    (if 52 < v then v - 105 else v, 0)

/-- The RN8 code of an integer. -/
def codeRN8 (n : Int) : Nat := (n % 3).toNat * 64 + (n % 5).toNat * 8 + (n % 7).toNat

/-- EncodeRN8 (R80). -/
def encRN8 : FVal → Nat × BitVec 5
  | .nan _ => (0, flNV)
  | .inf s => (codeRN8 (if s then -52 else 52), flNV)
  | .zero _ => (0, 0)
  | .fin s m e _ =>
    let r := roundInt 0 s m e
    if 52 < r.1 || r.1 < -52 then (codeRN8 (if s then -52 else 52), flNV)
    else (codeRN8 r.1, if r.2 then 0 else flNX)

/-- DecodeL4 (R81). -/
def decL4 (c : BitVec 4) : FVal :=
  let e := (c.extractLsb' 0 3).toNat
  if e = 0 then .zero false else .fin (c.getLsbD 3) 1 ((e : Int) - 3) false

/-- EncodeL4 (R83). -/
def encL4 : FVal → Nat × BitVec 5
  | .nan _ => (0, flNV)
  | .inf s => (if s then 15 else 7, flNV)
  | .zero _ => (0, 0)
  | .fin s m e _ =>
    -- compares a with n × 2^-3
    let cmp8 := fun (n : Nat) =>
      let g := min e (-3)
      compare (scaled false m e g) (scaled false n (-3) g)
    let code :=
      if cmp8 1 != .gt then 0 else if cmp8 3 == .lt then 1 else if cmp8 6 != .gt then 2 else if cmp8 12 == .lt then 3
      else if cmp8 24 != .gt then 4 else if cmp8 48 == .lt then 5 else if cmp8 96 != .gt then 6 else 7
    let exact := code != 0 && cmp8 (2 ^ code) == .eq
    let fl := if exact then 0 else if code == 0 then flNX ||| flUF else if cmp8 128 == .gt then flOF ||| flNX else flNX
    (if code = 0 then 0 else if s then 8 + code else code, fl)

/-- An integer as a value. -/
def valOfInt (n : Int) : FVal := if n = 0 then .zero false else .fin (decide (n < 0)) n.natAbs 0 false

/-! ### The matrix engine (R85 to R94) -/

/-- The exact sum of one group's products (R90, R91): the sum, and NV. -/
structure Group where
  nan : Bool := false
  nv  : Bool := false
  pos : Bool := false
  neg : Bool := false
  sum : Int := 0
  negZero : Bool := true
  deriving DecidableEq, Repr, Inhabited

/-- The exponent under which every product of the formats of R90 is an integer. -/
def groupExp : Int := -400

/-- Adds one product to a group (R91). -/
def Group.add (g : Group) (a b : FVal) : Group :=
  if a.isNaN || b.isNaN then { g with nan := true, nv := g.nv || a.isSNaN || b.isSNaN }
  else match mulExact a b with
    | none => { g with nan := true, nv := true }
    | some (.inf s) => if s then { g with neg := true, negZero := false } else { g with pos := true, negZero := false }
    | some (.fin s m e _) => { g with sum := g.sum + scaled s m e groupExp, negZero := false }
    | some (.zero s) => { g with negZero := g.negZero && s }
    | some (.nan _) => g

/-- The value of a group (R91); the sign of an exact zero follows R76 under RNE. Beside a quiet NaN, a product 0 × ∞ raises
NV and infinite products of both signs do not (DESIGN CHOICE, log 100). -/
def Group.value (g : Group) : FVal × Bool :=
  if g.nan then (.nan false, g.nv)
  else if g.pos && g.neg then (.nan false, true)
  else if g.pos then (.inf false, false)
  else if g.neg then (.inf true, false)
  else if g.sum = 0 then (.zero g.negZero, false)
  else (.fin (decide (g.sum < 0)) g.sum.natAbs groupExp false, false)

/-- Adds a group to an FP32 accumulator with one rounding (R90): the code and the lane-flag bits. -/
def accumulate (acc : Nat) (g : Group) : Nat × BitVec 5 :=
  let v := g.value
  let r := deliver f32 0 false (fAdd 0 (decF f32 acc) v.1)
  (r.1, r.2 ||| (if v.2 then flNV else 0))

/-- The four channel moduli and their positions in a cell (R85). -/
def channels : List (Nat × Nat × Nat) := [(255, 0, 8), (256, 8, 8), (257, 16, 9), (251, 25, 8)]

/-- A channel of a residue cell. -/
def channel (c : BitVec 40) (lo len : Nat) : Nat := (c.extractLsb' lo len).toNat

/-- A residue cell from its four channels. -/
def cellOf (c255 c256 c257 c251 : Nat) : BitVec 40 :=
  0#7 ++ BitVec.ofNat 8 c251 ++ BitVec.ofNat 9 c257 ++ BitVec.ofNat 8 c256 ++ BitVec.ofNat 8 c255

/-- Adds an integer to every channel of a residue cell (R86). -/
def residueAdd (c : BitVec 40) (v : Int) : BitVec 40 :=
  let ch := fun (m lo len : Nat) => (((channel c lo len : Nat) : Int) + v % (m : Int)).toNat % m
  cellOf (ch 255 0 8) (ch 256 8 8) (ch 257 16 9) (ch 251 25 8)

/-- YRED of two residue cells (R276). -/
def residueSum (c d : BitVec 40) : BitVec 40 :=
  let ch := fun (m lo len : Nat) => (channel c lo len + channel d lo len) % m
  cellOf (ch 255 0 8) (ch 256 8 8) (ch 257 16 9) (ch 251 25 8)

/-- CRTDecode (R87): the integer and whether WRAP is set. -/
def crtDecode (c : BitVec 40) : Int × Bool :=
  let x : Int := ((channel c 0 8 * 8421376 + channel c 8 8 * 16711425 + channel c 16 9 * 8421120) % 16776960 : Nat)
  let x := if 8388480 ≤ x then x - 16776960 else x
  (x, (x % 251).toNat != channel c 25 8 % 251)

/-- A residue or FP32 cell as a value: the value and the events its decoding raises (R87, R274). -/
def cellValue (fp : Bool) (c : BitVec 40) : FVal × BitVec 5 :=
  if fp then (decF f32 (c.extractLsb' 0 32).toNat, 0)
  else
    let r := crtDecode c
    (valOfInt r.1, if r.2 then 16 else 0)

/-- v × SR × SC as one exact product, with NaNs by R73: a quiet NaN among them comes before 0 × ∞ (DESIGN CHOICE,
log 101). -/
def scaleExact (v sr sc : FVal) : Exact :=
  if v.isNaN || sr.isNaN || sc.isNaN then .nan (v.isSNaN || sr.isSNaN || sc.isSNaN)
  else match mulExact v sr with
    | none => .nan true
    | some p => match mulExact p sc with
      | none => .nan true
      | some q => q.exact

/-- acc + v × SR × SC with one rounding (R275). -/
def scaleAdd (acc v sr sc : FVal) : Exact :=
  match scaleExact v sr sc with
  | .nan nv => .nan (nv || acc.isSNaN)
  | .inf s => fAdd 0 acc (.inf s)
  | .zero s => fAdd 0 acc (.zero s)
  | .val s m e _ => fAdd 0 acc (.fin s m e false)

end Sys2Proof.Machine
end

