-- ==== Sys2Proof/Syntax/Operand.lean ====
section
/-! DEFINITION. The operand fields of Kreud instruction words and the messages that events carry. -/

namespace Sys2Proof

/-- The common tail without RM (R162). -/
structure Tail where
  gn  : Bool
  gp  : BitVec 3
  sba : BitVec 3
  sbw : BitVec 7
  gap : BitVec 3
  yld : Bool
  deriving DecidableEq, Repr, Inhabited

/-- The specials of level 11, indices 48 to 57 (R173). -/
inductive Special where
  | lane | tk | gang | octant | core | grove | clk | clkh | slot | mask
  deriving DecidableEq, Repr, Inhabited

/-- A source specifier (R172, R173). -/
inductive Src where
  | q (age : BitVec 4)
  | n (r : BitVec 5) (last : Bool)
  | g (r : BitVec 6) (hi : Bool)
  | const (i : BitVec 5)
  | fifo (k : BitVec 2) (nb : Bool)
  | wq (k : BitVec 2) (nb : Bool)
  | special (x : Special)
  deriving DecidableEq, Repr, Inhabited

/-- A destination specifier (R176). -/
inductive Dst where
  | push
  | discard
  | n (r : BitVec 5)
  | g (r : BitVec 6) (hi : Bool)
  | wq (k : BitVec 2) (nb : Bool)
  | p (r : BitVec 3)
  deriving DecidableEq, Repr, Inhabited

/-- The second operand of an R/I opcode: a specifier (format R) or IMM18 (format I) (R165). -/
inductive SrcI where
  | src (s : Src)
  | imm (v : BitVec 18)
  deriving DecidableEq, Repr, Inhabited

/-- The operands of LEA after A: B and C specifiers, or IMM18 (R200). -/
inductive LeaI where
  | src (b c : Src)
  | imm (v : BitVec 18)
  deriving DecidableEq, Repr, Inhabited

/-- The amount of SHFL: a specifier, or IMM18[9:5] (R207). -/
inductive ShflAmt where
  | src (s : Src)
  | imm (v : BitVec 5)
  deriving DecidableEq, Repr, Inhabited

/-- An operand marked "u": a g register or an inline constant (R226). -/
inductive USrc where
  | g (r : BitVec 6) (hi : Bool)
  | const (i : BitVec 5)
  deriving DecidableEq, Repr, Inhabited

/-- The condition operand of YIELD (R197). -/
inductive YieldCond where
  | none
  | barrier (g : BitVec 6)
  deriving DecidableEq, Repr, Inhabited

/-- The memory modifier (R169). -/
structure MemMod where
  sx    : Bool
  scope : BitVec 3
  kind  : BitVec 2
  size  : BitVec 3
  deriving DecidableEq, Repr, Inhabited

/-- The modifier of ST.N4 (R236). -/
structure N4Mod where
  sp    : Bool
  scope : BitVec 3
  kind  : BitVec 2
  deriving DecidableEq, Repr, Inhabited

/-- The fields of ATOM and RED beside the operands (R179, R239). -/
structure AtomMod where
  sp    : Bool
  w64   : Bool
  kind  : BitVec 2
  treg  : BitVec 3
  scope : BitVec 3
  deriving DecidableEq, Repr, Inhabited

/-- The format-E fields of an engine command but OP and IMM18 (R171). -/
structure EFields where
  p   : BitVec 6
  abs : BitVec 3
  deriving DecidableEq, Repr, Inhabited

/-- The fields of MLOOP (R266). -/
structure LoopFields where
  x    : BitVec 6
  sg   : BitVec 3
  yd   : BitVec 4
  var  : BitVec 2
  pair : BitVec 3
  xa   : Bool
  xb   : Bool
  deriving DecidableEq, Repr, Inhabited

/-- One message on an Ethernet port: sender, destination endpoint address facts and bytes (R376, R378).
`hdr` is the 64-byte header as one little-endian number. -/
structure JcpMsg where
  src     : BitVec 64
  hdr     : BitVec 512
  payload : List Byte
  deriving DecidableEq, Repr, Inhabited

/-- A write of an INJ_CTL register through JTAG (R440): array, core or slice, and the register's value. -/
structure InjWrite where
  array : BitVec 4
  inst  : Nat
  ctl   : BitVec 128
  deriving DecidableEq, Repr, Inhabited

end Sys2Proof
end

