-- ==== Sys2Proof/Syntax.lean ====
section
/-! DEFINITION. The instructions of Kreud and the steps of the S9: one constructor per row of the opcode table. -/

namespace Sys2Proof

/-- The rows of the opcode table: first the instruction words in the table's order of families, then the
operations and events of the machine. -/
inductive Instr where
  | nop (t : Tail)
  | exit (t : Tail)
  | pbt (t : Tail) (n : BitVec 3) (off : BitVec 30)
  | pbtr (t : Tail) (n : BitVec 3) (g : BitVec 6)
  | xfer (t : Tail) (n j : BitVec 3) (link split : Bool)
  | btinv (t : Tail) (mask : BitVec 8)
  | btmov (t : Tail) (d s : BitVec 3)
  | icinv (t : Tail) (base len : BitVec 6)
  | yield (t : Tail) (cond : YieldCond) (off : BitVec 18)
  | movi (t : Tail) (d : Dst) (imm : BitVec 18)
  | movw (t : Tail) (d : Dst) (imm : BitVec 32)
  | spill (t : Tail) (n : BitVec 5) (rel : Bool) (cm1 : BitVec 5)
  | stage (t : Tail) (n : BitVec 5) (cm1 : BitVec 5) (m : BitVec 8)
  | iadd (t : Tail) (d : Dst) (a : Src) (b : SrcI)
  | isub (t : Tail) (d : Dst) (a : Src) (b : SrcI)
  | imul (t : Tail) (d : Dst) (a : Src) (b : SrcI)
  | imulh (t : Tail) (u : Bool) (d : Dst) (a : Src) (b : SrcI)
  | imad (t : Tail) (d : Dst) (a b c : Src)
  | imin (t : Tail) (u : Bool) (d : Dst) (a : Src) (b : SrcI)
  | imax (t : Tail) (u : Bool) (d : Dst) (a : Src) (b : SrcI)
  | iabs (t : Tail) (d : Dst) (a : Src)
  | and (t : Tail) (d : Dst) (a : Src) (b : SrcI)
  | or (t : Tail) (d : Dst) (a : Src) (b : SrcI)
  | xor (t : Tail) (d : Dst) (a : Src) (b : SrcI)
  | not (t : Tail) (d : Dst) (a : Src)
  | icmp (t : Tail) (cond : BitVec 3) (w64 : Bool) (p : BitVec 3) (a b : Src)
  | fcmp (t : Tail) (cond : BitVec 3) (ty : BitVec 2) (e : Bool) (p : BitVec 3) (a b : Src)
  | plog (t : Tail) (table : BitVec 4) (p : BitVec 3) (na : Bool) (pa : BitVec 3) (nb : Bool) (pb : BitVec 3)
  | pmovR (t : Tail) (d : Dst)
  | pmovW (t : Tail) (a : Src)
  | shl (t : Tail) (d : Dst) (a : Src) (b : SrcI)
  | shr (t : Tail) (d : Dst) (a : Src) (b : SrcI)
  | sar (t : Tail) (d : Dst) (a : Src) (b : SrcI)
  | rot (t : Tail) (d : Dst) (a : Src) (b : SrcI)
  | bfx (t : Tail) (u : Bool) (d : Dst) (a c : Src)
  | bfi (t : Tail) (d : Dst) (a b c : Src)
  | popc (t : Tail) (d : Dst) (a : Src)
  | clz (t : Tail) (d : Dst) (a : Src)
  | brev (t : Tail) (d : Dst) (a : Src)
  | sel (t : Tail) (d : Dst) (a b c : Src)
  | mov (t : Tail) (d : Dst) (a : Src)
  | lea (t : Tail) (d : Dst) (a : Src) (bc : LeaI)
  | voteAnd (t : Tail) (p : BitVec 3) (na : Bool) (pa : BitVec 3)
  | voteOr (t : Tail) (p : BitVec 3) (na : Bool) (pa : BitVec 3)
  | votePar (t : Tail) (p : BitVec 3) (na : Bool) (pa : BitVec 3)
  | voteMask (t : Tail) (d : Dst) (na : Bool) (pa : BitVec 3)
  | voteCnt (t : Tail) (d : Dst) (na : Bool) (pa : BitVec 3)
  | voteLead (t : Tail) (d : Dst) (na : Bool) (pa : BitVec 3)
  | shflSel (t : Tail) (z : Bool) (d : Dst) (a : Src) (v : ShflAmt) (k : BitVec 3)
  | shflRot (t : Tail) (z : Bool) (d : Dst) (a : Src) (v : ShflAmt) (k : BitVec 3)
  | shflRev (t : Tail) (z : Bool) (d : Dst) (a : Src) (v : ShflAmt) (k : BitVec 3)
  | shflXor (t : Tail) (z : Bool) (d : Dst) (a : Src) (v : ShflAmt) (k : BitVec 3)
  | bcast (t : Tail) (d : Dst) (a : Src) (b : USrc)
  | faddF32 (t : Tail) (rm : BitVec 2) (dyn : Bool) (d : Dst) (a b : Src)
  | fsubF32 (t : Tail) (rm : BitVec 2) (dyn : Bool) (d : Dst) (a b : Src)
  | fmulF32 (t : Tail) (rm : BitVec 2) (dyn : Bool) (d : Dst) (a b : Src)
  | ffmaF32 (t : Tail) (rm : BitVec 2) (d : Dst) (a b c : Src)
  | fminF32 (t : Tail) (d : Dst) (a b : Src)
  | fmaxF32 (t : Tail) (d : Dst) (a b : Src)
  | frcpF32 (t : Tail) (rm : BitVec 2) (d : Dst) (a : Src)
  | frsqF32 (t : Tail) (rm : BitVec 2) (d : Dst) (a : Src)
  | fsqrtF32 (t : Tail) (rm : BitVec 2) (d : Dst) (a : Src)
  | fexp2F32 (t : Tail) (rm : BitVec 2) (d : Dst) (a : Src)
  | flog2F32 (t : Tail) (rm : BitVec 2) (d : Dst) (a : Src)
  | fsinF32 (t : Tail) (rm : BitVec 2) (d : Dst) (a : Src)
  | fcosF32 (t : Tail) (rm : BitVec 2) (d : Dst) (a : Src)
  | fclassF32 (t : Tail) (d : Dst) (a : Src)
  | faddF16X2 (t : Tail) (rm : BitVec 2) (dyn : Bool) (d : Dst) (a b : Src)
  | fsubF16X2 (t : Tail) (rm : BitVec 2) (dyn : Bool) (d : Dst) (a b : Src)
  | fmulF16X2 (t : Tail) (rm : BitVec 2) (dyn : Bool) (d : Dst) (a b : Src)
  | ffmaF16X2 (t : Tail) (rm : BitVec 2) (d : Dst) (a b c : Src)
  | fminF16X2 (t : Tail) (d : Dst) (a b : Src)
  | fmaxF16X2 (t : Tail) (d : Dst) (a b : Src)
  | frcpF16X2 (t : Tail) (rm : BitVec 2) (d : Dst) (a : Src)
  | frsqF16X2 (t : Tail) (rm : BitVec 2) (d : Dst) (a : Src)
  | fsqrtF16X2 (t : Tail) (rm : BitVec 2) (d : Dst) (a : Src)
  | fexp2F16X2 (t : Tail) (rm : BitVec 2) (d : Dst) (a : Src)
  | flog2F16X2 (t : Tail) (rm : BitVec 2) (d : Dst) (a : Src)
  | fsinF16X2 (t : Tail) (rm : BitVec 2) (d : Dst) (a : Src)
  | fcosF16X2 (t : Tail) (rm : BitVec 2) (d : Dst) (a : Src)
  | fclassF16X2 (t : Tail) (d : Dst) (a : Src)
  | faddBF16X2 (t : Tail) (rm : BitVec 2) (dyn : Bool) (d : Dst) (a b : Src)
  | fsubBF16X2 (t : Tail) (rm : BitVec 2) (dyn : Bool) (d : Dst) (a b : Src)
  | fmulBF16X2 (t : Tail) (rm : BitVec 2) (dyn : Bool) (d : Dst) (a b : Src)
  | ffmaBF16X2 (t : Tail) (rm : BitVec 2) (d : Dst) (a b c : Src)
  | fminBF16X2 (t : Tail) (d : Dst) (a b : Src)
  | fmaxBF16X2 (t : Tail) (d : Dst) (a b : Src)
  | frcpBF16X2 (t : Tail) (rm : BitVec 2) (d : Dst) (a : Src)
  | frsqBF16X2 (t : Tail) (rm : BitVec 2) (d : Dst) (a : Src)
  | fsqrtBF16X2 (t : Tail) (rm : BitVec 2) (d : Dst) (a : Src)
  | fexp2BF16X2 (t : Tail) (rm : BitVec 2) (d : Dst) (a : Src)
  | flog2BF16X2 (t : Tail) (rm : BitVec 2) (d : Dst) (a : Src)
  | fsinBF16X2 (t : Tail) (rm : BitVec 2) (d : Dst) (a : Src)
  | fcosBF16X2 (t : Tail) (rm : BitVec 2) (d : Dst) (a : Src)
  | fclassBF16X2 (t : Tail) (d : Dst) (a : Src)
  | flagsRd (t : Tail) (d : Dst)
  | flagsClr (t : Tail) (mask : BitVec 5)
  | dadd (t : Tail) (rm : BitVec 2) (dyn : Bool) (d : Dst) (a b : Src)
  | dmul (t : Tail) (rm : BitVec 2) (dyn : Bool) (d : Dst) (a b : Src)
  | dfma (t : Tail) (rm : BitVec 2) (d : Dst) (a b c : Src)
  | dmin (t : Tail) (d : Dst) (a b : Src)
  | dmax (t : Tail) (d : Dst) (a b : Src)
  | cvt (t : Tail) (rm : BitVec 2) (dst src e : BitVec 3) (d : Dst) (a : Src)
  | pack4N4 (t : Tail) (d : Dst) (a b : Src)
  | pack4B8 (t : Tail) (d : Dst) (a b : Src)
  | pack4H16 (t : Tail) (d : Dst) (a b : Src)
  | unpk4N4 (t : Tail) (hi : Bool) (d : Dst) (a : Src)
  | unpk4B8 (t : Tail) (hi : Bool) (d : Dst) (a : Src)
  | unpk4H16 (t : Tail) (hi : Bool) (d : Dst) (a : Src)
  | rngCb (t : Tail) (rounds : BitVec 2) (d : Dst) (a b : Src)
  | vtopk (t : Tail) (km1 : BitVec 3) (w : BitVec 2) (s32 rank : Bool) (d : Dst) (a : Src)
  | ldg (t : Tail) (md : MemMod) (d : Dst) (tr : BitVec 3) (a : Src) (off : BitVec 6)
  | stg (t : Tail) (md : MemMod) (tr : BitVec 3) (a b : Src) (off : BitVec 6)
  | ldp (t : Tail) (md : MemMod) (d : Dst) (a : Src) (off : BitVec 6)
  | stp (t : Tail) (md : MemMod) (a b : Src) (off : BitVec 6)
  | stN4 (t : Tail) (md : N4Mod) (tr : BitVec 3) (a b : Src) (off : BitVec 6)
  | pref (t : Tail) (far : Bool) (tr : BitVec 3) (a : Src) (off : BitVec 6)
  | tbind (t : Tail) (n : BitVec 3) (g : BitVec 6)
  | tinv (t : Tail) (mask : BitVec 8)
  | ptag (t : Tail) (d : Dst) (a : Src)
  | ptset (t : Tail) (d : Dst) (a : Src)
  | ptinv (t : Tail) (d : Dst) (a : Src)
  | rbind (t : Tail) (base len obj : USrc)
  | atomAdd (t : Tail) (md : AtomMod) (d : Dst) (a b : Src)
  | atomMin (t : Tail) (md : AtomMod) (d : Dst) (a b : Src)
  | atomMax (t : Tail) (md : AtomMod) (d : Dst) (a b : Src)
  | atomAnd (t : Tail) (md : AtomMod) (d : Dst) (a b : Src)
  | atomOr (t : Tail) (md : AtomMod) (d : Dst) (a b : Src)
  | atomXor (t : Tail) (md : AtomMod) (d : Dst) (a b : Src)
  | atomXchg (t : Tail) (md : AtomMod) (d : Dst) (a b : Src)
  | atomCas (t : Tail) (md : AtomMod) (d : Dst) (a b : Src)
  | red (t : Tail) (md : AtomMod) (op : BitVec 3) (a b : Src)
  | fence (t : Tail) (scope : BitVec 3)
  | fenceSc (t : Tail) (scope : BitVec 3)
  | pfenceSp (t : Tail)
  | pfenceGl (t : Tail)
  | pfenceAll (t : Tail)
  | acqE (t : Tail) (d : Dst) (a : USrc)
  | relE (t : Tail) (a : USrc)
  | barg (t : Tail)
  | abinit (t : Tail) (a b c : USrc)
  | abexp (t : Tail) (a b : USrc)
  | abarr (t : Tail) (a b : USrc)
  | abwait (t : Tail) (a b : USrc)
  | subl (t : Tail) (tr : BitVec 3) (a b : Src) (off : BitVec 6)
  | unsub (t : Tail) (a : Src)
  | slwait (t : Tail) (d : Dst) (a b : Src)
  | fset (t : Tail) (sp nb : Bool) (a b : USrc)
  | fget (t : Tail) (sp nb : Bool) (d : Dst) (a : USrc)
  | qcfg (t : Tail) (n : BitVec 2) (a b : USrc)
  | xshape (t : Tail) (x : BitVec 5) (a : USrc)
  | xld (t : Tail) (x : BitVec 5) (g : BitVec 6)
  | xst (t : Tail) (x : BitVec 5) (g : BitVec 6)
  | xzero (t : Tail) (x : BitVec 5)
  | xmov (t : Tail) (xd xs : BitVec 5) (tr : Bool)
  | yzero (t : Tail) (y : BitVec 4)
  | yld (t : Tail) (y : BitVec 4) (g : BitVec 6) (cf : Bool)
  | yst (t : Tail) (y : BitVec 4) (g : BitVec 6) (cf : Bool)
  | mma (t : Tail) (pair : BitVec 3) (y : BitVec 4) (xa xb : BitVec 5) (ta tb : Bool)
  | mloop (t : Tail) (e : EFields) (f : LoopFields)
  | ycvt (t : Tail) (yd ys : BitVec 4) (x : BitVec 5) (sf : Bool)
  | ysca (t : Tail) (yd ys : BitVec 4) (x : BitVec 5) (sf : Bool)
  | yred (t : Tail) (yd ys : BitVec 4) (rf : Bool)
  | mwait (t : Tail) (y : BitVec 4)
  | yevtRd (t : Tail) (d : Dst) (y : BitVec 4)
  | yevtClr (t : Tail) (y : BitVec 4) (mask : BitVec 5)
  | leave (t : Tail) (a : USrc)
  | sdef (t : Tail) (n : BitVec 2) (a b c : USrc)
  | sstart (t : Tail) (n : BitVec 2) (a : USrc)
  | sstop (t : Tail) (d : Dst) (n : BitVec 2)
  | isect (t : Tail) (trap : Bool) (d : Dst) (a b : Src) (g : BitVec 6)
  | mrgk (t : Tail) (e : EFields) (s32 : Bool)
  | cpyt (t : Tail) (e : EFields)
  | shuf (t : Tail) (e : EFields)
  | rtset (t : Tail) (k : BitVec 4) (a b : USrc)
  | rtstate (t : Tail) (k : BitVec 4) (d : Dst)
  | rtdrop (t : Tail) (k : BitVec 4)
  | spawn (t : Tail) (d : Dst) (a b c : USrc)
  | tdep (t : Tail) (a b : USrc)
  | tsig (t : Tail) (a b : USrc)
  | tend (t : Tail) (a : USrc)
  | migr (t : Tail) (a b c : USrc)
  | iscene (t : Tail) (d : Dst) (a : USrc)
  | isceneDel (t : Tail) (a : USrc)
  | icon (t : Tail) (a b c : Src)
  | ijnt (t : Tail) (a b c : Src)
  | ijntDel (t : Tail) (a b c : Src)
  | istep (t : Tail) (a b : USrc)
  | ipoll (t : Tail) (d : Dst)
  | igrow (t : Tail) (d : Dst)
  | irest (t : Tail)
  | iinfo (t : Tail) (sel : BitVec 3) (d : Dst) (a : Src)
  | trap (t : Tail) (arg : BitVec 16)
  | sret (t : Tail)
  | sretSkip (t : Tail)
  | rdsr (t : Tail) (d : Dst) (k : BitVec 12)
  | wrsr (t : Tail) (k : BitVec 12) (a : USrc)
  | ckpt (t : Tail) (d : Dst) (a b c : USrc)
  | errinj (t : Tail) (a b c : USrc)
  | swapf (t : Tail) (a b : USrc)
  | halt (t : Tail) (a : USrc)
  | issueSelect (core oct : Nat)
  | resultLand (op : Nat)
  | loadComplete (op : Nat)
  | storePerformed (op acc : Nat)
  | stageComplete (op : Nat)
  | btLineLand (op : Nat)
  | longWaitSatisfied (gang tk slot : Nat)
  | placeGang (task : Nat)
  | activateTussock (gang tk : Nat)
  | stagingDone (gang tk : Nat)
  | parkTussock (gang tk : Nat)
  | deadwait (gang tk slot : Nat)
  | orderedUnload (gang : Nat)
  | windowFillDone (op : Nat)
  | engineStart (op : Nat)
  | leaveGrant (req : Nat)
  | enginePieceCredit (op : Nat)
  | shufComplete (op : Nat)
  | mrgkComplete (op : Nat)
  | mloopStepEnd (op : Nat)
  | tileOpComplete (op : Nat)
  | pushLand (op : Nat)
  | streamFetch (gang tk n : Nat)
  | faultRecordEnter (part : Nat)
  | migrationCopyDone (op : Nat)
  | swapDone (op : Nat)
  | islandStepBoundary (part scene : Nat)
  | islandFillDone (task : Nat)
  | igrowProceed (gang tk slot : Nat)
  | islandRelaunch (part scene island : Nat)
  | sliceEnd (part : Nat)
  | drainDeadline (part : Nat)
  | tenantRestore (part : Nat)
  | intervalStart
  | bucketSweep
  | thermalStepDown (die : Nat)
  | thermalStepUp (die : Nat)
  | arbiterServe (channel : Nat)
  | patrolScrub (word : Nat)
  | portLinkDown (port : Nat)
  | peerUnreachable (part rank : Nat)
  | remoteSpawnReceive (m : JcpMsg)
  | remoteTsigReceive (m : JcpMsg)
  | remoteAckReceive (m : JcpMsg)
  | remoteCompletion (m : JcpMsg)
  | partCreate (m : JcpMsg)
  | partDestroy (m : JcpMsg)
  | memWrite (m : JcpMsg)
  | memRead (m : JcpMsg)
  | launch (m : JcpMsg)
  | preempt (m : JcpMsg)
  | resume (m : JcpMsg)
  | faultFetch (m : JcpMsg)
  | replay (m : JcpMsg)
  | migrate (m : JcpMsg)
  | ckptCommand (m : JcpMsg)
  | restore (m : JcpMsg)
  | attest (m : JcpMsg)
  | peerNonce (m : JcpMsg)
  | peerAdd (m : JcpMsg)
  | fwLoad (m : JcpMsg)
  | telemCoreMask (m : JcpMsg)
  | telemJobRecords (m : JcpMsg)
  | telemServiceUnits (m : JcpMsg)
  | telemErrorLog (m : JcpMsg)
  | resetPartition (m : JcpMsg)
  | resetDevice (m : Option JcpMsg)
  | powerOnReset
  | bootRomLoad (image : List Byte)
  | mctpAddressList (list : List (BitVec 64))
  | taskUnitRequestDone (op : Nat)
  | longLatencyCompletion (op : Nat)
  | jtagInjCtlWrite (w : InjWrite)
  deriving DecidableEq, Repr, Inhabited

end Sys2Proof
end

