-- ==== Sys2Proof/Machine/State.lean ====
section
/-! DEFINITION. The state of the S9 as plain data, its stops, and the state after reset. -/

namespace Sys2Proof.Machine

open Sys2Proof

/-- Bytes by address in one canonical form: addresses strictly rising, no entry holding 0.
An address that is not listed reads as 0 (log 1 for global memory, log 3 for scratchpad). -/
abbrev Memory := List Host.Cell

/-- The canonical form of `Memory`. -/
def Memory.wf : Memory → Bool
  | [] => true
  | [c] => c.2 != 0
  | c :: d :: rest => c.2 != 0 && decide (c.1 < d.1) && Memory.wf (d :: rest)

/-- One value for each of the 32 lanes. -/
abbrev Lanes (w : Nat) := List (BitVec w)

/-! ### A PC slot -/

/-- The three states of a branch-target register (R62). -/
inductive BState where
  | unprep | prep | stale
  deriving DecidableEq, Repr, Inhabited

/-- A branch-target register with the lines of its buffer that have landed, each by its virtual line number (R62). -/
structure BReg where
  target : Addr := 0
  state  : BState := .unprep
  lines  : List (Nat × BitVec 512) := []
  deriving DecidableEq, Repr, Inhabited

/-- The engines of a core that take commands (R112). -/
inductive Engine where
  | copy | shuffle | merge
  deriving DecidableEq, Repr, Inhabited

/-- What an instruction that has not retired waits for, by the stall reasons QUEUE, LEAVE and WINDOW (R43, R47). -/
inductive Stall where
  | tagFull (k : Nat)
  | held
  | clock (at_ : Nat)
  | drain (ops : List Nat) (at_ : Nat)
  | popEmpty (w : Nat)
  | pushFull (w : Nat)
  | fifoEmpty (f : Nat)
  | engineFull (e : Engine)
  | locks (n : Nat)
  | leave (req : Nat)
  | window (ks : List Nat)
  | frames (a b : Nat)
  | loop (op : Nat)
  | absorbed
  deriving DecidableEq, Repr, Inhabited

/-- What a long wait waits for (R43); `dead`: its age has passed the watchdog, and the parked tussock is activated
first (R45). -/
inductive WaitCond where
  | barrier (addr : Nat) (parity : Bool)
  | yieldBarrier (addr : Nat) (parity : Bool)
  | yieldReady
  | future (sp : Bool) (addr : Nat)
  | seq (lanes : List (Nat × Nat × Option (BitVec 16)))
  | window (ks : List Nat)
  | team
  | barg (phase : Bool)
  | dead
  deriving DecidableEq, Repr, Inhabited

/-- Where a long-latency value goes: nowhere, `words` consecutive n registers, or a g register. -/
inductive LDest where
  | none
  | n (r words : Nat)
  | g (r : Nat)
  deriving DecidableEq, Repr, Inhabited

/-- A long wait: its condition, the reference clock at which it began (moved on by the time spent switched
out, R45), the value that woke it (R124), and what its end does: the destination with its lanes, the next PC, the
tail of the word, and the status of its non-blocking pops (R61). -/
structure Wait where
  cond  : WaitCond
  start : Nat
  woken : Option (BitVec 64) := none
  d     : LDest := .none
  mask  : Mask := 0
  next  : Addr := 0
  tl    : Tail := default
  p6    : Option Bool := none
  deriving DecidableEq, Repr, Inhabited

/-- Why a slot is parked without a long wait, or an engine command pauses (R398, R403); a window fill whose fault was
delivered as a trap waits for SRET (R106). -/
inductive Park where
  | fault (id : Nat)
  | moving (entry : Nat)
  | trapped
  deriving DecidableEq, Repr, Inhabited

/-- What the slot's next instruction has already had done for it while it did not retire: a descriptor read,
leave granted, the held tokens drawn towards it, a wait begun, range locks registered under a command's number. -/
structure Phase where
  desc    : Option (BitVec 512) := none
  descOp  : Option Nat := none
  granted : Bool := false
  paid    : Nat := 0
  started : Bool := false
  lockOp  : Option Nat := none
  deriving DecidableEq, Repr, Inhabited

/-- A PC slot (R36, R37, R51). `lone`: if it waits at its join, it does so under rule 6 of R38. -/
structure Slot where
  valid     : Bool := false
  pc        : Addr := 0
  mask      : Mask := 0
  join      : Option Addr := none
  waitJoin  : Bool := false
  lone      : Bool := false
  queue     : List (Lanes 64) := []
  pushes    : Nat := 0
  tags      : List Nat := []
  bregs     : List BReg := []
  lastIssue : Option Nat := none
  gap       : Nat := 0
  yld       : Bool := false
  urgent    : Nat := 0
  fetchAt   : Nat := 0
  fetchOp   : Option Nat := none
  fline     : Option (Nat × BitVec 512) := none
  stall     : Option Stall := none
  wait      : Option Wait := none
  park      : Option Park := none
  hold      : List Nat := []
  homes     : List (Nat × Nat) := []
  phase     : Phase := {}
  deriving DecidableEq, Repr, Inhabited

/-! ### A tussock -/

/-- A translation register (R66, R98). `lines` are the page-table lines it came from (R397). -/
structure TReg where
  bound   : Bool := false
  base    : Addr := 0
  frame   : Nat := 0
  limit   : Nat := 0
  s       : Bool := false
  w       : Bool := false
  retrans : Bool := false
  lines   : List Nat := []
  deriving DecidableEq, Repr, Inhabited

/-- An indirect stream register with its FIFO (R67, R281). `cursor` is the first element not popped, `next`
the first element not fetched, `due` the clock of the next fetch. -/
structure Stream where
  bound   : Bool := false
  ibase   : Addr := 0
  dbase   : Addr := 0
  elog    : Nat := 0
  sx      : Bool := false
  count   : Nat := 0
  started : Bool := false
  cursor  : Nat := 0
  next    : Nat := 0
  fifo    : List (Lanes 32) := []
  due     : Nat := 0
  faulted : Bool := false
  deriving DecidableEq, Repr, Inhabited

/-- A record of the divergence stack (R37). -/
structure StackRec where
  pc     : Addr
  mask   : Mask
  join   : Option Addr
  owner  : Nat
  isPath : Bool
  deriving DecidableEq, Repr, Inhabited

/-- What trap delivery saves of the trapping slot (R409) and what SRET and R411 need. -/
structure HFrame where
  slot       : Nat
  pc         : Addr
  mask       : Mask
  join       : Option Addr
  queue      : List (Lanes 64)
  pushes     : Nat
  bregs      : List BReg
  ended      : Mask
  otherValid : Bool
  depth      : Nat
  deriving DecidableEq, Repr, Inhabited

/-- A tussock (R36, R51). `mBase` is where its m registers start in its octant's main file (R29). -/
structure Tussock where
  oct       : Nat := 0
  mBase     : Nat := 0
  role      : Nat := 0
  ended     : Bool := false
  status    : Nat := 0
  active    : Option Nat := none
  actAt     : Nat := 0
  staging   : Option Nat := none
  parked    : Bool := false
  readySeq  : Nat := 0
  waitSince : Option Nat := none
  n         : List (Lanes 32) := []
  home      : List (Option Nat) := []
  m         : List (Lanes 32) := []
  g         : List (BitVec 64) := []
  p         : List Mask := []
  t         : List TReg := []
  s         : List Stream := []
  fpctl     : BitVec 64 := 0
  flags     : Lanes 5 := []
  stack     : List StackRec := []
  sup       : Bool := false
  trapPc    : BitVec 64 := 0
  trapCode  : BitVec 64 := 0
  trapMask  : BitVec 64 := 0
  trapAddr  : BitVec 64 := 0
  sscr      : List (BitVec 64) := []
  frame     : Option HFrame := none
  tokens    : Nat := 0
  dead      : Mask := 0
  slots     : List Slot := []
  deriving DecidableEq, Repr, Inhabited

/-! ### A gang -/

/-- One role of a role list (R28, R343). -/
structure Role where
  kind  : Nat
  pc    : Addr
  regs  : Nat
  count : Nat
  deriving DecidableEq, Repr, Inhabited

/-- A footprint (R29, R342) with the gang's tussock count and roles; no roles for a plain template. -/
structure Foot where
  entry : Addr := 0
  regs  : Nat := 1
  sp    : Nat := 0
  xt    : Nat := 0
  yt    : Nat := 0
  team  : Nat := 1
  tags  : Option (Nat × Nat) := none
  tus   : Nat := 1
  roles : List Role := []
  deriving DecidableEq, Repr, Inhabited

/-- The states of a window entry but "none" (R105). -/
inductive WState where
  | absent | filling | present
  deriving DecidableEq, Repr, Inhabited

/-- A window of the region table (R104). -/
structure Window where
  desc  : BitVec 512
  state : WState
  bar   : Nat
  deriving DecidableEq, Repr, Inhabited

/-- A tag table: sets, line size, for each of the 4S slots the line held and its recency (R107, R108). -/
structure TagTable where
  sets  : Nat
  z     : Nat
  lines : List (Option Nat)
  used  : List Nat
  stamp : Nat
  deriving DecidableEq, Repr, Inhabited

/-- A gang queue: base and entry count, absolute head and tail, entries made visible (R125). -/
structure WQueue where
  base    : Nat
  entries : Nat
  head    : Nat
  tail    : Nat
  visible : List Nat
  deriving DecidableEq, Repr, Inhabited

/-- An operand tile: its 65,536 bits and XCTL (R251, R252). -/
structure XTile where
  bits : BitVec 65536 := 0
  ctl  : BitVec 64 := 0
  deriving DecidableEq, Repr, Inhabited

/-- An accumulator tile: 64 × 64 cells by rows, the cells last written in the FP32 form and in the residue form alone, and
its events (R85, R93). -/
structure YTile where
  cells  : List (BitVec 40) := []
  fp     : BitVec 4096 := 0
  res    : BitVec 4096 := 0
  events : BitVec 5 := 0
  deriving DecidableEq, Repr, Inhabited

/-- A row of a tile-path or engine read: the clock at which the bank array is read, address, length, and the bytes
once they are read (R258). -/
structure RowRead where
  at_  : Nat
  addr : Nat
  len  : Nat
  got  : Option (List Byte) := none
  deriving DecidableEq, Repr, Inhabited

/-- A member of a matrix loop: tussock, slot, the SBA tag it allocated, its active lanes and the tail of its word
(R269, R272). -/
structure Member where
  tk   : Nat
  slot : Nat
  tag  : Nat
  act  : Mask
  tl   : Tail
  deriving DecidableEq, Repr, Inhabited

/-- A matrix loop that a team is arriving at, prepares, runs or has stopped: the operation's number, the word's bits
[55:20], its parameters, the barrier with its whole register, the XCTL of the A and the B buffers as they stood at issue
(R253), its members and the next step (R269, R272); whether it asked for and holds
leave, was resumed from a record, drew a capped request (R428), and lost a tile to another write (R271); while it
runs, the end of the current step, its bitmap, and the rows of this step and the next. -/
structure Loop where
  id      : Nat := 0
  team    : Nat
  word    : BitVec 36
  params  : List (BitVec 64)
  bar     : Option Nat
  barReg  : BitVec 64 := 0
  ca      : BitVec 64 := 0
  cb      : BitVec 64 := 0
  members : List Member
  step    : Nat := 0
  asked   : Bool := false
  left    : Bool := false
  resumed : Bool := false
  started : Bool := false
  capped  : Bool := false
  raced   : Bool := false
  stepEnd : Nat := 0
  map     : BitVec 64 := 0
  rowsA   : List RowRead := []
  rowsB   : List RowRead := []
  nextA   : List RowRead := []
  nextB   : List RowRead := []
  deriving DecidableEq, Repr, Inhabited

/-- A merge command with its cursors, and the slots whose tag it holds (R287, R289). -/
structure Merge where
  id    : Nat := 0
  tk    : Nat
  slot  : Nat
  tag   : Nat
  tagSlots : List Nat := []
  left  : Bool := false
  asked : Bool := false
  resumed : Bool := false
  started : Bool := false
  capped : Bool := false
  sup   : Bool := false
  pc    : Addr := 0
  paused : Option Park := none
  s32   : Bool
  a     : Nat
  b     : Nat
  o     : Nat
  na    : Nat
  nb    : Nat
  st    : Nat
  bar   : Option Nat
  i     : Nat := 0
  j     : Nat := 0
  k     : Nat := 0
  lastA : Option (BitVec 32) := none
  lastB : Option (BitVec 32) := none
  flags : BitVec 5 := 0
  ended : Bool := false
  deriving DecidableEq, Repr, Inhabited

/-- A window fill of a saved gang that waits for the handler of its fault to return (R106): the slot that touched the
window, its lanes, the descriptor, barrier and window, its level, and the pieces performed. -/
structure Fill where
  tk   : Nat
  slot : Nat
  mask : Mask
  desc : BitVec 512
  bar  : Option Nat
  window : Option Nat
  sup  : Bool
  done : Nat
  deriving DecidableEq, Repr, Inhabited

/-- What makes a gang an island gang: the partition's scene, the island, and the patch (R299 to R309). -/
structure IslGang where
  scene  : Nat
  island : Nat
  patch  : Nat
  deriving DecidableEq, Repr, Inhabited

/-- A generic scratchpad write on its way from a bank write queue to the bank array (R454). -/
structure BankWrite where
  at_  : Nat
  addr : Nat
  byte : Byte
  deriving DecidableEq, Repr, Inhabited

/-- A gang: one task on one core (R28, R29), named by its task. `core = none`: its context is saved or
unloaded. `prio`, `rr`, `handler` and `domain` (the RCB that roots its fault domain, none for the partition
root) are the effective values it was placed with (R25, R27); the three bases are where its scratchpad and tiles
start in the core's arrays (R101). `settled` is the clock by which the writes it may have seen at .grove are performed at their homes (R145). `power` and `far` are the effective POWER_TOKENS of its launch, job and tenant and its
FAR_SHARE (R25, R428, R429), `near` the effective NEAR_FRAMES of the same nodes and the root; `teammis` are the members that take #TEAMMIS at their next MLOOP (R269). -/
structure Gang where
  id      : Nat
  part    : Nat
  tenant  : Nat
  core    : Option Nat := none
  prio    : Nat := 0
  rr      : Bool := false
  handler : Addr := 0
  domain  : Option Nat := none
  foot    : Foot := {}
  spBase  : Nat := 0
  xBase   : Nat := 0
  yBase   : Nat := 0
  sp      : Memory := []
  arr     : Memory := []
  bwq     : List BankWrite := []
  windows : List (Option Window) := []
  tags    : Option TagTable := none
  wqs     : List (Option WQueue) := []
  phase   : Bool := false
  arrived : List (Nat × Nat) := []
  xt      : List XTile := []
  yt      : List YTile := []
  arrivals : List Loop := []
  loops   : List Loop := []
  merges  : List Merge := []
  fills   : List Fill := []
  teammis : List Nat := []
  power   : List (Nat × Nat) := []
  near    : List Nat := []
  far     : Nat := 0
  isl     : Option IslGang := none
  ready   : Bool := true
  stop    : Bool := false
  outAt   : Option Nat := none
  settled : Nat := 0
  order   : Nat := 0
  tks     : List Tussock := []
  deriving DecidableEq, Repr, Inhabited

/-! ### Operations in flight -/

/-- What one lane's access does at its home or bank. -/
inductive AccAct where
  | read
  | write (v : BitVec 128)
  | nib (hi : Bool) (v : BitVec 4)
  | rmw (op : Nat) (b : BitVec 128)
  deriving DecidableEq, Repr, Inhabited

/-- One lane's access: space, address, size in bytes, the clock at which it is performed (the
reference clock for global memory, the core's own for scratchpad), the leaf entry that it was translated through (R393,
R397), the value read, and the bits that an undetected storage error inverts (R435). -/
structure Acc where
  lane : Nat
  glob : Bool
  addr : Nat
  size : Nat
  act  : AccAct
  at_  : Nat
  leaf : Nat := 0
  done : Bool := false
  val  : BitVec 128 := 0
  flip : BitVec 128 := 0
  deriving DecidableEq, Repr, Inhabited

/-- A fixed-latency result on its way: the claimed queue entry, the register or queue written, the lanes, the
values, and the flags it raises or clears (R53, R56, R69). -/
structure Result where
  entry  : Option Nat := none
  qslots : List Nat := []
  nreg   : Option (Nat × Nat) := none
  greg   : Option (Nat × Bool) := none
  preds  : List (Nat × Mask) := []
  wpush  : Option (Nat × Nat) := none
  mask   : Mask := 0
  vals   : Lanes 64 := []
  flags  : Lanes 5 := []
  clear  : BitVec 5 := 0
  inHandler : Bool := false
  wrsr   : Option (Nat × BitVec 64) := none
  deriving DecidableEq, Repr, Inhabited

/-- A tensor copy or window fill: descriptor, barrier, window if a fill, level of the command, whether it has started
and when, the 128-byte pieces performed, bytes performed but not credited (R397), and what pauses it (R285, R403). -/
structure Copy where
  desc    : BitVec 512
  bar     : Option Nat
  window  : Option Nat := none
  sup     : Bool := false
  pc      : Addr := 0
  started : Bool := false
  startAt : Nat := 0
  done    : Nat := 0
  owed    : Nat := 0
  paused  : Option Park := none
  deriving DecidableEq, Repr, Inhabited

/-- A shuffle that runs (R286). -/
structure Shuffle where
  src   : Nat
  dst   : Nat
  table : Nat
  n     : Nat
  elog  : Nat
  bar   : Option Nat
  started : Bool := false
  deriving DecidableEq, Repr, Inhabited

/-- A tile instruction in flight with what it sampled (R254, R257). -/
inductive TileOp where
  | setCtl (x : Nat) (v : BitVec 64)
  | xld (x : Nat) (rows : List RowRead)
  | yld (y : Nat) (f32 : Bool) (rows : List RowRead)
  | store (rows : List (Nat × List Byte))
  | setX (x n : Nat) (bits : BitVec 65536)
  | setCells (y : Nat) (cells : List (Nat × BitVec 40)) (evs : List (Nat × BitVec 5)) (fp : Option Bool)
  | evRd (d : LDest) (v : BitVec 5)
  | evClr (y : Nat) (mask : BitVec 5)
  deriving DecidableEq, Repr, Inhabited

/-- A task of the task unit (R28, R33, R291). -/
structure Task where
  id      : Nat
  part    : Nat
  tenant  : Nat
  job     : Nat
  launch  : Nat
  group   : Nat
  ordered : Bool := false
  index   : Nat := 0
  depth   : Nat := 1
  ctr     : Nat := 0
  ready   : Bool := false
  readySeq : Nat := 0
  placed  : Bool := false
  ended   : Bool := false
  status  : Nat := 0
  aborted : Bool := false
  links   : List Nat := []
  foot    : Foot := {}
  args    : BitVec 64 := 0
  privBase : Nat := 0
  privSz  : Nat := 0
  rank    : Nat := 0
  ranks   : Nat := 1
  origin  : Option (BitVec 64 × Nat) := none
  isl     : Option IslGang := none
  step    : Nat := 0
  relaunch : Bool := false
  deriving DecidableEq, Repr, Inhabited

/-- A request at the task unit or an island unit (R452). A remote request becomes `remote` once its message has gone;
its tag names it in the acknowledgement. `made` is an ISTEP whose boundary has been. -/
inductive TaskReq where
  | spawn (d : LDest) (t : Task)
  | rspawn (d : LDest) (rank : Nat) (node args ctl : BitVec 64) (depth : Nat) (job : Nat)
  | tdep (x y : Nat)
  | tsig (x n : Nat)
  | rsig (rank x n : Nat) (job : Nat)
  | remote (d : LDest) (tag rank : Nat) (spawned : Bool) (job : Nat)
  | icon (cs : List (Nat × Nat × Nat × Nat × BitVec 32))
  | ijnt (cs : List (Nat × Nat × Nat × Nat × BitVec 32)) (del : Bool)
  | iscene (d : LDest) (desc : BitVec 512) (proto : Task)
  | isceneDel (scene : Nat)
  | istep (scene link : Nat)
  | made
  deriving DecidableEq, Repr, Inhabited

/-- A page move by the S9: its page, entry, the entry's marked and old values, frames, and the request it serves: a
task's counter, or a host command by its endpoint and SEQ (R404, R405). `nodes` are the nodes of a gang's request with
their ceilings (R26). -/
structure PageMove where
  va    : Nat
  entry : Nat
  mark  : BitVec 64
  old   : BitVec 64
  src   : Nat
  dst   : Nat
  part  : Nat
  tenant : Nat
  near  : Bool
  link  : Option Nat
  cmd   : Option (Nat × BitVec 32)
  nodes : List (Option Nat × Nat) := []
  deriving DecidableEq, Repr, Inhabited

/-- What an operation in flight is. -/
inductive OpKind where
  | tagOnly
  | result (r : Result)
  | load (d : LDest) (sx : Bool) (accs : List Acc) (acquire : Bool)
  | store (accs : List Acc)
  | atom (d : LDest) (accs : List Acc) (acquire : Bool)
  | stage (regs : List (Nat × Nat × Lanes 32))
  | spill (regs : List (Nat × Lanes 32))
  | btLine (b line : Nat)
  | values (d : LDest) (vals : Lanes 128) (p6 : Option Mask) (g2 : Option (Nat × BitVec 64))
  | tbind (k : Nat) (t : TReg)
  | subl (lanes : List (Nat × Nat × Nat × Nat))
  | unsub (slots : List Nat)
  | acqE (d : LDest) (acc : Acc)
  | relE (acc : Acc) (drain : Nat)
  | rbind (ok : Bool) (bind : Option (Nat × Nat × Nat))
  | barrier (addr : Nat) (kind : Nat) (n : BitVec 32) (link : BitVec 32)
  | desc (accs : List Acc)
  | rtstate (d : LDest) (k : Nat)
  | tile (t : TileOp) (names : List Nat)
  | loop (l : Loop)
  | copy (c : Copy)
  | shuf (s : Shuffle)
  | merge (m : Merge)
  | push (slotAddr : Nat) (value : BitVec 64) (add loc : Nat)
  | move (m : PageMove)
  | moveReq (m : PageMove)
  | swap (a b : Nat)
  | task (r : TaskReq) (dur : Nat)
  | migrQueued (base n : Nat) (task : Nat) (nodes : List (Option Nat × Nat))
  | fill (paused : Option Park)
  | inject (array inst : Nat) (persist : Bool) (addr : BitVec 48) (mask : BitVec 64)
  | rdsr (d : LDest) (k : Nat)
  | ckpt (d : LDest) (tenant : Nat) (v : BitVec 64) (ok : Bool)
  deriving DecidableEq, Repr, Inhabited

/-- An operation in flight: who issued it, on which core its clock counts (none: the reference clock), the core that an
access to global memory or a request to a unit issued from, the clock at which it lands, the tag it holds (R64), the status of its non-blocking
operands (R61), the partition and tenant of an operation that outlives its gang, and the operations that a page-table
write of it waits for (R397). -/
structure Op where
  id    : Nat
  gang  : Nat
  tk    : Nat
  slot  : Nat
  core  : Option Nat
  src   : Option Nat := none
  who   : Option (Nat × Nat) := none
  at_   : Nat
  tag   : Nat := 0
  tagSlots : List Nat := []
  mask  : Mask := 0
  p6    : Option Bool := none
  waits : List Nat := []
  kind  : OpKind
  deriving DecidableEq, Repr, Inhabited

/-! ### Cores and homes -/

/-- A leaf translation in a core's TLB (R396), with the page-table lines it came from (R397). -/
structure TlbEntry where
  part   : Nat
  tenant : Nat
  page   : Nat
  size   : Nat
  frame  : Nat
  s      : Bool
  w      : Bool
  x      : Bool
  lines  : List Nat
  deriving DecidableEq, Repr, Inhabited

/-- A range-lock entry (R114): the command that holds it, whose space, bounds, and side. -/
structure Lock where
  op     : Nat
  gang   : Nat
  glob   : Bool
  part   : Nat
  tenant : Nat
  lo     : Nat
  hi     : Nat
  isDst  : Bool
  deriving DecidableEq, Repr, Inhabited

/-- What an octant remembers of its last selection (R48, R367): gang, tussock and slot, whether it was made at
the previous clock, and the candidate number. -/
structure Octant where
  prev  : Option (Nat × Nat × Nat) := none
  fresh : Bool := false
  cand  : Nat := 7
  deriving DecidableEq, Repr, Inhabited

/-- A core position. -/
structure Core where
  octs    : List Octant := []
  locks   : List Lock := []
  tlb     : List TlbEntry := []
  mmBusy  : Nat := 0
  noPlace : Bool := false
  deriving DecidableEq, Repr, Inhabited

/-- A subscriber: gang, slot address, the pushes counted while it is switched out (R119, R122), and the leaf
entry it subscribed through (R404). -/
structure Subscriber where
  gang   : Nat
  slot   : Nat
  missed : Nat := 0
  leaf   : Nat := 0
  deriving DecidableEq, Repr, Inhabited

/-- A subscription entry: the location, its home slice, and its subscribers (R119). -/
structure SubEntry where
  addr : Nat
  home : Nat := 0
  subs : List Subscriber
  deriving DecidableEq, Repr, Inhabited

/-- A waiter of a future (R124): the cell, the leaf entry it was reached through (R404), and the slot that waits. -/
structure Waiter where
  glob : Bool
  addr : Nat
  leaf : Nat := 0
  gang : Nat
  tk   : Nat
  slot : Nat
  deriving DecidableEq, Repr, Inhabited

/-! ### Tasks, jobs, scenes, partitions -/

/-- A job (R35, R453). `feps` are the fabric addresses of its PGT, `rank` its own rank. -/
structure Job where
  part    : Nat
  tenant  : Nat
  rcb     : Nat
  out     : Nat := 0
  under   : Nat := 0
  done    : Nat := 0
  failed  : Nat := 0
  feps    : List (BitVec 64) := []
  rank    : Nat := 0
  sent    : List (Nat × Nat) := []
  deriving DecidableEq, Repr, Inhabited

/-- An edge of a scene: lower body, higher body, tag, joint (R300, R304, R305). -/
structure Edge where
  a     : Nat
  b     : Nat
  tag   : BitVec 32
  joint : Bool
  deriving DecidableEq, Repr, Inhabited

/-- The states of an island (R306, R310). -/
inductive IState where
  | awake | running | patched | idle | sleeping | absorbed | sleepingAbsorbed | merged | growfail
  deriving DecidableEq, Repr, Inhabited

/-- An island that is not the single sleeping island of one body (R299, R306): its bodies by patch and slot, and the edges
that its gangs are filled with. -/
structure Island where
  num     : Nat
  bodies  : List Nat
  state   : IState
  pendAt  : Option Nat := none
  tasks   : List Nat := []
  edges   : List Edge := []
  rest    : Bool := false
  deriving DecidableEq, Repr, Inhabited

/-- A scene (R297, R298). `proto` is the task that its gangs are made from; `old` holds the contacts of step s,
`contacts` those stored for step s + 1; `stepTasks` are the gangs of the step that have not ended, `link` the task that
their end decrements. -/
structure Scene where
  num      : Nat
  tenant   : Nat
  desc     : BitVec 512
  proto    : Task
  step     : Nat := 0
  contacts : List Edge := []
  old      : List Edge := []
  joints   : List Edge := []
  islands  : List Island := []
  launched : Nat := 0
  stepTasks : List Nat := []
  link     : Option Nat := none
  deleting : Bool := false
  deriving DecidableEq, Repr, Inhabited

/-- A command endpoint (R379): the SEQ it expects, the stored responses, the command it runs and those behind it; for
a command whose writes are made, the operations that their completion waits for (R397). -/
structure Endpoint where
  seq    : BitVec 32 := 0
  stored : List (BitVec 32 × JcpMsg) := []
  busy   : Option JcpMsg := none
  queue  : List JcpMsg := []
  waits  : Option (List Nat) := none
  deriving DecidableEq, Repr, Inhabited

/-- A binding of a range to a sync object (R138): virtual range and object, and the clock by which the bound writes
issued so far are performed. -/
structure Binding where
  tenant : Nat
  lo     : Nat
  len    : Nat
  obj    : Nat
  drain  : Nat
  deriving DecidableEq, Repr, Inhabited

/-- A peer registered for a tenant's checkpoints (R421). -/
structure Peer where
  tenant : Nat
  devId  : BitVec 64
  key    : List Byte
  deriving DecidableEq, Repr, Inhabited

/-- Tokens a node has spent in this interval (R428), by tenant and RCB address. -/
structure Spent where
  tenant : Nat
  node   : Nat
  tokens : Nat
  deriving DecidableEq, Repr, Inhabited

/-- Near frames that the S9 has taken for a launch, job or tenant (the nodes), or for the partition root alone (none):
MIGR, MIGRATE, RESTORE and scenes (R26, R298, R405, R422). `frames` are those that hold a page, `count` the others. -/
structure FrameUse where
  tenant : Nat
  nodes  : List Nat
  count  : Nat
  frames : List Nat := []
  deriving DecidableEq, Repr, Inhabited

/-- An event of a partition that is not sent yet (R383): its code, its arguments, and the operations whose writes it
releases. -/
structure Unsent where
  op    : Nat
  a0    : BitVec 64
  a1    : BitVec 64
  a2    : BitVec 64
  waits : List Nat
  deriving DecidableEq, Repr, Inhabited

/-- A partition (R381). -/
structure Partition where
  num      : Nat
  granules : BitVec 48
  cxl      : BitVec 16
  eth      : BitVec 16
  sys      : Bool
  root     : BitVec 1024
  weights  : List (BitVec 16)
  fabric   : List (BitVec 64)
  powerMin : Nat
  floors   : List Nat
  eps      : List Endpoint
  eventSeq : BitVec 32 := 0
  unsent   : List Unsent := []
  running  : Option Nat := none
  last     : Nat := 255
  sliceEnd : Nat := 0
  drain    : Option Nat := none
  held     : List Nat := []
  halted   : Bool := false
  halting  : Option (BitVec 16) := none
  measures : List (Nat × BitVec 512) := []
  peers    : List Peer := []
  nonces   : List (Nat × BitVec 256 × Nat) := []
  ckpts    : List (Nat × Nat) := []
  binds    : List Binding := []
  pubs     : List (Nat × Nat) := []
  scenes   : List Scene := []
  jobs     : List Job := []
  nextFault : BitVec 32 := 0
  records  : List (Nat × BitVec 256) := []
  bufferHead : Nat := 0
  waitRecs : List (BitVec 256) := []
  bucket   : Nat := 0
  spent    : List Spent := []
  drawn    : List (Nat × Nat) := []
  lastPool : Nat := 0
  lastBucket : Nat := 0
  curPool  : Nat := 0
  curBucket : Nat := 0
  frames   : List FrameUse := []
  deriving DecidableEq, Repr, Inhabited

/-- A request at a power governor or the pool (R428); `hold`: a LEAVE, whose tokens the tussock then holds (R273);
`carried`: its place among the requests that waited when the interval began, from 1 (0: made since). -/
structure LeaveReq where
  id     : Nat
  part   : Nat
  tenant : Nat
  launch : Nat
  gang   : Nat
  tk     : Nat
  slot   : Nat
  tokens : Nat
  op     : Option Nat
  hold   : Bool := false
  carried : Nat := 0
  deriving DecidableEq, Repr, Inhabited

/-! ### The device -/

/-- The states of boot (R434). -/
inductive Boot where
  | rom | waitfw | ready | locked
  deriving DecidableEq, Repr, Inhabited

/-- The operating points of an island (R424). -/
inductive Point where
  | p0 | p1 | p2 | off
  deriving DecidableEq, Repr, Inhabited

/-- An armed injection (R440): array, core or slice, persistence, address and mask; `nat` marks a storage upset
from outside (R435) in its place. -/
structure Inj where
  array   : Nat
  home    : Nat
  persist : Bool
  addr    : BitVec 48
  mask    : BitVec 64
  nat     : Bool := false
  deriving DecidableEq, Repr, Inhabited

/-- An error-log entry of one array (R439). -/
structure ErrLog where
  array : Nat
  home  : Nat
  entry : BitVec 256
  order : Nat
  deriving DecidableEq, Repr, Inhabited

/-- Counts that lead to early sparing of a location (R436). -/
structure ErrCount where
  array     : Nat
  home      : Nat
  addr      : Nat
  transient : Nat
  corrected : Nat
  deriving DecidableEq, Repr, Inhabited

/-- A message the device has sent (R380, R383): partition (63 the management endpoint), address, header, payload. -/
structure OutMsg where
  part    : Nat
  dest    : BitVec 64
  hdr     : BitVec 512
  payload : List Byte
  deriving DecidableEq, Repr, Inhabited

/-- A requester's counter at an arbiter in this interval (R429): channel, partition, job; the units it was served, and its
counter, which is the exact quotient num ÷ den. -/
structure Counter where
  ch     : Nat
  part   : Nat
  job    : Nat
  served : Nat
  num    : Nat
  den    : Nat
  deriving DecidableEq, Repr, Inhabited

/-- A request at an arbiter that is not served yet (R429). -/
structure Demand where
  ch    : Nat
  part  : Nat
  job   : Nat
  units : Nat
  deriving DecidableEq, Repr, Inhabited

/-- The part of the device that no partition owns. `warm`: a die was at its limit at some time in this interval (R424). -/
structure Device where
  cores     : BitVec 192
  retired   : BitVec 192
  points    : List Point
  hot       : List Bool
  warm      : List Bool
  cool      : List Nat
  stepped   : List Nat
  gclk      : List Nat
  gacc      : List Nat
  boot      : Boot
  fwKey     : List Byte
  fw        : List (Nat × List Byte)
  fwMeas    : BitVec 512
  flash     : BitVec 16
  keyGen    : Nat
  counters  : List (BitVec 512 × BitVec 64)
  spares    : List (Nat × Nat × Nat)
  logs      : List ErrLog
  errs      : List ErrCount
  injs      : List Inj
  mgmt      : Endpoint
  mgmtAddrs : List (BitVec 64)
  pool      : Nat
  poolQ     : List LeaveReq
  intStart  : Nat
  swept     : Bool
  cxlUp     : BitVec 16
  ethUp     : BitVec 16
  downSince : List (Nat × Nat)
  arb       : List Counter
  demand    : List Demand
  ticket    : Nat
  scrub     : Nat
  deriving DecidableEq, Repr, Inhabited

/-- An input from outside the machine that no step has taken yet. -/
inductive Input where
  | jcp (m : JcpMsg)
  | peerLost (part rank : Nat)
  | portLink (port : Nat) (up : Bool)
  | dieHot (die : Nat) (hot : Bool)
  | jtagReset
  | jtagInj (w : InjWrite)
  | mctpList (l : List (BitVec 64))
  | firstStage (image : List Byte)
  | powerOn
  | upset (i : Inj)
  deriving DecidableEq, Repr, Inhabited

/-- The slot whose instruction the next step runs (R47): gang, tussock, slot. -/
structure Cur where
  gang : Nat
  tk   : Nat
  slot : Nat
  deriving DecidableEq, Repr, Inhabited

/-- The machine. `now` is CLK (R319). `seed` counts free values (log 5). `cur`, `sweep` and `inbox` say which
step comes next (log 6). -/
structure State where
  now    : Nat
  mem    : Memory
  dev    : Device
  cores  : List Core
  parts  : List Partition
  gangs  : List Gang
  tasks  : List Task
  ops    : List Op
  subs   : List SubEntry
  waiters : List Waiter
  fifo   : List (Nat × Nat × Nat)
  nextTask : Nat
  nextSeq : Nat
  nextOp : Nat
  seed   : Nat
  cur    : Option Cur
  sweep  : List (Nat × Nat)
  inbox  : List Input
  outbox : List OutMsg
  deriving DecidableEq, Repr, Inhabited

/-! ### Stops -/

/-- Why a step stops with a fault. -/
inductive Fault where
  /-- Raised by the meaning of an instruction word when no slot issues it. No run reaches it. Safe. -/
  | noIssuingSlot
  deriving DecidableEq, Repr, Inhabited

/-- Why a step has no meaning. -/
inductive Refusal where
  /-- Raised by the dispatch for an instruction that has no meaning yet. Safe. -/
  | notModelled (mnemonic : String)
  deriving DecidableEq, Repr, Inhabited

/-- What a step answers. -/
abbrev Out := Host.Outcome State Fault Refusal

/-! ### Reset -/

/-- A core position after reset. -/
def Core.reset : Core := { octs := List.replicate 8 {} }

/-- The device after reset (R433, R434): no firmware, no partition, every granule off; an interval begins, so the pool
holds every token (R425, R427). Every core position is enabled: R1 leaves the number and the positions to the part (DESIGN
CHOICE, log 92; the other values without one in the spec, log 2). -/
def Device.reset : Device where
  cores     := BitVec.allOnes 192
  retired   := 0
  points    := List.replicate 64 .off
  hot       := List.replicate 8 false
  warm      := List.replicate 8 false
  cool      := List.replicate 8 0
  stepped   := List.replicate 8 0
  gclk      := List.replicate 48 0
  gacc      := List.replicate 48 0
  boot      := .rom
  fwKey     := []
  fw        := []
  fwMeas    := 0
  flash     := 0
  keyGen    := 0
  counters  := []
  spares    := []
  logs      := []
  errs      := []
  injs      := []
  mgmt      := {}
  mgmtAddrs := []
  pool      := 607392
  poolQ     := []
  intStart  := 0
  swept     := false
  cxlUp     := BitVec.allOnes 16
  ethUp     := BitVec.allOnes 16
  downSince := []
  arb       := []
  demand    := []
  ticket    := 0
  scrub     := 0

/-- The machine right after power-on reset (R433). -/
def State.reset : State where
  now    := 0
  mem    := []
  dev    := Device.reset
  cores  := List.replicate 192 Core.reset
  parts  := []
  gangs  := []
  tasks  := []
  ops    := []
  subs   := []
  waiters := []
  fifo   := []
  nextTask := 1
  nextSeq := 0
  nextOp := 0
  seed   := 0
  cur    := none
  sweep  := []
  inbox  := []
  outbox := []

end Sys2Proof.Machine
end

