-- ==== Sys2Proof/Machine/Codec.lean ====
section
/-! DEFINITION. That the contexts of a tenant can be laid out in bytes and read back: one way to do it. The firmware's own
layout (R419) is not this one; nothing depends on it. -/

namespace Sys2Proof.Machine

open Sys2Proof

/-- A way to write values of a type as bytes that can be read back whatever follows them. -/
structure Ser (α : Type) where
  put : α → List Byte
  get : List Byte → Option (α × List Byte)
  law : ∀ a rest, get (put a ++ rest) = some (a, rest)

namespace Ser

/-- Nothing to write. -/
def unit : Ser Unit := ⟨fun _ => [], fun bs => some ((), bs), fun _ _ => rfl⟩

/-- Another type with the same values. -/
def iso {α β : Type} (s : Ser α) (f : α → β) (g : β → α) (h : ∀ b, f (g b) = b) : Ser β where
  put := fun b => s.put (g b)
  get := fun bs => (s.get bs).map (fun r => (f r.1, r.2))
  law := fun b rest => by simp [s.law, h]

/-- One after the other. -/
def prod {α β : Type} (s : Ser α) (t : Ser β) : Ser (α × β) where
  put := fun p => s.put p.1 ++ t.put p.2
  get := fun bs => (s.get bs).bind (fun r => (t.get r.2).map (fun q => ((r.1, q.1), q.2)))
  law := fun p rest => by simp [s.law, t.law, List.append_assoc]

/-- Either, with a byte that says which. -/
def sum {α β : Type} (s : Ser α) (t : Ser β) : Ser (α ⊕ β) where
  put := fun v => match v with
    | .inl a => 0#8 :: s.put a
    | .inr b => 1#8 :: t.put b
  get := fun bs => match bs with
    | [] => none
    | c :: bs => if c = 0#8 then (s.get bs).map (fun r => (.inl r.1, r.2)) else (t.get bs).map (fun r => (.inr r.1, r.2))
  law := fun v rest => by cases v <;> simp [s.law, t.law]

/-- A truth value. -/
def bool : Ser Bool := (unit.sum unit).iso Sum.isRight (fun b => if b then .inr () else .inl ()) (fun b => by cases b <;> rfl)

/-- A value that may be absent. -/
def opt {α : Type} (s : Ser α) : Ser (Option α) :=
  (unit.sum s).iso (fun v => v.getRight?) (fun o => o.elim (.inl ()) .inr) (fun o => by cases o <;> rfl)

/-- The base-255 digits of a number from the lowest, and a byte that ends them. -/
def digits : Nat → Nat → List Byte
  | 0, _ => [255#8]
  | fuel + 1, n => if n = 0 then [255#8] else BitVec.ofNat 8 (n % 255) :: digits fuel (n / 255)

/-- Reads digits. -/
def undigits : List Byte → Option (Nat × List Byte)
  | [] => none
  | b :: bs => if b = 255#8 then some (0, bs) else (undigits bs).map (fun r => (b.toNat + 255 * r.1, r.2))

theorem undigits_digits (fuel n : Nat) (rest : List Byte) (h : n ≤ fuel) : undigits (digits fuel n ++ rest) = some (n, rest) := by
  induction fuel generalizing n with
  | zero => obtain rfl : n = 0 := by omega
            rfl
  | succ k ih =>
    by_cases hn : n = 0
    · subst hn; rfl
    · have hb : ¬BitVec.ofNat 8 (n % 255) = 255#8 := by
        intro e
        have := congrArg BitVec.toNat e
        simp only [BitVec.toNat_ofNat] at this
        omega
      simp only [digits, hn, if_false, List.cons_append, undigits, hb, ih (n / 255) (by omega), Option.map_some, Option.some.injEq,
        Prod.mk.injEq, and_true, BitVec.toNat_ofNat]
      omega

/-- A number. -/
def nat : Ser Nat := ⟨fun n => digits n n, undigits, fun n rest => undigits_digits n n rest (Nat.le_refl n)⟩

/-- A bit vector. -/
def bits (w : Nat) : Ser (BitVec w) := nat.iso (BitVec.ofNat w) BitVec.toNat (fun v => by simp)

/-- Reads n values. -/
def getMany {α : Type} (s : Ser α) : Nat → List Byte → Option (List α × List Byte)
  | 0, bs => some ([], bs)
  | n + 1, bs => (s.get bs).bind (fun r => (s.getMany n r.2).map (fun q => (r.1 :: q.1, q.2)))

theorem getMany_put {α : Type} (s : Ser α) (l : List α) (rest : List Byte) :
    s.getMany l.length (l.flatMap s.put ++ rest) = some (l, rest) := by
  induction l with
  | nil => rfl
  | cons a l ih => simp [getMany, s.law, ih, List.append_assoc]

/-- A list, behind its length. -/
def list {α : Type} (s : Ser α) : Ser (List α) where
  put := fun l => nat.put l.length ++ l.flatMap s.put
  get := fun bs => (nat.get bs).bind (fun r => s.getMany r.1 r.2)
  law := fun l rest => by simp [nat.law, List.append_assoc, s.getMany_put]

end Ser

/-- Values of `TReg`. -/
def serTReg : Ser TReg :=
  ((Ser.bool.prod ((Ser.bits 48).prod (Ser.nat.prod (Ser.nat.prod (Ser.bool.prod (Ser.bool.prod (Ser.bool.prod
  Ser.nat.list)))))))).iso
    (fun x => ⟨x.1, x.2.1, x.2.2.1, x.2.2.2.1, x.2.2.2.2.1, x.2.2.2.2.2.1, x.2.2.2.2.2.2.1, x.2.2.2.2.2.2.2⟩)
    (fun v => (v.bound, v.base, v.frame, v.limit, v.s, v.w, v.retrans, v.lines)) (fun _ => rfl)

/-- Values of `Stream`. -/
def serStream : Ser Stream :=
  ((Ser.bool.prod ((Ser.bits 48).prod ((Ser.bits 48).prod (Ser.nat.prod (Ser.bool.prod (Ser.nat.prod (Ser.bool.prod
  (Ser.nat.prod (Ser.nat.prod ((Ser.bits 32).list.list.prod (Ser.nat.prod Ser.bool)))))))))))).iso
    (fun x => ⟨x.1, x.2.1, x.2.2.1, x.2.2.2.1, x.2.2.2.2.1, x.2.2.2.2.2.1, x.2.2.2.2.2.2.1, x.2.2.2.2.2.2.2.1,
      x.2.2.2.2.2.2.2.2.1, x.2.2.2.2.2.2.2.2.2.1, x.2.2.2.2.2.2.2.2.2.2.1, x.2.2.2.2.2.2.2.2.2.2.2⟩)
    (fun v => (v.bound, v.ibase, v.dbase, v.elog, v.sx, v.count, v.started, v.cursor, v.next, v.fifo, v.due,
      v.faulted)) (fun _ => rfl)

/-- Values of `StackRec`. -/
def serStackRec : Ser StackRec :=
  (((Ser.bits 48).prod ((Ser.bits 32).prod ((Ser.bits 48).opt.prod (Ser.nat.prod Ser.bool))))).iso
    (fun x => ⟨x.1, x.2.1, x.2.2.1, x.2.2.2.1, x.2.2.2.2⟩)
    (fun v => (v.pc, v.mask, v.join, v.owner, v.isPath)) (fun _ => rfl)

/-- Values of `BState`. -/
def serBState : Ser BState :=
  Ser.nat.iso (fun k => [.unprep, .prep, .stale].getD k .unprep)
    (fun v => match v with
      | .unprep => 0
      | .prep => 1
      | .stale => 2)
    (fun v => by cases v <;> rfl)

/-- Values of `BReg`. -/
def serBReg : Ser BReg :=
  (((Ser.bits 48).prod (serBState.prod (Ser.nat.prod (Ser.bits 512)).list))).iso
    (fun x => ⟨x.1, x.2.1, x.2.2⟩)
    (fun v => (v.target, v.state, v.lines)) (fun _ => rfl)

/-- Values of `HFrame`. -/
def serHFrame : Ser HFrame :=
  ((Ser.nat.prod ((Ser.bits 48).prod ((Ser.bits 32).prod ((Ser.bits 48).opt.prod ((Ser.bits 64).list.list.prod
  (Ser.nat.prod (serBReg.list.prod ((Ser.bits 32).prod (Ser.bool.prod Ser.nat)))))))))).iso
    (fun x => ⟨x.1, x.2.1, x.2.2.1, x.2.2.2.1, x.2.2.2.2.1, x.2.2.2.2.2.1, x.2.2.2.2.2.2.1, x.2.2.2.2.2.2.2.1,
      x.2.2.2.2.2.2.2.2.1, x.2.2.2.2.2.2.2.2.2⟩)
    (fun v => (v.slot, v.pc, v.mask, v.join, v.queue, v.pushes, v.bregs, v.ended, v.otherValid, v.depth)) (fun _ =>
      rfl)

/-- Values of `Engine`. -/
def serEngine : Ser Engine :=
  Ser.nat.iso (fun k => [.copy, .shuffle, .merge].getD k .copy)
    (fun v => match v with
      | .copy => 0
      | .shuffle => 1
      | .merge => 2)
    (fun v => by cases v <;> rfl)

/-- Values of `Stall`. -/
def serStall : Ser Stall :=
  ((Ser.nat.sum (Ser.unit.sum (Ser.nat.sum ((Ser.nat.list.prod Ser.nat).sum (Ser.nat.sum (Ser.nat.sum (Ser.nat.sum
  (serEngine.sum (Ser.nat.sum (Ser.nat.sum (Ser.nat.list.sum ((Ser.nat.prod Ser.nat).sum (Ser.nat.sum
  Ser.unit)))))))))))))).iso
    (fun x => match x with
      | .inl a0 => .tagFull a0
      | .inr (.inl _) => .held
      | .inr (.inr (.inl a0)) => .clock a0
      | .inr (.inr (.inr (.inl (a0, a1)))) => .drain a0 a1
      | .inr (.inr (.inr (.inr (.inl a0)))) => .popEmpty a0
      | .inr (.inr (.inr (.inr (.inr (.inl a0))))) => .pushFull a0
      | .inr (.inr (.inr (.inr (.inr (.inr (.inl a0)))))) => .fifoEmpty a0
      | .inr (.inr (.inr (.inr (.inr (.inr (.inr (.inl a0))))))) => .engineFull a0
      | .inr (.inr (.inr (.inr (.inr (.inr (.inr (.inr (.inl a0)))))))) => .locks a0
      | .inr (.inr (.inr (.inr (.inr (.inr (.inr (.inr (.inr (.inl a0))))))))) => .leave a0
      | .inr (.inr (.inr (.inr (.inr (.inr (.inr (.inr (.inr (.inr (.inl a0)))))))))) => .window a0
      | .inr (.inr (.inr (.inr (.inr (.inr (.inr (.inr (.inr (.inr (.inr (.inl (a0, a1)))))))))))) => .frames a0 a1
      | .inr (.inr (.inr (.inr (.inr (.inr (.inr (.inr (.inr (.inr (.inr (.inr (.inl a0)))))))))))) => .loop a0
      | .inr (.inr (.inr (.inr (.inr (.inr (.inr (.inr (.inr (.inr (.inr (.inr (.inr _)))))))))))) => .absorbed)
    (fun v => match v with
      | .tagFull a0 => .inl a0
      | .held => .inr (.inl ())
      | .clock a0 => .inr (.inr (.inl a0))
      | .drain a0 a1 => .inr (.inr (.inr (.inl (a0, a1))))
      | .popEmpty a0 => .inr (.inr (.inr (.inr (.inl a0))))
      | .pushFull a0 => .inr (.inr (.inr (.inr (.inr (.inl a0)))))
      | .fifoEmpty a0 => .inr (.inr (.inr (.inr (.inr (.inr (.inl a0))))))
      | .engineFull a0 => .inr (.inr (.inr (.inr (.inr (.inr (.inr (.inl a0)))))))
      | .locks a0 => .inr (.inr (.inr (.inr (.inr (.inr (.inr (.inr (.inl a0))))))))
      | .leave a0 => .inr (.inr (.inr (.inr (.inr (.inr (.inr (.inr (.inr (.inl a0)))))))))
      | .window a0 => .inr (.inr (.inr (.inr (.inr (.inr (.inr (.inr (.inr (.inr (.inl a0))))))))))
      | .frames a0 a1 => .inr (.inr (.inr (.inr (.inr (.inr (.inr (.inr (.inr (.inr (.inr (.inl (a0, a1))))))))))))
      | .loop a0 => .inr (.inr (.inr (.inr (.inr (.inr (.inr (.inr (.inr (.inr (.inr (.inr (.inl a0))))))))))))
      | .absorbed => .inr (.inr (.inr (.inr (.inr (.inr (.inr (.inr (.inr (.inr (.inr (.inr (.inr ())))))))))))))
    (fun v => by cases v <;> rfl)

/-- Values of `WaitCond`. -/
def serWaitCond : Ser WaitCond :=
  (((Ser.nat.prod Ser.bool).sum ((Ser.nat.prod Ser.bool).sum (Ser.unit.sum ((Ser.bool.prod Ser.nat).sum
  ((Ser.nat.prod (Ser.nat.prod (Ser.bits 16).opt)).list.sum (Ser.nat.list.sum (Ser.unit.sum (Ser.bool.sum
  Ser.unit))))))))).iso
    (fun x => match x with
      | .inl (a0, a1) => .barrier a0 a1
      | .inr (.inl (a0, a1)) => .yieldBarrier a0 a1
      | .inr (.inr (.inl _)) => .yieldReady
      | .inr (.inr (.inr (.inl (a0, a1)))) => .future a0 a1
      | .inr (.inr (.inr (.inr (.inl a0)))) => .seq a0
      | .inr (.inr (.inr (.inr (.inr (.inl a0))))) => .window a0
      | .inr (.inr (.inr (.inr (.inr (.inr (.inl _)))))) => .team
      | .inr (.inr (.inr (.inr (.inr (.inr (.inr (.inl a0))))))) => .barg a0
      | .inr (.inr (.inr (.inr (.inr (.inr (.inr (.inr _))))))) => .dead)
    (fun v => match v with
      | .barrier a0 a1 => .inl (a0, a1)
      | .yieldBarrier a0 a1 => .inr (.inl (a0, a1))
      | .yieldReady => .inr (.inr (.inl ()))
      | .future a0 a1 => .inr (.inr (.inr (.inl (a0, a1))))
      | .seq a0 => .inr (.inr (.inr (.inr (.inl a0))))
      | .window a0 => .inr (.inr (.inr (.inr (.inr (.inl a0)))))
      | .team => .inr (.inr (.inr (.inr (.inr (.inr (.inl ()))))))
      | .barg a0 => .inr (.inr (.inr (.inr (.inr (.inr (.inr (.inl a0)))))))
      | .dead => .inr (.inr (.inr (.inr (.inr (.inr (.inr (.inr ()))))))))
    (fun v => by cases v <;> rfl)

/-- Values of `LDest`. -/
def serLDest : Ser LDest :=
  ((Ser.unit.sum ((Ser.nat.prod Ser.nat).sum Ser.nat))).iso
    (fun x => match x with
      | .inl _ => .none
      | .inr (.inl (a0, a1)) => .n a0 a1
      | .inr (.inr a0) => .g a0)
    (fun v => match v with
      | .none => .inl ()
      | .n a0 a1 => .inr (.inl (a0, a1))
      | .g a0 => .inr (.inr a0))
    (fun v => by cases v <;> rfl)

/-- Values of `Tail`. -/
def serTail : Ser Tail :=
  ((Ser.bool.prod ((Ser.bits 3).prod ((Ser.bits 3).prod ((Ser.bits 7).prod ((Ser.bits 3).prod Ser.bool)))))).iso
    (fun x => ⟨x.1, x.2.1, x.2.2.1, x.2.2.2.1, x.2.2.2.2.1, x.2.2.2.2.2⟩)
    (fun v => (v.gn, v.gp, v.sba, v.sbw, v.gap, v.yld)) (fun _ => rfl)

/-- Values of `Wait`. -/
def serWait : Ser Wait :=
  ((serWaitCond.prod (Ser.nat.prod ((Ser.bits 64).opt.prod (serLDest.prod ((Ser.bits 32).prod ((Ser.bits 48).prod
  (serTail.prod Ser.bool.opt)))))))).iso
    (fun x => ⟨x.1, x.2.1, x.2.2.1, x.2.2.2.1, x.2.2.2.2.1, x.2.2.2.2.2.1, x.2.2.2.2.2.2.1, x.2.2.2.2.2.2.2⟩)
    (fun v => (v.cond, v.start, v.woken, v.d, v.mask, v.next, v.tl, v.p6)) (fun _ => rfl)

/-- Values of `Park`. -/
def serPark : Ser Park :=
  ((Ser.nat.sum (Ser.nat.sum Ser.unit))).iso
    (fun x => match x with
      | .inl a0 => .fault a0
      | .inr (.inl a0) => .moving a0
      | .inr (.inr _) => .trapped)
    (fun v => match v with
      | .fault a0 => .inl a0
      | .moving a0 => .inr (.inl a0)
      | .trapped => .inr (.inr ()))
    (fun v => by cases v <;> rfl)

/-- Values of `Phase`. -/
def serPhase : Ser Phase :=
  (((Ser.bits 512).opt.prod (Ser.nat.opt.prod (Ser.bool.prod (Ser.nat.prod (Ser.bool.prod Ser.nat.opt)))))).iso
    (fun x => ⟨x.1, x.2.1, x.2.2.1, x.2.2.2.1, x.2.2.2.2.1, x.2.2.2.2.2⟩)
    (fun v => (v.desc, v.descOp, v.granted, v.paid, v.started, v.lockOp)) (fun _ => rfl)

/-- Values of `Slot`. -/
def serSlot : Ser Slot :=
  ((Ser.bool.prod ((Ser.bits 48).prod ((Ser.bits 32).prod ((Ser.bits 48).opt.prod (Ser.bool.prod (Ser.bool.prod
  ((Ser.bits 64).list.list.prod (Ser.nat.prod (Ser.nat.list.prod (serBReg.list.prod (Ser.nat.opt.prod (Ser.nat.prod
  (Ser.bool.prod (Ser.nat.prod (Ser.nat.prod (Ser.nat.opt.prod ((Ser.nat.prod (Ser.bits 512)).opt.prod
  (serStall.opt.prod (serWait.opt.prod (serPark.opt.prod (Ser.nat.list.prod ((Ser.nat.prod Ser.nat).list.prod
  serPhase))))))))))))))))))))))).iso
    (fun x => ⟨x.1, x.2.1, x.2.2.1, x.2.2.2.1, x.2.2.2.2.1, x.2.2.2.2.2.1, x.2.2.2.2.2.2.1, x.2.2.2.2.2.2.2.1,
      x.2.2.2.2.2.2.2.2.1, x.2.2.2.2.2.2.2.2.2.1, x.2.2.2.2.2.2.2.2.2.2.1, x.2.2.2.2.2.2.2.2.2.2.2.1,
      x.2.2.2.2.2.2.2.2.2.2.2.2.1, x.2.2.2.2.2.2.2.2.2.2.2.2.2.1, x.2.2.2.2.2.2.2.2.2.2.2.2.2.2.1,
      x.2.2.2.2.2.2.2.2.2.2.2.2.2.2.2.1, x.2.2.2.2.2.2.2.2.2.2.2.2.2.2.2.2.1,
      x.2.2.2.2.2.2.2.2.2.2.2.2.2.2.2.2.2.1, x.2.2.2.2.2.2.2.2.2.2.2.2.2.2.2.2.2.2.1,
      x.2.2.2.2.2.2.2.2.2.2.2.2.2.2.2.2.2.2.2.1, x.2.2.2.2.2.2.2.2.2.2.2.2.2.2.2.2.2.2.2.2.1,
      x.2.2.2.2.2.2.2.2.2.2.2.2.2.2.2.2.2.2.2.2.2.1, x.2.2.2.2.2.2.2.2.2.2.2.2.2.2.2.2.2.2.2.2.2.2⟩)
    (fun v => (v.valid, v.pc, v.mask, v.join, v.waitJoin, v.lone, v.queue, v.pushes, v.tags, v.bregs, v.lastIssue,
      v.gap, v.yld, v.urgent, v.fetchAt, v.fetchOp, v.fline, v.stall, v.wait, v.park, v.hold, v.homes, v.phase))
      (fun _ => rfl)

/-- Values of `Tussock`. -/
def serTussock : Ser Tussock :=
  ((Ser.nat.prod (Ser.nat.prod (Ser.nat.prod (Ser.bool.prod (Ser.nat.prod (Ser.nat.opt.prod (Ser.nat.prod
  (Ser.nat.opt.prod (Ser.bool.prod (Ser.nat.prod (Ser.nat.opt.prod ((Ser.bits 32).list.list.prod
  (Ser.nat.opt.list.prod ((Ser.bits 32).list.list.prod ((Ser.bits 64).list.prod ((Ser.bits 32).list.prod
  (serTReg.list.prod (serStream.list.prod ((Ser.bits 64).prod ((Ser.bits 5).list.prod (serStackRec.list.prod
  (Ser.bool.prod ((Ser.bits 64).prod ((Ser.bits 64).prod ((Ser.bits 64).prod ((Ser.bits 64).prod ((Ser.bits
  64).list.prod (serHFrame.opt.prod (Ser.nat.prod ((Ser.bits 32).prod
  serSlot.list))))))))))))))))))))))))))))))).iso
    (fun x => ⟨x.1, x.2.1, x.2.2.1, x.2.2.2.1, x.2.2.2.2.1, x.2.2.2.2.2.1, x.2.2.2.2.2.2.1, x.2.2.2.2.2.2.2.1,
      x.2.2.2.2.2.2.2.2.1, x.2.2.2.2.2.2.2.2.2.1, x.2.2.2.2.2.2.2.2.2.2.1, x.2.2.2.2.2.2.2.2.2.2.2.1,
      x.2.2.2.2.2.2.2.2.2.2.2.2.1, x.2.2.2.2.2.2.2.2.2.2.2.2.2.1, x.2.2.2.2.2.2.2.2.2.2.2.2.2.2.1,
      x.2.2.2.2.2.2.2.2.2.2.2.2.2.2.2.1, x.2.2.2.2.2.2.2.2.2.2.2.2.2.2.2.2.1,
      x.2.2.2.2.2.2.2.2.2.2.2.2.2.2.2.2.2.1, x.2.2.2.2.2.2.2.2.2.2.2.2.2.2.2.2.2.2.1,
      x.2.2.2.2.2.2.2.2.2.2.2.2.2.2.2.2.2.2.2.1, x.2.2.2.2.2.2.2.2.2.2.2.2.2.2.2.2.2.2.2.2.1,
      x.2.2.2.2.2.2.2.2.2.2.2.2.2.2.2.2.2.2.2.2.2.1, x.2.2.2.2.2.2.2.2.2.2.2.2.2.2.2.2.2.2.2.2.2.2.1,
      x.2.2.2.2.2.2.2.2.2.2.2.2.2.2.2.2.2.2.2.2.2.2.2.1, x.2.2.2.2.2.2.2.2.2.2.2.2.2.2.2.2.2.2.2.2.2.2.2.2.1,
      x.2.2.2.2.2.2.2.2.2.2.2.2.2.2.2.2.2.2.2.2.2.2.2.2.2.1,
      x.2.2.2.2.2.2.2.2.2.2.2.2.2.2.2.2.2.2.2.2.2.2.2.2.2.2.1,
      x.2.2.2.2.2.2.2.2.2.2.2.2.2.2.2.2.2.2.2.2.2.2.2.2.2.2.2.1,
      x.2.2.2.2.2.2.2.2.2.2.2.2.2.2.2.2.2.2.2.2.2.2.2.2.2.2.2.2.1,
      x.2.2.2.2.2.2.2.2.2.2.2.2.2.2.2.2.2.2.2.2.2.2.2.2.2.2.2.2.2.1,
      x.2.2.2.2.2.2.2.2.2.2.2.2.2.2.2.2.2.2.2.2.2.2.2.2.2.2.2.2.2.2⟩)
    (fun v => (v.oct, v.mBase, v.role, v.ended, v.status, v.active, v.actAt, v.staging, v.parked, v.readySeq,
      v.waitSince, v.n, v.home, v.m, v.g, v.p, v.t, v.s, v.fpctl, v.flags, v.stack, v.sup, v.trapPc, v.trapCode,
      v.trapMask, v.trapAddr, v.sscr, v.frame, v.tokens, v.dead, v.slots)) (fun _ => rfl)

/-- Values of `Role`. -/
def serRole : Ser Role :=
  ((Ser.nat.prod ((Ser.bits 48).prod (Ser.nat.prod Ser.nat)))).iso
    (fun x => ⟨x.1, x.2.1, x.2.2.1, x.2.2.2⟩)
    (fun v => (v.kind, v.pc, v.regs, v.count)) (fun _ => rfl)

/-- Values of `Foot`. -/
def serFoot : Ser Foot :=
  (((Ser.bits 48).prod (Ser.nat.prod (Ser.nat.prod (Ser.nat.prod (Ser.nat.prod (Ser.nat.prod ((Ser.nat.prod
  Ser.nat).opt.prod (Ser.nat.prod serRole.list))))))))).iso
    (fun x => ⟨x.1, x.2.1, x.2.2.1, x.2.2.2.1, x.2.2.2.2.1, x.2.2.2.2.2.1, x.2.2.2.2.2.2.1, x.2.2.2.2.2.2.2.1,
      x.2.2.2.2.2.2.2.2⟩)
    (fun v => (v.entry, v.regs, v.sp, v.xt, v.yt, v.team, v.tags, v.tus, v.roles)) (fun _ => rfl)

/-- Values of `BankWrite`. -/
def serBankWrite : Ser BankWrite :=
  ((Ser.nat.prod (Ser.nat.prod (Ser.bits 8)))).iso
    (fun x => ⟨x.1, x.2.1, x.2.2⟩)
    (fun v => (v.at_, v.addr, v.byte)) (fun _ => rfl)

/-- Values of `WState`. -/
def serWState : Ser WState :=
  Ser.nat.iso (fun k => [.absent, .filling, .present].getD k .absent)
    (fun v => match v with
      | .absent => 0
      | .filling => 1
      | .present => 2)
    (fun v => by cases v <;> rfl)

/-- Values of `Window`. -/
def serWindow : Ser Window :=
  (((Ser.bits 512).prod (serWState.prod Ser.nat))).iso
    (fun x => ⟨x.1, x.2.1, x.2.2⟩)
    (fun v => (v.desc, v.state, v.bar)) (fun _ => rfl)

/-- Values of `TagTable`. -/
def serTagTable : Ser TagTable :=
  ((Ser.nat.prod (Ser.nat.prod (Ser.nat.opt.list.prod (Ser.nat.list.prod Ser.nat))))).iso
    (fun x => ⟨x.1, x.2.1, x.2.2.1, x.2.2.2.1, x.2.2.2.2⟩)
    (fun v => (v.sets, v.z, v.lines, v.used, v.stamp)) (fun _ => rfl)

/-- Values of `WQueue`. -/
def serWQueue : Ser WQueue :=
  ((Ser.nat.prod (Ser.nat.prod (Ser.nat.prod (Ser.nat.prod Ser.nat.list))))).iso
    (fun x => ⟨x.1, x.2.1, x.2.2.1, x.2.2.2.1, x.2.2.2.2⟩)
    (fun v => (v.base, v.entries, v.head, v.tail, v.visible)) (fun _ => rfl)

/-- Values of `XTile`. -/
def serXTile : Ser XTile :=
  (((Ser.bits 65536).prod (Ser.bits 64))).iso
    (fun x => ⟨x.1, x.2⟩)
    (fun v => (v.bits, v.ctl)) (fun _ => rfl)

/-- Values of `YTile`. -/
def serYTile : Ser YTile :=
  (((Ser.bits 40).list.prod ((Ser.bits 4096).prod ((Ser.bits 4096).prod (Ser.bits 5))))).iso
    (fun x => ⟨x.1, x.2.1, x.2.2.1, x.2.2.2⟩)
    (fun v => (v.cells, v.fp, v.res, v.events)) (fun _ => rfl)

/-- Values of `Member`. -/
def serMember : Ser Member :=
  ((Ser.nat.prod (Ser.nat.prod (Ser.nat.prod ((Ser.bits 32).prod serTail))))).iso
    (fun x => ⟨x.1, x.2.1, x.2.2.1, x.2.2.2.1, x.2.2.2.2⟩)
    (fun v => (v.tk, v.slot, v.tag, v.act, v.tl)) (fun _ => rfl)

/-- Values of `RowRead`. -/
def serRowRead : Ser RowRead :=
  ((Ser.nat.prod (Ser.nat.prod (Ser.nat.prod (Ser.bits 8).list.opt)))).iso
    (fun x => ⟨x.1, x.2.1, x.2.2.1, x.2.2.2⟩)
    (fun v => (v.at_, v.addr, v.len, v.got)) (fun _ => rfl)

/-- Values of `Loop`. -/
def serLoop : Ser Loop :=
  ((Ser.nat.prod (Ser.nat.prod ((Ser.bits 36).prod ((Ser.bits 64).list.prod (Ser.nat.opt.prod ((Ser.bits 64).prod
  ((Ser.bits 64).prod ((Ser.bits 64).prod (serMember.list.prod (Ser.nat.prod (Ser.bool.prod (Ser.bool.prod
  (Ser.bool.prod (Ser.bool.prod (Ser.bool.prod (Ser.bool.prod (Ser.nat.prod ((Ser.bits 64).prod
  (serRowRead.list.prod (serRowRead.list.prod (serRowRead.list.prod serRowRead.list)))))))))))))))))))))).iso
    (fun x => ⟨x.1, x.2.1, x.2.2.1, x.2.2.2.1, x.2.2.2.2.1, x.2.2.2.2.2.1, x.2.2.2.2.2.2.1, x.2.2.2.2.2.2.2.1,
      x.2.2.2.2.2.2.2.2.1, x.2.2.2.2.2.2.2.2.2.1, x.2.2.2.2.2.2.2.2.2.2.1, x.2.2.2.2.2.2.2.2.2.2.2.1,
      x.2.2.2.2.2.2.2.2.2.2.2.2.1, x.2.2.2.2.2.2.2.2.2.2.2.2.2.1, x.2.2.2.2.2.2.2.2.2.2.2.2.2.2.1,
      x.2.2.2.2.2.2.2.2.2.2.2.2.2.2.2.1, x.2.2.2.2.2.2.2.2.2.2.2.2.2.2.2.2.1,
      x.2.2.2.2.2.2.2.2.2.2.2.2.2.2.2.2.2.1, x.2.2.2.2.2.2.2.2.2.2.2.2.2.2.2.2.2.2.1,
      x.2.2.2.2.2.2.2.2.2.2.2.2.2.2.2.2.2.2.2.1, x.2.2.2.2.2.2.2.2.2.2.2.2.2.2.2.2.2.2.2.2.1,
      x.2.2.2.2.2.2.2.2.2.2.2.2.2.2.2.2.2.2.2.2.2⟩)
    (fun v => (v.id, v.team, v.word, v.params, v.bar, v.barReg, v.ca, v.cb, v.members, v.step, v.asked, v.left,
      v.resumed, v.started, v.capped, v.raced, v.stepEnd, v.map, v.rowsA, v.rowsB, v.nextA, v.nextB)) (fun _ => rfl)

/-- Values of `Merge`. -/
def serMerge : Ser Merge :=
  ((Ser.nat.prod (Ser.nat.prod (Ser.nat.prod (Ser.nat.prod (Ser.nat.list.prod (Ser.bool.prod (Ser.bool.prod
  (Ser.bool.prod (Ser.bool.prod (Ser.bool.prod (Ser.bool.prod ((Ser.bits 48).prod (serPark.opt.prod (Ser.bool.prod
  (Ser.nat.prod (Ser.nat.prod (Ser.nat.prod (Ser.nat.prod (Ser.nat.prod (Ser.nat.prod (Ser.nat.opt.prod
  (Ser.nat.prod (Ser.nat.prod (Ser.nat.prod ((Ser.bits 32).opt.prod ((Ser.bits 32).opt.prod ((Ser.bits 5).prod
  Ser.bool)))))))))))))))))))))))))))).iso
    (fun x => ⟨x.1, x.2.1, x.2.2.1, x.2.2.2.1, x.2.2.2.2.1, x.2.2.2.2.2.1, x.2.2.2.2.2.2.1, x.2.2.2.2.2.2.2.1,
      x.2.2.2.2.2.2.2.2.1, x.2.2.2.2.2.2.2.2.2.1, x.2.2.2.2.2.2.2.2.2.2.1, x.2.2.2.2.2.2.2.2.2.2.2.1,
      x.2.2.2.2.2.2.2.2.2.2.2.2.1, x.2.2.2.2.2.2.2.2.2.2.2.2.2.1, x.2.2.2.2.2.2.2.2.2.2.2.2.2.2.1,
      x.2.2.2.2.2.2.2.2.2.2.2.2.2.2.2.1, x.2.2.2.2.2.2.2.2.2.2.2.2.2.2.2.2.1,
      x.2.2.2.2.2.2.2.2.2.2.2.2.2.2.2.2.2.1, x.2.2.2.2.2.2.2.2.2.2.2.2.2.2.2.2.2.2.1,
      x.2.2.2.2.2.2.2.2.2.2.2.2.2.2.2.2.2.2.2.1, x.2.2.2.2.2.2.2.2.2.2.2.2.2.2.2.2.2.2.2.2.1,
      x.2.2.2.2.2.2.2.2.2.2.2.2.2.2.2.2.2.2.2.2.2.1, x.2.2.2.2.2.2.2.2.2.2.2.2.2.2.2.2.2.2.2.2.2.2.1,
      x.2.2.2.2.2.2.2.2.2.2.2.2.2.2.2.2.2.2.2.2.2.2.2.1, x.2.2.2.2.2.2.2.2.2.2.2.2.2.2.2.2.2.2.2.2.2.2.2.2.1,
      x.2.2.2.2.2.2.2.2.2.2.2.2.2.2.2.2.2.2.2.2.2.2.2.2.2.1,
      x.2.2.2.2.2.2.2.2.2.2.2.2.2.2.2.2.2.2.2.2.2.2.2.2.2.2.1,
      x.2.2.2.2.2.2.2.2.2.2.2.2.2.2.2.2.2.2.2.2.2.2.2.2.2.2.2⟩)
    (fun v => (v.id, v.tk, v.slot, v.tag, v.tagSlots, v.left, v.asked, v.resumed, v.started, v.capped, v.sup, v.pc,
      v.paused, v.s32, v.a, v.b, v.o, v.na, v.nb, v.st, v.bar, v.i, v.j, v.k, v.lastA, v.lastB, v.flags, v.ended))
      (fun _ => rfl)

/-- Values of `Fill`. -/
def serFill : Ser Fill :=
  ((Ser.nat.prod (Ser.nat.prod ((Ser.bits 32).prod ((Ser.bits 512).prod (Ser.nat.opt.prod (Ser.nat.opt.prod
  (Ser.bool.prod Ser.nat)))))))).iso
    (fun x => ⟨x.1, x.2.1, x.2.2.1, x.2.2.2.1, x.2.2.2.2.1, x.2.2.2.2.2.1, x.2.2.2.2.2.2.1, x.2.2.2.2.2.2.2⟩)
    (fun v => (v.tk, v.slot, v.mask, v.desc, v.bar, v.window, v.sup, v.done)) (fun _ => rfl)

/-- Values of `IslGang`. -/
def serIslGang : Ser IslGang :=
  ((Ser.nat.prod (Ser.nat.prod Ser.nat))).iso
    (fun x => ⟨x.1, x.2.1, x.2.2⟩)
    (fun v => (v.scene, v.island, v.patch)) (fun _ => rfl)

/-- Values of `Gang`. -/
def serGang : Ser Gang :=
  ((Ser.nat.prod (Ser.nat.prod (Ser.nat.prod (Ser.nat.opt.prod (Ser.nat.prod (Ser.bool.prod ((Ser.bits 48).prod
  (Ser.nat.opt.prod (serFoot.prod (Ser.nat.prod (Ser.nat.prod (Ser.nat.prod ((Ser.nat.prod (Ser.bits 8)).list.prod
  ((Ser.nat.prod (Ser.bits 8)).list.prod (serBankWrite.list.prod (serWindow.opt.list.prod (serTagTable.opt.prod
  (serWQueue.opt.list.prod (Ser.bool.prod ((Ser.nat.prod Ser.nat).list.prod (serXTile.list.prod (serYTile.list.prod
  (serLoop.list.prod (serLoop.list.prod (serMerge.list.prod (serFill.list.prod (Ser.nat.list.prod ((Ser.nat.prod
  Ser.nat).list.prod (Ser.nat.list.prod (Ser.nat.prod (serIslGang.opt.prod (Ser.bool.prod (Ser.bool.prod
  (Ser.nat.opt.prod (Ser.nat.prod (Ser.nat.prod serTussock.list))))))))))))))))))))))))))))))))))))).iso
    (fun x => ⟨x.1, x.2.1, x.2.2.1, x.2.2.2.1, x.2.2.2.2.1, x.2.2.2.2.2.1, x.2.2.2.2.2.2.1, x.2.2.2.2.2.2.2.1,
      x.2.2.2.2.2.2.2.2.1, x.2.2.2.2.2.2.2.2.2.1, x.2.2.2.2.2.2.2.2.2.2.1, x.2.2.2.2.2.2.2.2.2.2.2.1,
      x.2.2.2.2.2.2.2.2.2.2.2.2.1, x.2.2.2.2.2.2.2.2.2.2.2.2.2.1, x.2.2.2.2.2.2.2.2.2.2.2.2.2.2.1,
      x.2.2.2.2.2.2.2.2.2.2.2.2.2.2.2.1, x.2.2.2.2.2.2.2.2.2.2.2.2.2.2.2.2.1,
      x.2.2.2.2.2.2.2.2.2.2.2.2.2.2.2.2.2.1, x.2.2.2.2.2.2.2.2.2.2.2.2.2.2.2.2.2.2.1,
      x.2.2.2.2.2.2.2.2.2.2.2.2.2.2.2.2.2.2.2.1, x.2.2.2.2.2.2.2.2.2.2.2.2.2.2.2.2.2.2.2.2.1,
      x.2.2.2.2.2.2.2.2.2.2.2.2.2.2.2.2.2.2.2.2.2.1, x.2.2.2.2.2.2.2.2.2.2.2.2.2.2.2.2.2.2.2.2.2.2.1,
      x.2.2.2.2.2.2.2.2.2.2.2.2.2.2.2.2.2.2.2.2.2.2.2.1, x.2.2.2.2.2.2.2.2.2.2.2.2.2.2.2.2.2.2.2.2.2.2.2.2.1,
      x.2.2.2.2.2.2.2.2.2.2.2.2.2.2.2.2.2.2.2.2.2.2.2.2.2.1,
      x.2.2.2.2.2.2.2.2.2.2.2.2.2.2.2.2.2.2.2.2.2.2.2.2.2.2.1,
      x.2.2.2.2.2.2.2.2.2.2.2.2.2.2.2.2.2.2.2.2.2.2.2.2.2.2.2.1,
      x.2.2.2.2.2.2.2.2.2.2.2.2.2.2.2.2.2.2.2.2.2.2.2.2.2.2.2.2.1,
      x.2.2.2.2.2.2.2.2.2.2.2.2.2.2.2.2.2.2.2.2.2.2.2.2.2.2.2.2.2.1,
      x.2.2.2.2.2.2.2.2.2.2.2.2.2.2.2.2.2.2.2.2.2.2.2.2.2.2.2.2.2.2.1,
      x.2.2.2.2.2.2.2.2.2.2.2.2.2.2.2.2.2.2.2.2.2.2.2.2.2.2.2.2.2.2.2.1,
      x.2.2.2.2.2.2.2.2.2.2.2.2.2.2.2.2.2.2.2.2.2.2.2.2.2.2.2.2.2.2.2.2.1,
      x.2.2.2.2.2.2.2.2.2.2.2.2.2.2.2.2.2.2.2.2.2.2.2.2.2.2.2.2.2.2.2.2.2.1,
      x.2.2.2.2.2.2.2.2.2.2.2.2.2.2.2.2.2.2.2.2.2.2.2.2.2.2.2.2.2.2.2.2.2.2.1,
      x.2.2.2.2.2.2.2.2.2.2.2.2.2.2.2.2.2.2.2.2.2.2.2.2.2.2.2.2.2.2.2.2.2.2.2.1,
      x.2.2.2.2.2.2.2.2.2.2.2.2.2.2.2.2.2.2.2.2.2.2.2.2.2.2.2.2.2.2.2.2.2.2.2.2⟩)
    (fun v => (v.id, v.part, v.tenant, v.core, v.prio, v.rr, v.handler, v.domain, v.foot, v.spBase, v.xBase,
      v.yBase, v.sp, v.arr, v.bwq, v.windows, v.tags, v.wqs, v.phase, v.arrived, v.xt, v.yt, v.arrivals, v.loops,
      v.merges, v.fills, v.teammis, v.power, v.near, v.far, v.isl, v.ready, v.stop, v.outAt, v.settled, v.order,
      v.tks)) (fun _ => rfl)

/-- Values of `Task`. -/
def serTask : Ser Task :=
  ((Ser.nat.prod (Ser.nat.prod (Ser.nat.prod (Ser.nat.prod (Ser.nat.prod (Ser.nat.prod (Ser.bool.prod (Ser.nat.prod
  (Ser.nat.prod (Ser.nat.prod (Ser.bool.prod (Ser.nat.prod (Ser.bool.prod (Ser.bool.prod (Ser.nat.prod
  (Ser.bool.prod (Ser.nat.list.prod (serFoot.prod ((Ser.bits 64).prod (Ser.nat.prod (Ser.nat.prod (Ser.nat.prod
  (Ser.nat.prod (((Ser.bits 64).prod Ser.nat).opt.prod (serIslGang.opt.prod (Ser.nat.prod
  Ser.bool))))))))))))))))))))))))))).iso
    (fun x => ⟨x.1, x.2.1, x.2.2.1, x.2.2.2.1, x.2.2.2.2.1, x.2.2.2.2.2.1, x.2.2.2.2.2.2.1, x.2.2.2.2.2.2.2.1,
      x.2.2.2.2.2.2.2.2.1, x.2.2.2.2.2.2.2.2.2.1, x.2.2.2.2.2.2.2.2.2.2.1, x.2.2.2.2.2.2.2.2.2.2.2.1,
      x.2.2.2.2.2.2.2.2.2.2.2.2.1, x.2.2.2.2.2.2.2.2.2.2.2.2.2.1, x.2.2.2.2.2.2.2.2.2.2.2.2.2.2.1,
      x.2.2.2.2.2.2.2.2.2.2.2.2.2.2.2.1, x.2.2.2.2.2.2.2.2.2.2.2.2.2.2.2.2.1,
      x.2.2.2.2.2.2.2.2.2.2.2.2.2.2.2.2.2.1, x.2.2.2.2.2.2.2.2.2.2.2.2.2.2.2.2.2.2.1,
      x.2.2.2.2.2.2.2.2.2.2.2.2.2.2.2.2.2.2.2.1, x.2.2.2.2.2.2.2.2.2.2.2.2.2.2.2.2.2.2.2.2.1,
      x.2.2.2.2.2.2.2.2.2.2.2.2.2.2.2.2.2.2.2.2.2.1, x.2.2.2.2.2.2.2.2.2.2.2.2.2.2.2.2.2.2.2.2.2.2.1,
      x.2.2.2.2.2.2.2.2.2.2.2.2.2.2.2.2.2.2.2.2.2.2.2.1, x.2.2.2.2.2.2.2.2.2.2.2.2.2.2.2.2.2.2.2.2.2.2.2.2.1,
      x.2.2.2.2.2.2.2.2.2.2.2.2.2.2.2.2.2.2.2.2.2.2.2.2.2.1, x.2.2.2.2.2.2.2.2.2.2.2.2.2.2.2.2.2.2.2.2.2.2.2.2.2.2⟩)
    (fun v => (v.id, v.part, v.tenant, v.job, v.launch, v.group, v.ordered, v.index, v.depth, v.ctr, v.ready,
      v.readySeq, v.placed, v.ended, v.status, v.aborted, v.links, v.foot, v.args, v.privBase, v.privSz, v.rank,
      v.ranks, v.origin, v.isl, v.step, v.relaunch)) (fun _ => rfl)

/-- Values of `Job`. -/
def serJob : Ser Job :=
  ((Ser.nat.prod (Ser.nat.prod (Ser.nat.prod (Ser.nat.prod (Ser.nat.prod (Ser.nat.prod (Ser.nat.prod ((Ser.bits
  64).list.prod (Ser.nat.prod (Ser.nat.prod Ser.nat).list)))))))))).iso
    (fun x => ⟨x.1, x.2.1, x.2.2.1, x.2.2.2.1, x.2.2.2.2.1, x.2.2.2.2.2.1, x.2.2.2.2.2.2.1, x.2.2.2.2.2.2.2.1,
      x.2.2.2.2.2.2.2.2.1, x.2.2.2.2.2.2.2.2.2⟩)
    (fun v => (v.part, v.tenant, v.rcb, v.out, v.under, v.done, v.failed, v.feps, v.rank, v.sent)) (fun _ => rfl)

/-- Values of `Subscriber`. -/
def serSubscriber : Ser Subscriber :=
  ((Ser.nat.prod (Ser.nat.prod (Ser.nat.prod Ser.nat)))).iso
    (fun x => ⟨x.1, x.2.1, x.2.2.1, x.2.2.2⟩)
    (fun v => (v.gang, v.slot, v.missed, v.leaf)) (fun _ => rfl)

/-- Values of `SubEntry`. -/
def serSubEntry : Ser SubEntry :=
  ((Ser.nat.prod (Ser.nat.prod serSubscriber.list))).iso
    (fun x => ⟨x.1, x.2.1, x.2.2⟩)
    (fun v => (v.addr, v.home, v.subs)) (fun _ => rfl)

/-- Values of `Waiter`. -/
def serWaiter : Ser Waiter :=
  ((Ser.bool.prod (Ser.nat.prod (Ser.nat.prod (Ser.nat.prod (Ser.nat.prod Ser.nat)))))).iso
    (fun x => ⟨x.1, x.2.1, x.2.2.1, x.2.2.2.1, x.2.2.2.2.1, x.2.2.2.2.2⟩)
    (fun v => (v.glob, v.addr, v.leaf, v.gang, v.tk, v.slot)) (fun _ => rfl)

/-- Values of `Edge`. -/
def serEdge : Ser Edge :=
  ((Ser.nat.prod (Ser.nat.prod ((Ser.bits 32).prod Ser.bool)))).iso
    (fun x => ⟨x.1, x.2.1, x.2.2.1, x.2.2.2⟩)
    (fun v => (v.a, v.b, v.tag, v.joint)) (fun _ => rfl)

/-- Values of `IState`. -/
def serIState : Ser IState :=
  Ser.nat.iso (fun k => [.awake, .running, .patched, .idle, .sleeping, .absorbed, .sleepingAbsorbed, .merged, .growfail].getD k .awake)
    (fun v => match v with
      | .awake => 0
      | .running => 1
      | .patched => 2
      | .idle => 3
      | .sleeping => 4
      | .absorbed => 5
      | .sleepingAbsorbed => 6
      | .merged => 7
      | .growfail => 8)
    (fun v => by cases v <;> rfl)

/-- Values of `Island`. -/
def serIsland : Ser Island :=
  ((Ser.nat.prod (Ser.nat.list.prod (serIState.prod (Ser.nat.opt.prod (Ser.nat.list.prod (serEdge.list.prod
  Ser.bool))))))).iso
    (fun x => ⟨x.1, x.2.1, x.2.2.1, x.2.2.2.1, x.2.2.2.2.1, x.2.2.2.2.2.1, x.2.2.2.2.2.2⟩)
    (fun v => (v.num, v.bodies, v.state, v.pendAt, v.tasks, v.edges, v.rest)) (fun _ => rfl)

/-- Values of `Scene`. -/
def serScene : Ser Scene :=
  ((Ser.nat.prod (Ser.nat.prod ((Ser.bits 512).prod (serTask.prod (Ser.nat.prod (serEdge.list.prod (serEdge.list.prod
  (serEdge.list.prod (serIsland.list.prod (Ser.nat.prod (Ser.nat.list.prod (Ser.nat.opt.prod
  Ser.bool))))))))))))).iso
    (fun x => ⟨x.1, x.2.1, x.2.2.1, x.2.2.2.1, x.2.2.2.2.1, x.2.2.2.2.2.1, x.2.2.2.2.2.2.1, x.2.2.2.2.2.2.2.1,
      x.2.2.2.2.2.2.2.2.1, x.2.2.2.2.2.2.2.2.2.1, x.2.2.2.2.2.2.2.2.2.2.1, x.2.2.2.2.2.2.2.2.2.2.2.1,
      x.2.2.2.2.2.2.2.2.2.2.2.2⟩)
    (fun v => (v.num, v.tenant, v.desc, v.proto, v.step, v.contacts, v.old, v.joints, v.islands, v.launched,
      v.stepTasks, v.link, v.deleting)) (fun _ => rfl)

/-! ### The contexts of an image (R416, R419) -/

/-- What the kinds 1 to 5 of an image hold: the tussocks of each gang, the gangs without them, tasks and jobs, the
subscriptions and waiters by the virtual addresses of their locations, and the scenes. -/
structure Contexts where
  tks     : List (List Tussock)
  gangs   : List Gang
  tasks   : List Task
  jobs    : List Job
  subs    : List (Nat × SubEntry)
  waiters : List (Nat × Waiter)
  scenes  : List Scene
  deriving DecidableEq, Repr, Inhabited

/-- The firmware's layout of the kinds 1 to 5: what is laid out is read back (R416, R422). -/
structure Codec where
  pack   : Contexts → List (List Byte)
  unpack : List (List Byte) → Option Contexts
  five   : ∀ c, (pack c).length = 5
  law    : ∀ c, unpack (pack c) = some c

/-- Reads a section whole. -/
def Ser.all {α : Type} (s : Ser α) (bs : List Byte) : Option α := (s.get bs).map (·.1)

@[simp] theorem Ser.all_put {α : Type} (s : Ser α) (a : α) : s.all (s.put a) = some a := by
  have h := s.law a []
  rw [List.append_nil] at h
  simp [Ser.all, h]

/-- One layout of the kinds 1 to 5. -/
def someCodec : Codec where
  pack := fun c => [serTussock.list.list.put c.tks, serGang.list.put c.gangs, (serTask.list.prod serJob.list).put (c.tasks, c.jobs),
    ((Ser.nat.prod serSubEntry).list.prod (Ser.nat.prod serWaiter).list).put (c.subs, c.waiters), serScene.list.put c.scenes]
  unpack := fun l => match l with
    | [a, b, c, d, e] => (serTussock.list.list.all a).bind fun tks => (serGang.list.all b).bind fun gangs =>
        ((serTask.list.prod serJob.list).all c).bind fun t =>
        (((Ser.nat.prod serSubEntry).list.prod (Ser.nat.prod serWaiter).list).all d).bind fun w =>
        (serScene.list.all e).map fun scenes =>
          { tks := tks, gangs := gangs, tasks := t.1, jobs := t.2, subs := w.1, waiters := w.2, scenes := scenes }
    | _ => none
  five := fun _ => rfl
  law := fun c => by simp

end Sys2Proof.Machine
end

