-- ==== Sys2Proof/Config.lean ====
section
/-! DEFINITION. What the spec leaves to an implementation, as constants without a value: free values (R7),
latencies without a figure, choices, the device's identity and secrets, SPDM, the firmware's layout of contexts. -/

namespace Sys2Proof

open Sys2Proof.Machine

/-- The k-th free value: what the S9 delivers where the spec calls a value undefined (R7; log 5). -/
opaque Config.freeValue : Nat → BitVec 64

/-- The k-th free delay: a latency for which the spec gives no figure or only a lower bound (log 11). -/
opaque Config.freeDelay : Nat → Nat

/-- The k-th free choice among n: a choice that the spec says is not architectural (R29; log 12). -/
opaque Config.freeChoice : Nat → Nat → Nat

/-- The device identity (R390, R419). -/
opaque Config.deviceId : BitVec 64

/-- The fused digest of the first stage's key (R434). -/
opaque Config.keyDigest : BitVec 512

/-- The device's sealing root, 64 bytes, byte 0 lowest (R420). -/
opaque Config.sealRoot : BitVec 512

/-- An RSA key pair of 4,096 bits: what the public exponent does, the private one undoes (R421). -/
structure Config.RsaPair where
  n : Nat
  e : Nat
  d : Nat
  size : n.log2 = 4095
  undo : ∀ m < n, (m ^ e % n) ^ d % n = m

/-- The restore key pair of a generation: a new one at each power-on or device reset (R421). The body only shows that a
pair exists; nothing can be proved from it. -/
opaque Config.restoreKey : Nat → Config.RsaPair :=
  fun _ => ⟨2 ^ 4095, 1, 1, Nat.log2_two_pow, fun m h => by rw [Nat.pow_one, Nat.pow_one, Nat.mod_mod, Nat.mod_eq_of_lt h]⟩

/-- The SPDM 1.3 response of the device to a request, given the measurements it reports (R381, R421). -/
opaque Config.spdmAnswer : List Byte → List (BitVec 512) → List Byte

/-- Whether an SPDM MEASUREMENTS response chains to the device root and is signed over a nonce; it answers the
peer's identity, firmware measurement and restore key (R421). -/
opaque Config.spdmPeer : List Byte → BitVec 256 → Option (BitVec 64 × BitVec 512 × List Byte)

/-- The firmware's layout of the kinds 1 to 5 of a checkpoint image (R419; log 76). The body only shows that a layout
exists; nothing but its laws can be proved from it. -/
opaque Config.codec : Codec := someCodec

/-- Which SPDM vendor-defined request a payload is: PEER_NONCE (1) or PEER_ADD (2); 0 for any other request (R421). -/
opaque Config.vendorRequest : List Byte → Nat

end Sys2Proof
end

