-- ==== Sys2Proof/Machine/Ops.lean ====
section
/-! DEFINITION. The named operations over the state: memory, registers, operations in flight, translation,
region control blocks, tasks, the divergence rules, taking a trap and returning from one. -/

namespace Sys2Proof.Machine

open Sys2Proof

/-! ### Bytes -/

/-- The byte at an address. -/
def Memory.get : Memory → Nat → Byte
  | [], _ => 0
  | c :: rest, a => if a < c.1 then 0 else if a = c.1 then c.2 else Memory.get rest a

/-- Writes one byte; writing 0 removes the entry, so that the form stays canonical. -/
def Memory.set : Memory → Nat → Byte → Memory
  | [], a, b => if b = 0 then [] else [(a, b)]
  | c :: rest, a, b =>
    if a < c.1 then (if b = 0 then c :: rest else (a, b) :: c :: rest)
    else if a = c.1 then (if b = 0 then rest else (a, b) :: rest)
    else c :: Memory.set rest a b

/-- The n bytes from an address as a little-endian number (R10). -/
def Memory.read (m : Memory) (a : Nat) : Nat → Nat
  | 0 => 0
  | n + 1 => (m.get a).toNat + 256 * Memory.read m (a + 1) n

/-- Writes the low n bytes of a number, little-endian (R10). -/
def Memory.write (m : Memory) (a : Nat) : Nat → Nat → Memory
  | 0, _ => m
  | n + 1, v => Memory.write (m.set a (BitVec.ofNat 8 v)) (a + 1) n (v / 256)

/-- The n bytes from an address. -/
def Memory.bytes (m : Memory) (a : Nat) : Nat → List Byte
  | 0 => []
  | n + 1 => m.get a :: Memory.bytes m (a + 1) n

/-- Writes a list of bytes. -/
def Memory.put (m : Memory) (a : Nat) : List Byte → Memory
  | [] => m
  | b :: bs => Memory.put (m.set a b) (a + 1) bs

/-- Writes 0 to every byte of [lo, hi). -/
def Memory.clear (m : Memory) (lo hi : Nat) : Memory :=
  m.filter (fun c => c.1 < lo || hi ≤ c.1)

/-- Replaces one nibble of a byte (R117). -/
def Memory.nib (m : Memory) (a : Nat) (hi : Bool) (v : BitVec 4) : Memory :=
  let b := m.get a
  m.set a (if hi then v ++ b.extractLsb' 0 4 else b.extractLsb' 4 4 ++ v)

/-- A number from little-endian bytes. -/
def natOfBytes : List Byte → Nat
  | [] => 0
  | b :: bs => b.toNat + 256 * natOfBytes bs

/-- The low n bytes of a number, little-endian. -/
def bytesOfNat : Nat → Nat → List Byte
  | 0, _ => []
  | n + 1, v => BitVec.ofNat 8 v :: bytesOfNat n (v / 256)

/-! ### Lanes -/

/-- The lane numbers 0 to 31. -/
def laneNums : List Nat := List.range 32

/-- The lanes of a mask, ascending. -/
def lanesOf (m : Mask) : List Nat := laneNums.filter (fun l => m.getLsbD l)

/-- The lowest lane of a mask; 0 if it is empty. -/
def lowLane (m : Mask) : Nat := (lanesOf m).headD 0

/-- The sum of a list. -/
def sumOf (l : List Nat) : Nat := l.foldl (· + ·) 0

/-- The mask of the lanes that a test holds for. -/
def maskOf (f : Nat → Bool) : Mask :=
  laneNums.foldl (fun m l => if f l then m ||| BitVec.ofNat 32 (2 ^ l) else m) 0

/-- The mask of a list of lanes. -/
def maskOfList (ls : List Nat) : Mask := maskOf (fun l => ls.contains l)

/-- One lane's value. -/
def Lanes.at_ {w : Nat} (v : Lanes w) (l : Nat) : BitVec w := v.getD l 0

/-- The same value in every lane. -/
def splat {w : Nat} (x : BitVec w) : Lanes w := List.replicate 32 x

/-- `new` in the lanes of the mask, `old` in the others. -/
def blend {w : Nat} (m : Mask) (new old : Lanes w) : Lanes w :=
  laneNums.map (fun l => if m.getLsbD l then new.at_ l else old.at_ l)

/-! ### Parts of the state -/

/-- A gang by its number. -/
def State.gang? (s : State) (g : Nat) : Option Gang := s.gangs.find? (fun x => x.id == g)

/-- Changes a gang. -/
def State.modGang (s : State) (g : Nat) (f : Gang → Gang) : State :=
  { s with gangs := s.gangs.map (fun x => if x.id == g then f x else x) }

/-- Changes a tussock of a gang. -/
def State.modTk (s : State) (g t : Nat) (f : Tussock → Tussock) : State :=
  s.modGang g (fun x => { x with tks := x.tks.modify t f })

/-- Changes a PC slot of a tussock. -/
def State.modSlot (s : State) (g t k : Nat) (f : Slot → Slot) : State :=
  s.modTk g t (fun x => { x with slots := x.slots.modify k f })

/-- A tussock. -/
def State.tk? (s : State) (g t : Nat) : Option Tussock := (s.gang? g).bind (fun x => x.tks[t]?)

/-- A PC slot. -/
def State.slot? (s : State) (g t k : Nat) : Option Slot := (s.tk? g t).bind (fun x => x.slots[k]?)

/-- A partition by its number. -/
def State.part? (s : State) (p : Nat) : Option Partition := s.parts.find? (fun x => x.num == p)

/-- Changes a partition. -/
def State.modPart (s : State) (p : Nat) (f : Partition → Partition) : State :=
  { s with parts := s.parts.map (fun x => if x.num == p then f x else x) }

/-- A task by its handle value. -/
def State.task? (s : State) (t : Nat) : Option Task := s.tasks.find? (fun x => x.id == t)

/-- Changes a task. -/
def State.modTask (s : State) (t : Nat) (f : Task → Task) : State :=
  { s with tasks := s.tasks.map (fun x => if x.id == t then f x else x) }

/-- An operation in flight. -/
def State.op? (s : State) (o : Nat) : Option Op := s.ops.find? (fun x => x.id == o)

/-- Changes an operation in flight. -/
def State.modOp (s : State) (o : Nat) (f : Op → Op) : State :=
  { s with ops := s.ops.map (fun x => if x.id == o then f x else x) }

/-- Removes an operation. -/
def State.dropOp (s : State) (o : Nat) : State := { s with ops := s.ops.filter (fun x => x.id != o) }

/-- Changes a core position. -/
def State.modCore (s : State) (c : Nat) (f : Core → Core) : State := { s with cores := s.cores.modify c f }

/-- A core position. -/
def State.core (s : State) (c : Nat) : Core := s.cores.getD c {}

/-- Changes the device part. -/
def State.modDev (s : State) (f : Device → Device) : State := { s with dev := f s.dev }

/-- A job of a partition. -/
def State.job? (s : State) (p rcb tenant : Nat) : Option Job :=
  (s.part? p).bind (fun x => x.jobs.find? (fun j => j.rcb == rcb && j.tenant == tenant))

/-- Changes a job. -/
def State.modJob (s : State) (p tenant rcb : Nat) (f : Job → Job) : State :=
  s.modPart p (fun x => { x with jobs := x.jobs.map (fun j => if j.rcb == rcb && j.tenant == tenant then f j else j) })

/-! ### Free values and clocks -/

/-- The next free value (R7, log 5). -/
def State.free (s : State) : BitVec 64 × State := (Config.freeValue s.seed, { s with seed := s.seed + 1 })

/-- One free value for each lane. -/
def State.freeLanes (s : State) : Lanes 32 × State :=
  (laneNums.map (fun l => (Config.freeValue (s.seed + l)).extractLsb' 0 32), { s with seed := s.seed + 32 })

/-- The next free delay (log 11). -/
def State.delay (s : State) : Nat × State := (Config.freeDelay s.seed, { s with seed := s.seed + 1 })

/-- The granule of a core position (R14). -/
def granuleOf (core : Nat) : Nat := core / 4

/-- The grove of a core position (R14). -/
def groveOf (core : Nat) : Nat := core / 8

/-- The clock that counts for a core: its granule's own clock (R424). -/
def State.clk (s : State) (core : Nat) : Nat := s.dev.gclk.getD (granuleOf core) 0

/-- The clock by which an operation lands: its core's, or the reference clock. -/
def State.opClk (s : State) (o : Op) : Nat :=
  match o.core with
  | some c => s.clk c
  | none => s.now

/-- Adds an operation in flight and answers its number. -/
def State.addOp (s : State) (mk : Nat → Op) : State × Nat :=
  ({ s with ops := s.ops ++ [mk s.nextOp], nextOp := s.nextOp + 1 }, s.nextOp)

/-! ### Messages to the outside (R380, R383) -/

/-- A JCP header from its fields (R378). -/
def mkHdr (type op part tenant ep status : Nat) (seq : BitVec 32) (len : Nat) (tag : BitVec 64)
    (a0 a1 a2 a3 : BitVec 64) : BitVec 512 :=
  0#64 ++ tag ++ a3 ++ a2 ++ a1 ++ a0 ++ BitVec.ofNat 32 len ++ seq ++ BitVec.ofNat 16 status ++ 0#6 ++
  BitVec.ofNat 2 ep ++ BitVec.ofNat 8 tenant ++ 0#2 ++ BitVec.ofNat 6 part ++ BitVec.ofNat 8 op ++ 0#4 ++
  BitVec.ofNat 4 type ++ 1#8

/-- Sends an event of a partition on its endpoint 0 (R383). -/
def State.emit (s : State) (p op : Nat) (a0 a1 a2 : BitVec 64) : State :=
  match s.part? p with
  | none => s
  | some x =>
    let m : OutMsg := { part := p, dest := 0, hdr := mkHdr 2 op p 0 0 0 x.eventSeq 0 0 a0 a1 a2 0, payload := [] }
    { s.modPart p (fun y => { y with eventSeq := y.eventSeq + 1 }) with outbox := s.outbox ++ [m] }

/-- Whether an operation has something left to perform: what waits for it waits no longer than that (R397). -/
def Op.unperformed (o : Op) : Bool :=
  match o.kind with
  | .load _ _ accs _ | .store accs | .atom _ accs _ | .desc accs => accs.any (fun a => !a.done)
  | .acqE _ a | .relE a _ => !a.done
  | _ => true

/-- Whether an operation is performed or gone. -/
def State.performed (s : State) (op : Nat) : Bool := (s.op? op).all (fun o => !o.unperformed)

/-- The writes of a partition to global memory that have retired and are not performed: an event that arises now is a
release of them (R383). -/
def State.released (s : State) (p : Nat) : List Nat :=
  (s.ops.filter (fun o => o.who.any (fun w => w.1 == p) && o.unperformed && (match o.kind with
    | .store _ | .atom .. | .relE .. => true
    | _ => false))).map (·.id)

/-- An event of a partition arises: it is sent once the writes that it releases are performed and the events before it
are sent (R383). -/
def State.event (s : State) (p op : Nat) (a0 a1 a2 : BitVec 64) : State :=
  match s.part? p with
  | none => s
  | some x =>
    let ws := s.released p
    if x.unsent.isEmpty && ws.isEmpty then s.emit p op a0 a1 a2
    else s.modPart p (fun y => { y with unsent := y.unsent ++ [{ op := op, a0 := a0, a1 := a1, a2 := a2, waits := ws }] })

/-- Sends the events of a partition that wait for nothing more, in the order in which they arose (R383). -/
def State.sendEvents (s : State) (p : Nat) : State :=
  match s.part? p with
  | none => s
  | some x =>
    let now := x.unsent.takeWhile (fun e => e.waits.all s.performed)
    now.foldl (fun s e => s.emit p e.op e.a0 e.a1 e.a2) (s.modPart p (fun y => { y with unsent := x.unsent.drop now.length }))

/-! ### Physical addresses and translation (R72, R392 to R395) -/

/-- The bytes of near memory (R13). -/
def nearBytes : Nat := 6 * 2 ^ 30

/-- Whether a physical address is backed (R72). -/
def backed (pa : Nat) : Bool := decide (pa < 6 * 2 ^ 30) || (decide (2 ^ 52 ≤ pa) && decide (pa < 2 ^ 53))

/-- The near slices of a partition, ascending (R13, R14). -/
def Partition.slices (p : Partition) : List Nat :=
  (List.range 96).filter (fun sl => p.granules.getLsbD (sl / 2))

/-- The home slice of a line, for an access of a partition (R72). -/
def homeOf (p : Partition) (pa : Nat) : Nat :=
  if pa < 6 * 2 ^ 30 then pa / 2 ^ 26
  else
    let h := (pa / 2 ^ 7 % 2 ^ 12) ^^^ (pa / 2 ^ 19 % 2 ^ 12) ^^^ (pa / 2 ^ 31 % 2 ^ 12) ^^^ (pa / 2 ^ 43 % 2 ^ 9)
    let sl := p.slices
    sl.getD (h % (max sl.length 1)) 0

/-- The base of the translation area: the partition's lowest near slice (R394). -/
def Partition.t0 (p : Partition) : Nat := (p.slices.headD 0) * 2 ^ 26

/-- Whether [pa, pa + n) lies in the partition's near memory. -/
def Partition.ownsNear (p : Partition) (pa n : Nat) : Bool :=
  decide (pa + n ≤ 6 * 2 ^ 30) && (List.range ((pa + n - 1) / 2 ^ 26 - pa / 2 ^ 26 + 1)).all
    (fun k => p.granules.getLsbD ((pa / 2 ^ 26 + k) / 2))

/-- Whether [pa, pa + n) lies in the partition's resources: its near frames or far frames on its ports (R394). -/
def Partition.owns (p : Partition) (pa n : Nat) : Bool :=
  if pa < 6 * 2 ^ 30 then p.ownsNear pa n
  else decide (2 ^ 52 ≤ pa) && decide (pa + n ≤ 2 ^ 53) && p.cxl.getLsbD (pa / 2 ^ 48 % 16) &&
    p.cxl.getLsbD ((pa + n - 1) / 2 ^ 48 % 16)

/-- The fields of a page-table entry (R393). -/
structure Pte where
  rsv  : Bool
  s    : Bool
  addr : Nat
  mig  : Bool
  res  : Bool
  x    : Bool
  w    : Bool
  l    : Bool
  v    : Bool
  deriving DecidableEq, Repr, Inhabited

/-- A page-table entry from its eight bytes (R393). -/
def decPte (e : Nat) : Pte where
  rsv  := decide (2 ^ 54 ≤ e)
  s    := e.testBit 53
  addr := e / 256 % 2 ^ 45 * 256
  mig  := e.testBit 5
  res  := e.testBit 4
  x    := e.testBit 3
  w    := e.testBit 2
  l    := e.testBit 1
  v    := e.testBit 0

/-- What an access does with a page (R395). -/
inductive Access where
  | read | write | fetch | host
  deriving DecidableEq, Repr, Inhabited

/-- The result of a walk (R395). `page` is the size of the leaf's page, `entry` the leaf's address, `lines` the
lines of the entries read. -/
inductive Walk where
  | pa (a frame page entry : Nat) (s w x : Bool) (lines : List Nat)
  | xlate
  | prot
  | first (level entry : Nat)
  | moving (entry : Nat)
  | absent (level : Nat)
  | mchk (pa : Nat)
  deriving DecidableEq, Repr, Inhabited

/-- Whether an entry is malformed at a level (R393). -/
def Pte.malformed (e : Pte) (p : Partition) (level : Nat) : Bool :=
  e.rsv || (e.res && level == 2) ||
  (e.v && ((e.l && decide (level < 2)) || (!e.l && level == 3) ||
    (if e.l then e.addr % (if level == 2 then 2 ^ 21 else 2 ^ 16) != 0
     else e.addr % (if level == 2 then 256 else 4096) != 0 ||
       !p.ownsNear e.addr (if level == 2 then 256 else 4096))))

/-- The index bits of a level (R392). -/
def levelIndex (va level : Nat) : Nat :=
  match level with
  | 0 => va / 2 ^ 39 % 512
  | 1 => va / 2 ^ 30 % 512
  | 2 => va / 2 ^ 21 % 512
  | _ => va / 2 ^ 16 % 32

/-- The loop of the walk from a table, with the levels that are left as fuel (R395). -/
def walkFrom (m : Memory) (p : Partition) (va : Nat) (acc : Access) (sup : Bool) (table : Nat) (lines : List Nat) :
    Nat → Walk
  | 0 => .xlate
  | fuel + 1 =>
    let level := 3 - fuel
    let ea := table + 8 * levelIndex va level
    let e := decPte (m.read ea 8)
    let lines := lines ++ [ea / 128]
    if e.malformed p level then .xlate
    else if !e.v then
      if e.mig then .moving ea else if e.res then .first level ea else .absent level
    else if !e.l then walkFrom m p va acc sup e.addr lines fuel
    else
      let page := if level == 2 then 2 ^ 21 else 2 ^ 16
      let ok := .pa (e.addr + va % page) e.addr page ea e.s e.w e.x lines
      if !p.owns e.addr page then .prot
      else match acc with
        | .host => ok
        | .read => if e.s && !sup then .prot else ok
        | .write => if (e.s && !sup) || !e.w then .prot else ok
        | .fetch => if (e.s && !sup) || !e.x then .prot else ok

/-- Walks the tables of a tenant of a partition (R395). -/
def walk (m : Memory) (p : Partition) (tenant va : Nat) (acc : Access) (sup : Bool) : Walk :=
  if 2 ^ 48 ≤ va then .xlate else walkFrom m p va acc sup (p.t0 + 4096 * tenant) [] 4

/-- The addresses of the entries that a walk reads from a table of a level on. -/
def entriesFrom (m : Memory) (va table level : Nat) : Nat → List Nat
  | 0 => []
  | fuel + 1 =>
    let ea := table + 8 * levelIndex va level
    let e := decPte (m.read ea 8)
    ea :: (if e.v && !e.l then entriesFrom m va e.addr (level + 1) fuel else [])

/-- Reads n bytes at a virtual address of a tenant as the S9 itself does, n not crossing a page; none where the
address has no translation. -/
def State.vread (s : State) (p : Partition) (tenant va n : Nat) : Option Nat :=
  match walk s.mem p tenant va .host true with
  | .pa a .. => some (s.mem.read a n)
  | _ => none

/-! ### Region control blocks (R23 to R27, R385, R386) -/

/-- An RCB of a tenant; its halves may lie in two pages. -/
def State.rcb (s : State) (p : Partition) (tenant va : Nat) : Option (BitVec 1024) :=
  match s.vread p tenant va 64, s.vread p tenant (va + 64) 64 with
  | some lo, some hi => if va % 64 != 0 then none else some (BitVec.ofNat 512 hi ++ BitVec.ofNat 512 lo)
  | _, _ => none

/-- KIND of an RCB. -/
def rcbKind (r : BitVec 1024) : Nat := (r.extractLsb' 48 2).toNat
/-- PARENT of an RCB. -/
def rcbParent (r : BitVec 1024) : Nat := (r.extractLsb' 0 48).toNat
/-- An override bit, in the order of R24. -/
def rcbOvr (r : BitVec 1024) (k : Nat) : Bool := r.getLsbD (64 + k)
/-- Reserved bits of an RCB (R385). -/
def rcbReservedZero (r : BitVec 1024) : Bool :=
  r.extractLsb' 448 576 == 0 && r.extractLsb' 254 2 == 0 && r.extractLsb' 193 7 == 0 && r.extractLsb' 75 5 == 0 &&
  r.extractLsb' 50 14 == 0

/-- The fields of R24 by their order there: bit position and width (R385). -/
def rcbFieldPos (k : Nat) : Nat × Nat :=
  [(80, 16), (96, 40), (136, 40), (176, 17), (200, 32), (232, 16), (248, 4), (252, 1), (253, 1), (256, 16),
   (272, 48)].getD k (0, 0)

/-- A field of an RCB. -/
def rcbField (r : BitVec 1024) (k : Nat) : Nat :=
  (r.extractLsb' (rcbFieldPos k).1 (rcbFieldPos k).2).toNat

/-- A chain of nodes: each with its address (none for the partition root), the node itself first. -/
abbrev Chain := List (Option Nat × BitVec 1024)

/-- The chain from a launch node to the partition root; none where the shape of R23 is broken. -/
def State.chain (s : State) (p : Partition) (tenant launch : Nat) : Option Chain := do
  let l ← s.rcb p tenant launch
  let j ← s.rcb p tenant (rcbParent l)
  let t ← s.rcb p tenant (rcbParent j)
  if rcbKind l == 3 && rcbKind j == 2 && rcbKind t == 1 && rcbParent t == 0 && rcbReservedZero l && rcbReservedZero j &&
      rcbReservedZero t && (t.extractLsb' 320 64).toNat == tenant && j.extractLsb' 320 128 == 0 &&
      t.extractLsb' 384 64 == 0 then
    some [(some launch, l), (some (rcbParent l), j), (some (rcbParent j), t), (none, p.root)]
  else none

/-- Whether the RCB that the tenant table names for a tenant is a tenant RCB of that index (R387); a tenant that does not
exist has none. -/
def State.tenantOk (s : State) (p : Partition) (tenant : Nat) : Bool :=
  let e := s.mem.read (p.t0 + 0x100800 + 8 * tenant) 8
  !e.testBit 63 || (s.rcb p tenant (e % 2 ^ 48)).any (fun r => rcbKind r == 1 && (r.extractLsb' 320 64).toNat == tenant)

/-- The effective value of a field: budgets take the smaller of own and inherited, others the nearest own (R25). -/
def effective (k : Nat) : Chain → Nat
  | [] => 0
  | [n] => rcbField n.2 k
  | n :: rest =>
    if !rcbOvr n.2 k then effective k rest
    else if k < 5 then min (rcbField n.2 k) (effective k rest) else rcbField n.2 k

/-- The node that roots the fault domain of a chain's first node; none for the partition root (R27). -/
def domainOf : Chain → Option Nat
  | [] => none
  | n :: rest => if n.1.isSome && rcbOvr n.2 7 && rcbField n.2 7 == 1 then n.1 else domainOf rest

/-! ### Tasks and jobs (R33 to R35) -/

/-- Decrements a task's counter once (R33). -/
def State.decTask (s : State) (t : Nat) : State :=
  match s.task? t with
  | none => s
  | some x =>
    if x.ended then s
    else if x.ctr == 0 then
      s.modJob x.part x.tenant x.job (fun j => { j with under := min (j.under + 1) (2 ^ 32 - 1) })
    else if x.ctr == 1 && !x.ready then
      { s.modTask t (fun y => { y with ctr := 0, ready := true, readySeq := s.nextSeq }) with nextSeq := s.nextSeq + 1 }
    else s.modTask t (fun y => { y with ctr := y.ctr - 1 })

/-- Decrements a task's counter n times. -/
def State.decTaskN (s : State) (t : Nat) : Nat → State
  | 0 => s
  | n + 1 => (s.decTask t).decTaskN t n

/-- The task that a TASK field names in a partition: the newest of the tenant, else one of another tenant (R291). -/
def State.byHandle (s : State) (p tenant h : Nat) : Option Task :=
  let all := s.tasks.filter (fun t => t.part == p && t.id % 2 ^ 24 == h)
  (all.filter (fun t => t.tenant == tenant)).getLast?.orElse (fun _ => all.getLast?)

/-- Decrements the counter of the task that a TASK field of a tenant names (R33). -/
def State.decHandle (s : State) (p tenant h : Nat) : State :=
  match s.byHandle p tenant h with
  | some t => if t.tenant == tenant then s.decTask t.id else s
  | none => s

/-- Whether a store of one of a job's tasks is still to be performed (R383). -/
def State.jobStores (s : State) (p tenant rcb : Nat) : Bool :=
  s.ops.any (fun o => (match o.kind with
      | .store _ | .atom .. | .relE .. => true
      | _ => false) &&
    s.tasks.any (fun t => t.id == o.gang && t.part == p && t.tenant == tenant && t.job == rcb))

/-- Whether an island of a job's scenes is to be launched again (R306). -/
def Partition.relaunching (x : Partition) (j : Job) : Bool :=
  x.scenes.any (fun sc => sc.tenant == j.tenant && sc.proto.job == j.rcb && sc.islands.any (fun i => i.state == .growfail))

/-- Sends JOB_END for the jobs of a partition whose count is 0, whose stores are performed and none of whose islands is
to be launched again, and lets their tasks go (R35, R383). -/
def State.closeJobs (s : State) (p : Nat) : State :=
  match s.part? p with
  | none => s
  | some x =>
    (x.jobs.filter (fun j => j.out == 0 && !s.jobStores p j.tenant j.rcb && !x.relaunching j)).foldl (fun s j =>
      let s := s.event p 0x81 (BitVec.ofNat 64 j.rcb) (BitVec.ofNat 64 j.under) 0
      { s.modPart p (fun y => { y with jobs := y.jobs.filter (fun k => !(k.rcb == j.rcb && k.tenant == j.tenant)) }) with
        tasks := s.tasks.filter (fun t => !(t.ended && t.part == p && t.tenant == j.tenant && t.job == j.rcb)) }) s

/-- A task's handle as the registers and events carry it (R291). -/
def handleOf (t : Nat) : BitVec 64 := BitVec.ofNat 64 (t % 2 ^ 24)

/-- A message that a peer's task has ended (R35): data message code 0x43 (log 13). -/
def State.sendData (s : State) (p tenant op : Nat) (dest a0 a1 a2 a3 : BitVec 64) (tag : Nat) : State :=
  { s with outbox := s.outbox ++ [{ part := p, dest := dest, hdr := mkHdr 3 op p tenant 0 0 0 0 (BitVec.ofNat 64 tag) a0 a1 a2 a3, payload := [] }] }

/-- An island's gangs have ended: its next state, and what that means for the islands pending at it (R306, R309). -/
def Scene.gangEnded (sc : Scene) (isl : Nat) : Scene :=
  match sc.islands.find? (fun i => i.num == isl) with
  | none => sc
  | some i =>
    let next : IState :=
      match i.state with
      | .absorbed => .merged
      | .running => if i.rest then .sleeping else .idle
      | .patched => .idle
      | st => st
    let sc := { sc with islands := sc.islands.map (fun k => if k.num == isl then { k with state := next, tasks := [] } else k) }
    if i.state == .growfail then sc
    else { sc with islands := sc.islands.map (fun k =>
      if k.pendAt != some isl then k
      else { k with pendAt := none, state := if k.state == .sleepingAbsorbed then .merged else k.state }) }

/-- Whether every gang of a scene's step, relaunches included, has ended (R299). -/
def Scene.stepOver (sc : Scene) : Bool := sc.stepTasks.isEmpty && sc.islands.all (fun i => i.state != .growfail)

/-- The task that a scene's step decrements when it is over (R299). -/
def State.stepCheck (s : State) (p scene : Nat) : State :=
  match (s.part? p).bind (fun x => x.scenes.find? (fun sc => sc.num == scene)) with
  | none => s
  | some sc =>
    match sc.link with
    | some t =>
      if sc.stepOver then
        (s.modPart p (fun x => { x with scenes := x.scenes.map (fun q => if q.num == scene then { q with link := none } else q) })).decTask t
      else s
    | none => s

/-- What the end of an island gang means for its scene (R299, R306). -/
def State.islandGangEnded (s : State) (p : Nat) (i : IslGang) (task : Nat) : State :=
  let s := s.modPart p (fun x => { x with scenes := x.scenes.map (fun sc =>
    if sc.num != i.scene then sc else
    let sc : Scene := { sc with
      stepTasks := sc.stepTasks.filter (fun t => t != task)
      islands := sc.islands.map (fun k => if k.tasks.contains task then { k with tasks := k.tasks.filter (fun t => t != task) } else k) }
    match sc.islands.find? (fun k => k.num == i.island) with
    | none => sc
    | some k => if k.tasks.isEmpty then sc.gangEnded k.num else sc) })
  s.stepCheck p i.scene

/-- Ends a task: its count, its links, its messages (R27, R33 to R35, R295). -/
def State.endTask (s : State) (t status : Nat) (aborted : Bool) : State :=
  match s.task? t with
  | none => s
  | some x =>
    if x.ended then s else
    let s := s.modTask t (fun y => { y with ended := true, status := status, aborted := aborted, ready := false })
    let good := !aborted && status == 0
    let s := s.modJob x.part x.tenant x.job (fun j =>
      { j with out := j.out - (if x.origin.isSome then 0 else 1), done := if good then (j.done + 1) % 2 ^ 32 else j.done,
               failed := if good then j.failed else (j.failed + 1) % 2 ^ 32 })
    let s := match x.origin with
      | some (src, tag) => s.sendData x.part x.tenant 0x43 src (handleOf t) (BitVec.ofNat 64 (status + if aborted then 256 else 0)) 0 0 tag
      | none => s
    let s := if good then x.links.foldl (fun s l => s.decTask l) s else s
    let s := match x.isl with
      | some i => s.islandGangEnded x.part i t
      | none => s
    if !aborted && status != 0 then s.event x.part 0x82 (handleOf t) (BitVec.ofNat 64 status) 0 else s

/-! ### Ends of tussocks and gangs (R34, R121, R196) -/

/-- Removes the subscriptions of a gang (R121). -/
def State.dropSubs (s : State) (g : Nat) : State :=
  let left := s.subs.map (fun e => { e with subs := e.subs.filter (fun x => x.gang != g) })
  { s with subs := left.filter (fun e => !e.subs.isEmpty) }

/-- Removes the range locks of a gang on every core (R413). -/
def State.dropLocks (s : State) (g : Nat) : State :=
  { s with cores := s.cores.map (fun c => { c with locks := c.locks.filter (fun l => l.gang != g) }) }

/-- Returns tokens to the pool (R427). -/
def State.poolAdd (s : State) (n : Nat) : State := s.modDev (fun d => { d with pool := d.pool + n })

/-- Whether an operation lives in its gang's own scratchpad, tiles and engine commands, which go with the gang. -/
def Op.ofGang (o : Op) : Bool :=
  match o.kind with
  | .copy _ | .shuf _ | .merge _ | .loop _ | .tile .. | .desc _ | .fill _ => true
  | _ => false

/-- Whether an operation is a write that a gang has retired and that is not performed (R136, R196). -/
def Op.unwritten (o : Op) : Bool :=
  match o.kind with
  | .store _ | .atom .. | .relE .. | .barrier .. => true
  | .result r => r.wpush.isSome
  | _ => false

/-- Releases what an ended gang holds on its core, its scratchpad with it, once its tussocks' stores are performed
(R34, R369). -/
def State.releaseGang (s : State) (g : Nat) : State :=
  match s.gang? g with
  | none => s
  | some x =>
    if x.tks.all (·.ended) && !s.ops.any (fun o => o.gang == g && o.unwritten) then
      { s with gangs := s.gangs.filter (fun y => y.id != g) }
    else s

/-- Ends a gang whose tussocks have all ended: its task ends, engine commands that still run stop, and its resources are
freed once its stores are performed (R34; log 15). -/
def State.endGang (s : State) (g : Nat) : State :=
  match s.gang? g with
  | none => s
  | some x =>
    let status := x.tks.foldl (fun m t => max m t.status) 0
    let s := (s.dropSubs g).dropLocks g
    let s : State := { s with ops := s.ops.filter (fun o => o.gang != g || !o.ofGang), waiters := s.waiters.filter (fun w => w.gang != g) }
    let s := s.poolAdd (x.tks.foldl (fun n t => n + t.tokens) 0)
    let s := s.modGang g (fun y => { y with tks := y.tks.map (fun t => { t with tokens := 0 }) })
    ((s.endTask g status false).closeJobs x.part).releaseGang g

/-! ### Fault-domain abort (R27, R413) -/

/-- The fault domain of a task that is not placed, read from its chain. -/
def State.taskDomain (s : State) (x : Task) : Option Nat :=
  match s.part? x.part with
  | none => none
  | some p => ((s.chain p x.tenant x.launch).map domainOf).getD none

/-- Whether an operation of an aborted gang still completes: retired stores and atomics are performed (R136), and what the
device has begun for it, a page move, an exchange of frames or a checkpoint, runs to its end. -/
def Op.outlives (o : Op) : Bool :=
  match o.kind with
  | .store _ | .atom .. | .relE .. | .move _ | .moveReq _ | .migrQueued .. | .swap .. | .ckpt .. => true
  | _ => false

/-- Aborts a fault domain of a partition: `root` is the RCB that roots it, none for the partition root (R413). -/
def State.abortDomain (s : State) (p tenant : Nat) (root : Option Nat) (code : Nat) (pc : BitVec 64) : State :=
  let inDom := fun (d : Option Nat) (ten : Nat) => d == root && (root.isNone || ten == tenant)
  let gs := (s.gangs.filter (fun g => g.part == p && inDom g.domain g.tenant)).map (·.id)
  let ts := (s.tasks.filter (fun t => t.part == p && !t.ended &&
    (gs.contains t.id || (!t.placed && inDom (s.taskDomain t) t.tenant)))).map (·.id)
  let goes := fun (o : Op) => gs.contains o.gang && (match o.kind with
    | .task (.spawn _ t) _ => inDom (s.taskDomain t) t.tenant
    | .task (.rspawn ..) _ => true
    | .task .. => false
    | _ => !o.outlives)
  let unmade := (s.ops.filter goes).filterMap (fun o => match o.kind with
    | .task (.spawn _ t) _ => some (t.tenant, t.job)
    | .task (.rspawn _ _ _ _ _ _ job) _ => o.who.map (fun w => (w.2, job))
    | _ => none)
  let s : State := { s with ops := s.ops.filter (fun o => !goes o) }
  let s := unmade.foldl (fun s e => s.modJob p e.1 e.2 (fun j => { j with out := j.out - 1, failed := (j.failed + 1) % 2 ^ 32 })) s
  let s : State := { s with ops := s.ops.map (fun o => if gs.contains o.gang then { o with tag := 0, tagSlots := [] } else o) }
  let s := gs.foldl (fun s g => (s.dropLocks g).dropSubs g) s
  let s : State := { s with waiters := s.waiters.filter (fun w => !gs.contains w.gang) }
  let tok := (s.gangs.filter (fun g => gs.contains g.id)).foldl (fun n g => n + g.tks.foldl (fun n t => n + t.tokens) 0) 0
  let s := (s.poolAdd tok).modDev (fun d => { d with poolQ := d.poolQ.filter (fun r => !gs.contains r.gang) })
  let s : State := { s with gangs := s.gangs.filter (fun g => !gs.contains g.id) }
  let s := ts.foldl (fun s t => s.endTask t 0 true) s
  let s := s.event p 0x83 (match root with
    | some r => BitVec.ofNat 64 r
    | none => BitVec.allOnes 64) (BitVec.ofNat 64 code) pc
  s.closeJobs p

/-! ### Traps (R408 to R412, R315) -/

/-- The trap codes of R408. -/
inductive TrapCode where
  | illop | xferunp | xferdiv | divstk | deadwait | rlock | first | xlate | prot | align | futrew | qerr | sort
  | priv | teammis | shape | spawndepth | stage | brk | mchk | sretdiv | supwalk
  deriving DecidableEq, Repr, Inhabited

/-- The number of a trap code (R408). -/
def TrapCode.num : TrapCode → Nat
  | .illop => 0x01
  | .xferunp => 0x02
  | .xferdiv => 0x03
  | .divstk => 0x04
  | .deadwait => 0x05
  | .rlock => 0x06
  | .first => 0x07
  | .xlate => 0x08
  | .prot => 0x09
  | .align => 0x0A
  | .futrew => 0x0B
  | .qerr => 0x0C
  | .sort => 0x0D
  | .priv => 0x0E
  | .teammis => 0x0F
  | .shape => 0x10
  | .spawndepth => 0x11
  | .stage => 0x12
  | .brk => 0x13
  | .mchk => 0x14
  | .sretdiv => 0x15
  | .supwalk => 0x16

/-- Whether TRAPADDR holds an address (R319, R412); it is 0 for other traps. -/
def TrapCode.hasAddr : TrapCode → Bool
  | .xlate | .first | .prot | .align | .rlock | .mchk => true
  | _ => false

/-- A trap: its code, the lanes that take it, the address TRAPADDR shows, the argument of TRAP, and whether it
is never delivered to a handler (R412). -/
structure Trap where
  code  : TrapCode
  lanes : Mask
  addr  : Nat := 0
  arg   : BitVec 16 := 0
  fatal : Bool := false
  deriving DecidableEq, Repr, Inhabited

/-- The branch-target registers as they come back from trap delivery: PREP returns STALE (R62). -/
def staleRegs (b : List BReg) : List BReg :=
  b.map (fun r => { r with lines := [], state := if r.state == .prep then .stale else r.state })

/-- Takes back what a slot has registered for an instruction that does not retire: its arrival at a matrix loop (the
team's preparation ends, R269, R270), at the gang barrier, as a waiter of a future, range locks, and tokens drawn towards
leave that it did not get (R45, R248, R273). -/
def State.withdraw (s : State) (g t k : Nat) : State :=
  match s.gang? g with
  | none => s
  | some x =>
    let paid := ((s.slot? g t k).map (·.phase.paid)).getD 0
    let s := if paid == 0 then s else s.modTk g t (fun y => { y with
      tokens := y.tokens + paid, slots := y.slots.modify k (fun z => { z with phase := { z.phase with paid := 0 } }) })
    let mine := fun (m : Member) => m.tk == t && m.slot == k
    let hit := fun (a : Loop) => a.members.any mine
    let left := (x.arrivals.map (fun a => { a with members := a.members.filter (fun m => !mine m) })).filter
      (fun a => !a.members.isEmpty)
    let others := (x.arrivals.filter hit).flatMap (fun a => a.members.filter (fun m => !mine m))
    let teams := (x.arrivals.filter hit).map (·.team)
    let lock := ((s.slot? g t k).bind (fun z => z.phase.lockOp))
    let s : State := { s with
      cores := if lock.isNone then s.cores else s.cores.map (fun c => { c with locks := c.locks.filter (fun l => some l.op != lock) })
      waiters := s.waiters.filter (fun w => !(w.gang == g && w.tk == t && w.slot == k))
      ops := s.ops.filter (fun o => !(o.gang == g && (match o.kind with
        | .loop l => teams.contains l.team && !l.started && !l.resumed
        | _ => false))) }
    let s := s.modGang g (fun y => { y with arrivals := left, arrived := y.arrived.filter (fun a => a != (t, k)) })
    others.foldl (fun s m => s.modSlot g m.tk m.slot (fun z => match z.wait with
      | some w => if w.cond == .team then z else { z with stall := none, wait := some { w with cond := .team, start := s.now } }
      | none => { z with stall := none, wait := some { cond := .team, start := s.now, next := z.pc + 8, tl := m.tl } })) s

/-- Whether a running handler suspends a slot: the other slot, if it was valid at delivery (R410, R411). -/
def Tussock.suspended (y : Tussock) (k : Nat) : Bool :=
  match y.frame with
  | some f => f.otherValid && k != f.slot
  | none => false

/-- Whether slot k of a tussock runs at supervisor level: a slot that a running handler suspends does not (R410). -/
def Tussock.supAt (y : Tussock) (k : Nat) : Bool := y.sup && !y.suspended k

/-- Gives a parked tussock its place among the ready ones when a wait of it ends (R43, R44). -/
def State.noteReady (s : State) (g t : Nat) : State :=
  match s.tk? g t with
  | none => s
  | some y =>
    if y.parked && y.readySeq == 0 && y.slots.any (fun k => k.valid && !k.waitJoin && k.wait.isNone && k.park.isNone) then
      { s.modTk g t (fun z => { z with readySeq := s.nextSeq + 1 }) with nextSeq := s.nextSeq + 1 }
    else s

/-- Taking a trap (R409): the trapping slot's queue, push count and branch-target registers are saved, TRAPPC,
TRAPCODE, TRAPMASK and TRAPADDR are written, and the handler starts in that slot at supervisor level at
HANDLER_PC with the trapped lanes; at supervisor level (R312), or where HANDLER_PC is 0, the fault domain aborts. A
trap of the slot that a running handler suspends is discarded with its instruction, which issues again (R410). -/
def State.takeTrap (s : State) (g t k : Nat) (tr : Trap) : State :=
  let s := s.withdraw g t k
  match s.gang? g, s.tk? g t, s.slot? g t k with
  | some x, some tk, some sl =>
    if tk.suspended k then (s.modSlot g t k (fun z => { z with wait := none, stall := none, park := none, phase := {} })).noteReady g t
    else if tk.sup || x.handler == 0 || tr.fatal then
      s.abortDomain x.part x.tenant x.domain tr.code.num (sl.pc.setWidth 64)
    else
      (s.modTk g t (fun y => { y with
        sup := true
        trapPc := sl.pc.setWidth 64
        trapCode := 0#32 ++ tr.arg ++ 0#7 ++ BitVec.ofNat 1 k ++ BitVec.ofNat 8 tr.code.num
        trapMask := sl.mask ++ tr.lanes
        trapAddr := if tr.code.hasAddr then BitVec.ofNat 64 tr.addr else 0
        frame := some { slot := k, pc := sl.pc, mask := sl.mask, join := sl.join, queue := sl.queue, pushes := sl.pushes,
                        bregs := staleRegs sl.bregs, ended := 0, otherValid := (tk.slots.getD (1 - k) {}).valid,
                        depth := tk.stack.length }
        slots := y.slots.modify k (fun z => { z with
          pc := x.handler, mask := tr.lanes, join := none, waitJoin := false, bregs := List.replicate 8 {},
          stall := none, wait := none, park := none, phase := {}, fline := none, fetchAt := 0, fetchOp := none, lastIssue := none,
          gap := 0, yld := false, urgent := 0 }) })).noteReady g t
  | _, _, _ => s

/-! ### Joins and ends of lanes (R38) -/

/-- The nearest record that a slot owns: the stack is kept newest first. -/
def nearest (stack : List StackRec) (k : Nat) : Option StackRec := stack.find? (fun r => r.owner == k)

/-- Removes the nearest record that a slot owns. -/
def popNearest (stack : List StackRec) (k : Nat) : List StackRec :=
  match stack with
  | [] => []
  | r :: rest => if r.owner == k then rest else r :: popNearest rest k

/-- Free values in every entry of a queue (R55). -/
def freeQueue (seed : Nat) : List (Lanes 64) :=
  (List.range 16).map (fun e => laneNums.map (fun l => Config.freeValue (seed + 32 * e + l)))

/-- An empty queue (R36). -/
def emptyQueue : List (Lanes 64) := List.replicate 16 (splat 0)

/-- Whether a slot is counted valid while a handler runs: the suspended slot counts as it was at delivery (R411). -/
def Tussock.otherLive (t : Tussock) (k : Nat) : Bool :=
  match t.frame with
  | some f => if f.slot == k && f.otherValid then false else (t.slots.getD (1 - k) {}).valid
  | none => (t.slots.getD (1 - k) {}).valid

/-- What one application of the rules of R38 leaves: the tussock, the slot to which they apply again, and the
owner slot of a merge. -/
structure JoinRes where
  t      : Tussock
  again  : Option Nat := none
  merged : Option Nat := none

/-- A reconvergence record whose PC is a join. -/
def isReconv (r : Option StackRec) (j : Option Addr) : Bool :=
  match r with
  | some q => !q.isPath && some q.pc == j
  | none => false

/-- The slot takes a record's PC and mask with a join; its queue entries become undefined (R38, R55). -/
def Tussock.resumeAt (t : Tussock) (k : Nat) (pc : Addr) (mask : Mask) (join : Option Addr) (seed : Nat) : Tussock :=
  { t with slots := t.slots.modify k (fun x =>
      { x with pc := pc, mask := mask, join := join, waitJoin := false, fline := none, fetchOp := none, queue := freeQueue seed }) }

/-- A slot that goes on for another one issues no earlier than that one would (R48, R348). -/
def Slot.heedGap (x o : Slot) : Slot :=
  let due := fun (z : Slot) => (z.lastIssue.map (fun c => c + 1 + z.gap)).getD 0
  if due x < due o then { x with lastIssue := o.lastIssue, gap := o.gap } else x

/-- Marks a slot as waiting at its join, under rule 2 or (`lone`) rule 6. -/
def Tussock.waitAtJoin (t : Tussock) (k : Nat) (lone : Bool) : Tussock :=
  { t with slots := t.slots.modify k (fun x => { x with waitJoin := true, lone := lone }) }

/-- One application of the rules of R38 to slot k, which is at its join or has an empty mask. A nearest record of its own
with that PC decides rule 3 before one of the other slot (DEDUCED, log 80). -/
def joinOnce (t : Tussock) (k seed : Nat) : JoinRes :=
  let sl := t.slots.getD k {}
  let o := 1 - k
  let os := t.slots.getD o {}
  let live := t.otherLive k
  let j := sl.join
  let near := nearest t.stack k
  let same := live && os.join == j && j.isSome
  let both := sl.mask ||| os.mask
  let holds := fun (w : Nat) => (nearest t.stack w).any (fun r => isReconv (some r) j && r.mask &&& both == both)
  let taker := if isReconv near j then k else o
  let owner := if same && os.waitJoin && holds taker then some taker else none
  let pop := fun (w : Nat) => { t with stack := popNearest t.stack w }
  let rest : JoinRes :=
    if same && !os.waitJoin then { t := t.waitAtJoin k false }
    else match owner with
    | some w =>
      let q := (nearest t.stack w).getD default
      let m := q.mask &&& ~~~t.dead
      let t := (pop w).resumeAt w q.pc m q.join seed
      let t := { t with slots := (t.slots.modify w (fun x => x.heedGap (t.slots.getD (1 - w) {}))).modify (1 - w)
                          (fun x => { x with valid := false, mask := 0, waitJoin := false }) }
      { t := t, merged := some w, again := if q.join == some q.pc || m == 0 then some w else none }
    | none =>
      if isReconv near j then
        let q := near.getD default
        let m := q.mask &&& ~~~t.dead
        { t := (pop k).resumeAt k q.pc m q.join seed, again := if q.join == some q.pc || m == 0 then some k else none }
      else if sl.mask == 0 then
        let t := { t with stack := t.stack.filter (fun q => q.owner != k),
                          slots := t.slots.modify k (fun x => { x with valid := false, waitJoin := false }) }
        { t := t, again := if live && os.waitJoin then some o else none }
      else if live then { t := t.waitAtJoin k true }
      else { t := { t with slots := t.slots.modify k (fun x => { x with join := none, waitJoin := false }) } }
  match near with
  | some r =>
    if r.isPath && r.join == j then
      let m := r.mask &&& ~~~t.dead
      if m == 0 then { t := pop k, again := some k }
      else { t := (pop k).resumeAt k r.pc m j seed, again := if some r.pc == j then some k else none }
    else rest
  | none => rest

/-- Applies the rules of R38 until none asks to be applied again. -/
def joinLoop (t : Tussock) (k seed : Nat) (merged : Option Nat) : Nat → Tussock × Option Nat
  | 0 => (t, merged)
  | fuel + 1 =>
    let r := joinOnce t k seed
    let merged := r.merged.orElse (fun _ => merged)
    match r.again with
    | none => (r.t, merged)
    | some k' => joinLoop r.t k' (seed + 512) merged fuel

/-- The rules of R38 applied again to slot k, which waits at its join. -/
def rejoin (t : Tussock) (k seed : Nat) (merged : Option Nat) : Tussock × Option Nat :=
  let x := t.slots.getD k {}
  if x.valid && x.waitJoin && t.otherLive (1 - k) then joinLoop t k seed merged 200 else (t, merged)

/-- R38 for a slot that is at its join: the slot, then the other slot if it waits under rule 6, or under rule 2 for this
slot at the join that this slot has now reached and left. A tussock holds at most 64 records, so 200 applications are
enough. -/
def reachJoin (t : Tussock) (k seed : Nat) : Tussock × Option Nat :=
  let r := joinLoop t k seed none 200
  let x := r.1.slots.getD k {}
  let o := r.1.slots.getD (1 - k) {}
  let j := (t.slots.getD k {}).join
  if o.lone || (o.join == j && !(x.valid && !x.waitJoin && x.join == j)) then rejoin r.1 (1 - k) (seed + 200 * 512) r.2 else r

/-- The pending operations of each tag for a slot, as counts (R38 rule 3, R64); they may pass 15 at a merge
(DESIGN CHOICE, log 99). -/
def State.tagCounts (s : State) (g t k : Nat) : List Nat :=
  (List.range 7).map (fun i => (s.ops.filter (fun o => o.gang == g && ((o.tk == t && o.tag == i + 1 && o.tagSlots.contains k) ||
    (match o.kind with
      | .loop l => (l.started || l.resumed) && l.members.any (fun m => m.tk == t && m.slot == k && m.tag == i + 1)
      | _ => false)))).length)

/-- After a merge into slot w, every operation of either path counts for w, each once, and the accesses and acquires of
either come before what w issues (R38, R127, R230). -/
def State.mergeTags (s : State) (g t w : Nat) : State :=
  let fix := fun (l : List Nat) => if l.isEmpty then l else [w]
  let s : State := { s with ops := s.ops.map (fun o => if o.gang != g then o else
      { o with tagSlots := if o.tk == t then fix o.tagSlots else o.tagSlots,
               kind := (match o.kind with
                 | .result r => if o.tk == t then .result { r with qslots := r.qslots.filter (fun x => x == w) } else .result r
                 | .loop l => .loop { l with members := (l.members.map (fun m => if m.tk == t then { m with slot := w } else m)).dedup }
                 | k => k) }) }
  let other := (s.slot? g t (1 - w)).getD {}
  let later := fun (hs : List (Nat × Nat)) (h : Nat × Nat) => (hs.filter (fun e => e.1 != h.1)) ++
      [(h.1, max h.2 (((hs.find? (fun e => e.1 == h.1)).map (·.2)).getD 0))]
  let counts := s.tagCounts g t w
  s.modSlot g t w (fun x =>
    { x with tags := counts, homes := List.foldl later x.homes other.homes, hold := x.hold ++ other.hold.filter (fun h => !x.hold.contains h) })

/-- The gang barrier completes when every tussock that has not ended has arrived (R242). -/
def State.bargCheck (s : State) (g : Nat) : State :=
  match s.gang? g with
  | none => s
  | some x =>
    let arrived := fun (t : Nat) (tk : Tussock) => tk.ended ||
      (tk.slots.zipIdx.all (fun p => !p.1.valid || x.arrived.contains (t, p.2)))
    if !x.arrived.isEmpty && x.tks.zipIdx.all (fun p => arrived p.2 p.1)
    then s.modGang g (fun y => { y with phase := !y.phase, arrived := [] })
    else s

/-- The members of a team that wait at a matrix loop take #TEAMMIS, in every lane of their masks, when a member ends (R31,
R409). -/
def State.breakTeam (s : State) (g t : Nat) : State :=
  match s.gang? g with
  | none => s
  | some x =>
    let team := t / x.foot.team
    let waiting := (x.arrivals.filter (fun a => a.team == team)).flatMap (fun a => a.members)
    if waiting.isEmpty then s else
    let s := s.modGang g (fun y => { y with arrivals := y.arrivals.filter (fun a => a.team != team) })
    let s : State := { s with ops := s.ops.filter (fun o => !(o.gang == g && (match o.kind with
      | .loop l => l.team == team && !l.started && !l.resumed
      | _ => false))) }
    waiting.foldl (fun s m =>
      if m.tk == t then s
      else s.takeTrap g m.tk m.slot { code := .teammis, lanes := ((s.slot? g m.tk m.slot).map (·.mask)).getD 0 }) s

/-- After slots have changed: ends the tussock if no slot is valid, and the gang if no tussock is left (R34, R38). -/
def State.endCheck (s : State) (g t : Nat) : State :=
  match s.tk? g t with
  | none => s
  | some x =>
    if x.ended || x.slots.any (·.valid) then s.bargCheck g
    else
      let s := s.poolAdd x.tokens
      let s := s.modTk g t (fun y => { y with ended := true, active := none, staging := none, tokens := 0, stack := [], sup := false, frame := none })
      let s := s.breakTeam g t
      match s.gang? g with
      | none => s
      | some y => if y.tks.all (·.ended) then s.endGang g else s.bargCheck g

/-- Rules of R38 applied over the records that take part: those of a running handler while there is one (R411). -/
def State.overRecords (s : State) (g t : Nat) (f : Tussock → Nat → Tussock × Option Nat) : State :=
  match s.tk? g t with
  | none => s
  | some x =>
    let own := match x.frame with
      | some f => x.stack.length - f.depth
      | none => x.stack.length
    let r := f { x with stack := x.stack.take own } s.seed
    let s : State := { s.modTk g t (fun _ => { r.1 with stack := r.1.stack ++ x.stack.drop own }) with seed := s.seed + 400 * 512 }
    match r.2 with
    | some w => s.mergeTags g t w
    | none => s

/-- R38 applied to slot k, which is at its join or has an empty mask. -/
def State.joinIn (s : State) (g t k : Nat) : State := s.overRecords g t (fun x seed => reachJoin x k seed)

/-- R38 applied again to slot k if it waits at its join under rule 6, because the other slot has split. -/
def State.splitIn (s : State) (g t k : Nat) : State :=
  s.overRecords g t (fun x seed => if (x.slots.getD k {}).lone then rejoin x k seed none else (x, none))

/-- Whether a handler that ran has no slot left: it has ended with its last lane (R196). -/
def Tussock.handlerGone (x : Tussock) : Bool :=
  match x.frame with
  | some f => !(x.slots.getD f.slot {}).valid && (f.otherValid || !(x.slots.getD (1 - f.slot) {}).valid)
  | none => false

/-- What returning from a trap reinstates in the interrupted slot (R315). -/
def Tussock.reinstate (x : Tussock) (f : HFrame) (pc : Addr) : Tussock :=
  { x with
    sup := false, frame := none,
    slots := x.slots.modify f.slot (fun z => { z with
      valid := true, pc := pc, mask := f.mask &&& ~~~f.ended &&& ~~~x.dead, join := f.join, waitJoin := false, queue := f.queue,
      pushes := f.pushes, bregs := f.bregs, stall := none, wait := none, park := none, phase := {}, fline := none,
      fetchOp := none }) }

/-- Ends the handler of a tussock and resumes the interrupted slot, at the trapped PC or past it, and the window fills
whose fault it took (R106, R196, R315). The handler's pushes in flight reach no queue (R56). -/
def State.resumeTrapped (s : State) (g t : Nat) (skip : Bool) : State :=
  match s.tk? g t with
  | none => s
  | some x =>
    match x.frame with
    | none => s
    | some f =>
      let s := s.modTk g t (fun y => y.reinstate f (if skip then f.pc + 8 else f.pc))
      let s : State := { s with ops := s.ops.map (fun o => if o.gang == g && o.tk == t then { o with kind := (match o.kind with
        | .copy c => if c.paused == some .trapped then .copy { c with paused := none } else .copy c
        | .result r => .result (if r.inHandler then { r with qslots := [] } else r)
        | k => k) } else o) }
      match s.slot? g t f.slot with
      | none => s
      | some y => if y.join == some y.pc || y.mask == 0 then s.joinIn g t f.slot else s

/-- Slot k of a tussock is at its join or has lost its last lane (R38); a handler that has lost its last lane ends
(R196). -/
def State.join (s : State) (g t k : Nat) : State :=
  let s := s.joinIn g t k
  let s := match s.tk? g t with
    | some x => if x.handlerGone then s.resumeTrapped g t false else s
    | none => s
  s.endCheck g t

/-- The slot's next PC: it is at its join when that is its join PC (R38). -/
def State.goto (s : State) (g t k : Nat) (pc : Addr) : State :=
  let s := s.modSlot g t k (fun x => { x with pc := pc, phase := {}, stall := none })
  match s.slot? g t k with
  | some x => if x.join == some pc || x.mask == 0 then s.join g t k else s
  | none => s

/-- Returning from a trap (R315): user level again, the interrupted slot's queue, push count and branch-target
registers reinstated, its mask less the lanes that ended in the handler, at the trapped PC or past it. -/
def State.leaveTrap (s : State) (g t : Nat) (skip : Bool) : State :=
  (s.resumeTrapped g t skip).endCheck g t

end Sys2Proof.Machine
end

