-- ==== Sys2Proof/Machine/Flags.lean ====
section
/-! DEFINITION. Sticky flags, FPCTL, and the conditions of the compares. The flags that each arithmetic result
raises are computed beside the result in Numfmt. -/

namespace Sys2Proof.Machine

open Sys2Proof

/-- No flag in any lane. -/
def noFlags : Lanes 5 := splat 0

/-- Raises flags in lanes (R69). -/
def State.raise (s : State) (g t : Nat) (mask : Mask) (fl : Lanes 5) (clear : BitVec 5) : State :=
  if clear == 0 && fl.all (· == 0) then s
  else s.modTk g t (fun y => { y with flags := laneNums.map (fun l =>
    if mask.getLsbD l then (y.flags.at_ l &&& ~~~clear) ||| fl.at_ l else y.flags.at_ l) })

/-- FPCTL.FTZ (R68). -/
def Tussock.ftz (t : Tussock) : Bool := t.fpctl.getLsbD 2

/-- FPCTL.RM (R68). -/
def Tussock.dynRm (t : Tussock) : BitVec 2 := t.fpctl.extractLsb' 0 2

/-- The conditions of ICMP at a width (R202). -/
def icmp {w : Nat} (cond : BitVec 3) (a b : BitVec w) : Bool :=
  match cond.toNat with
  | 0 => a == b
  | 1 => a != b
  | 2 => a.slt b
  | 3 => a.sle b
  | 4 => b.slt a
  | 5 => b.sle a
  | 6 => a.ult b
  | _ => b.ule a

/-- The format of an FCMP type code (R179). -/
def fcmpFmt (ty : BitVec 2) : Fmt :=
  match ty.toNat with
  | 0 => f32
  | 1 => f64
  | 2 => f16
  | _ => bf16

end Sys2Proof.Machine
end

