-- ==== Sys2Proof/Machine/Errors.lean ====
section
/-! DEFINITION. Storage errors: detection, retry, classification, sparing, logs and MCHK events (R435 to R440). -/

namespace Sys2Proof.Machine

open Sys2Proof

/-- Who reads: partition, tenant and launch RCB; none for the scrub and the host. -/
abbrev Reader := Option (Nat × Nat × Nat)

/-- The reader of an access that is made for a gang (R439). -/
def State.readerOf (s : State) (g : Nat) : Reader :=
  (s.gang? g).map (fun x => (x.part, x.tenant, ((s.task? g).map (·.launch)).getD 0))

/-- What a read of a range met: the first word in which an error lasts, and the bits that the reader receives inverted,
counted from the start of the range. -/
structure EccRes where
  s    : State
  bad  : Option Nat := none
  flip : BitVec 128 := 0
  deriving DecidableEq, Repr, Inhabited

/-- The number of one bits of a mask. -/
def popCount (w : BitVec 64) : Nat := ((List.range 64).filter (fun k => w.getLsbD k)).length

/-- Whether an error in the range lasts. -/
def EccRes.lasting (e : EccRes) : Bool := e.bad.isSome

/-- The bytes in which parity fails: those with an odd number of inverted bits (R435). -/
def parityBytes (w : BitVec 64) : List Nat :=
  (List.range 8).filter (fun b => ((List.range 8).filter (fun k => w.getLsbD (8 * b + k))).length % 2 == 1)

/-- An error-log entry (R439). -/
def mkLog (array : Nat) (addr : BitVec 48) (cls count : Nat) (inj spared : Bool) (synd : BitVec 16) (time : Nat)
    (r : Reader) : BitVec 256 :=
  let ctx := r.getD (0, 0, 0)
  0#63 ++ BitVec.ofBool r.isSome ++ BitVec.ofNat 48 ctx.2.2 ++ BitVec.ofNat 8 ctx.2.1 ++ 0#2 ++ BitVec.ofNat 6 ctx.1 ++
  BitVec.ofNat 32 (time / 2 ^ 20) ++ BitVec.ofNat 16 count ++ synd ++ 0#8 ++ BitVec.ofBool inj ++ BitVec.ofBool spared ++
  BitVec.ofNat 2 cls ++ BitVec.ofNat 4 array ++ addr

/-- CLASS of a log entry. -/
def logClass (e : BitVec 256) : Nat := (e.extractLsb' 52 2).toNat

/-- Logs an event (R439). -/
def State.logErr (s : State) (array home : Nat) (addr : BitVec 48) (cls : Nat) (inj spared : Bool) (synd : BitVec 16)
    (r : Reader) : State :=
  let here := s.dev.logs.filter (fun l => l.array == array && l.home == home)
  let same := here.find? (fun l => l.entry.extractLsb' 0 48 == addr && logClass l.entry == cls)
  let count := match same with
    | some l => min (((l.entry.extractLsb' 80 16).toNat) + 1) 65535
    | none => 1
  let e : ErrLog := { array := array, home := home, entry := mkLog array addr cls count inj spared synd s.now r, order := s.nextSeq }
  let oldest := fun (c : Nat) => (here.filter (fun l => logClass l.entry == c)).foldl
    (fun (m : Option ErrLog) l => match m with
      | some x => if l.order < x.order then some l else some x
      | none => some l) none
  let victim := match same with
    | some l => some l
    | none => if here.length < 16 then none else (oldest 0).orElse (fun _ => oldest 1)
  if same.isNone && decide (16 ≤ here.length) && victim.isNone then s
  else
    let s := s.modDev (fun d => { d with logs := (match victim with
      | some v => d.logs.filter (fun l => l != v)
      | none => d.logs) ++ [e] })
    { s with nextSeq := s.nextSeq + 1 }

/-- Whether a spare is free for a location: 1,024 lines a near slice, 16 words a scratchpad bank, none elsewhere (R437). -/
def State.spareFree (s : State) (array home addr : Nat) : Bool :=
  match array with
  | 0 => decide ((s.dev.spares.filter (fun x => x.1 == 0 && x.2.1 == home)).length < 1024)
  | 1 => decide ((s.dev.spares.filter (fun x => x.1 == 1 && x.2.1 == home && x.2.2 / 4 % 64 == addr / 4 % 64)).length < 16)
  | _ => false

/-- The location that a spare takes the place of, and that is counted: a near line of 128 bytes, else a word (R437). -/
def spareUnit (array addr : Nat) : Nat := if array == 0 then addr / 128 * 128 else addr / 8 * 8

/-- Moves a location to a spare, which ends its upsets (R436). -/
def State.spare (s : State) (array home addr : Nat) : State :=
  let u := spareUnit array addr
  s.modDev (fun d => { d with
    spares := d.spares ++ [(array, home, u)]
    injs := d.injs.filter (fun i => !(i.nat && i.array == array && i.home == home && spareUnit array i.addr.toNat == u)) })

/-- A lasting event of a core array without a spare: no new gang on that core, retired from the next reset (R437). -/
def State.condemn (s : State) (array home : Nat) : State :=
  if 1 ≤ array && array ≤ 5 then
    (s.modCore home (fun c => { c with noPlace := true })).modDev (fun d =>
      { d with retired := d.retired ||| BitVec.ofNat 192 (2 ^ home) })
  else s

/-- Counts a transient (or corrected) event of a location and spares it early (R436). -/
def State.countErr (s : State) (array home addr : Nat) (transient : Bool) : State :=
  let u := spareUnit array addr
  let old := (s.dev.errs.find? (fun e => e.array == array && e.home == home && e.addr == u)).getD
    { array := array, home := home, addr := u, transient := 0, corrected := 0 }
  let new := if transient then { old with transient := old.transient + 1 } else { old with corrected := old.corrected + 1 }
  let s := s.modDev (fun d => { d with errs := d.errs.filter (fun e => e != old) ++ [new] })
  if (new.transient == 16 || new.corrected == 256) && s.spareFree array home addr then s.spare array home addr else s

/-- A write by an engine, the tile path or a push reaches the bank array at once. -/
def Gang.arrPut (x : Gang) (a : Nat) (bs : List Byte) : Gang :=
  { x with sp := x.sp.put a bs, arr := x.arr.put a bs, bwq := x.bwq.filter (fun w => w.addr < a || a + bs.length ≤ w.addr) }

/-- The bits of cell i in an inversion of a y tile. -/
def cellFlip (m i : Nat) : BitVec 40 := BitVec.ofNat 40 (m / 2 ^ (40 * i))

/-- The gangs of a core with one of its arrays changed from a byte offset on (R16, R321): bits of eight bytes inverted. -/
def Gang.flipAt (x : Gang) (array a : Nat) (m : BitVec 64) : Gang :=
  match array with
  | 1 =>
    if x.spBase ≤ a && a < x.spBase + x.foot.sp then
      x.arrPut (a - x.spBase) (bytesOfNat 8 (x.sp.read (a - x.spBase) 8 ^^^ m.toNat))
    else x
  | 2 =>
    let two := fun (k : Nat) (v : Lanes 32) =>
      (v.modify k (fun w => w ^^^ m.extractLsb' 0 32)).modify (k + 1) (fun w => w ^^^ m.extractLsb' 32 32)
    { x with tks := x.tks.map (fun y =>
        let b := y.oct * 2 ^ 18 + y.mBase
        if !y.ended && b ≤ a && a < b + 128 * y.m.length then { y with m := y.m.modify ((a - b) / 128) (two ((a - b) % 128 / 4)) } else y) }
  | 3 =>
    { x with tks := x.tks.map (fun y => match y.active with
        | some q =>
          let b := y.oct * 16384 + q * 4096
          let two := fun (k : Nat) (v : Lanes 32) =>
            (v.modify k (fun w => w ^^^ m.extractLsb' 0 32)).modify (k + 1) (fun w => w ^^^ m.extractLsb' 32 32)
          if b ≤ a && a < b + 4096 then { y with n := y.n.modify ((a - b) / 128) (two ((a - b) % 128 / 4)) } else y
        | none => y) }
  | 4 =>
    let flip := fun (t : XTile) => { t with bits := t.bits ^^^ ((m.setWidth 65536) <<< (8 * (a % 8192))) }
    if x.xBase ≤ a / 8192 then { x with xt := x.xt.modify (a / 8192 - x.xBase) flip } else x
  | 5 =>
    let wide := m.toNat * 2 ^ (8 * (a % 20480))
    let first := a % 20480 / 5
    let near := fun (i : Nat) => decide (first ≤ i) && decide (i ≤ first + 2)
    let flip := fun (t : YTile) => { t with cells := t.cells.mapIdx (fun i v => if near i then v ^^^ cellFlip wide i else v) }
    if x.yBase ≤ a / 20480 then { x with yt := x.yt.modify (a / 20480 - x.yBase) flip } else x
  | _ => x

/-- Inverts bits of a stored word: what ECC corrects to a wrong value is written back (R435, R436), and a spare's contents
are free until its next write. `real` is a physical address, or an offset in a core's array. -/
def State.flipWord (s : State) (array home real : Nat) (m : BitVec 64) : State :=
  if array == 0 || array == 7 then { s with mem := s.mem.write real 8 (s.mem.read real 8 ^^^ m.toNat) }
  else { s with gangs := s.gangs.map (fun x => if x.core == some home then x.flipAt array real m else x) }

/-- The words of a location hold free values: the spare's contents until its next write (R436). -/
def State.loseUnit (s : State) (array home real : Nat) : State :=
  (List.range (if array == 0 then 16 else 1)).foldl (fun s k =>
    let f := s.free
    f.2.flipWord array home (spareUnit array real + 8 * k) f.1) s

/-- Sends the MCHK event of a lasting error to a partition (R438). -/
def State.mchkEvent (s : State) (p array home : Nat) (addr : BitVec 48) (spared inj : Bool) (r : Reader) : State :=
  let ctx := r.getD (p, 0, 0)
  s.event p 0x87 (addr ++ BitVec.ofNat 8 home ++ BitVec.ofBool inj ++ BitVec.ofBool spared ++ 2#2 ++ BitVec.ofNat 4 array)
    (BitVec.ofNat 48 ctx.2.2 ++ BitVec.ofNat 8 ctx.2.1 ++ 0#2 ++ BitVec.ofNat 6 ctx.1) 0

/-- What a reader makes of inverted bits (R435): nothing to detect, corrected, uncorrectable, not seen, or corrected to a
wrong value. `choice` decides of three bits and more. -/
inductive Seen where
  | clean | corrected | failed | unseen | wrong
  deriving DecidableEq, Repr, Inhabited

/-- How an array's code sees inverted bits: parity on each byte of the fast file, SEC-DED elsewhere (R435). -/
def seenAs (array : Nat) (m : BitVec 64) (choice : Nat) : Seen :=
  if m == 0 then .clean
  else if array == 3 then (if (parityBytes m).isEmpty then .unseen else .failed)
  else match popCount m with
  | 1 => .corrected
  | 2 => .failed
  | _ => if choice == 0 then .failed else if choice == 1 then .wrong else .unseen

/-- Whether the retry of a failed read fails again (R436): more than one bit, or a byte's parity, is still inverted. -/
def retryFails (array : Nat) (m : BitVec 64) : Bool :=
  if array == 3 then !(parityBytes m).isEmpty else decide (2 ≤ popCount m)

/-- The bits that inversions invert together. -/
def invertedBy (is : List Inj) : BitVec 64 := is.foldl (fun m i => m ^^^ i.mask) 0

/-- A lasting event: it is logged and sent, and the location moves to a spare, but not where an injection caused it (R440);
where no spare is free the core of a core array takes no more gangs (R436, R437). -/
def State.lastingEvent (s : State) (array home w real p : Nat) (inj : Bool) (synd : BitVec 16) (r : Reader) : State :=
  let addr := BitVec.ofNat 48 w
  let room := s.spareFree array home w
  let s := s.logErr array home addr 2 inj (room && !inj) synd r
  let s := if !room then s.condemn array home else if inj then s else (s.spare array home w).loseUnit array home real
  s.mchkEvent p array home addr (room && !inj) inj r

/-- A read of one word that inversions hit (R435, R436): whether the error lasts, and the bits that the reader receives
inverted. `w` is the word's address as ERRINJ gives it, `real` where it lies. -/
def State.readWord (s : State) (array home w real p : Nat) (r : Reader) : State × Bool × BitVec 64 :=
  let hits := s.dev.injs.filter (fun i => i.array == array && i.home == home && i.addr.toNat / 8 == w / 8)
  let m := invertedBy hits
  let keep := invertedBy (hits.filter (·.persist))
  let inj := hits.any (fun i => !i.nat)
  let seen := seenAs array m (Config.freeChoice s.seed 3)
  let s : State := { s.modDev (fun d => { d with injs := d.injs.filter (fun i => i.persist || !hits.contains i) }) with seed := s.seed + 1 }
  let f := s.free
  let synd : BitVec 16 := if array == 3 then BitVec.ofNat 16 ((parityBytes m).foldl (fun n b => n + 2 ^ b) 0) else f.1.extractLsb' 0 16
  let s := f.2
  let addr := BitVec.ofNat 48 w
  let count := fun (s : State) (t : Bool) => if inj then s else s.countErr array home w t
  match seen with
  | .clean => (s, false, 0)
  | .corrected => (count (s.logErr array home addr 0 inj false synd r) false, false, 0)
  | .failed =>
    if retryFails array keep then (s.lastingEvent array home w real p inj synd r, true, 0)
    else (count (s.logErr array home addr 1 inj false synd r) true, false, 0)
  | .unseen => (s, false, m)
  | .wrong =>
    let g := s.free
    (count ((g.2.flipWord array home real g.1).logErr array home addr 0 inj false synd r) false, false, g.1)

/-- Whether an array's words are named by physical addresses. -/
def homed (array : Nat) : Bool := array == 0 || array == 6 || array == 7

/-- The address of a place as ERRINJ gives it (R321): a physical address in 48 bits (log 30), or the core position in
[47:40] and an offset. -/
def arrayAddr (array home addr : Nat) : Nat := if homed array then addr % 2 ^ 48 else home * 2 ^ 40 + addr

/-- The words of a range that inversions hit, lowest first armed. -/
def State.hitWords (s : State) (array home lo n : Nat) : List Nat :=
  ((s.dev.injs.filter (fun i => i.array == array && i.home == home && lo / 8 ≤ i.addr.toNat / 8 &&
    i.addr.toNat / 8 ≤ (lo + n - 1) / 8)).map (fun i => i.addr.toNat / 8 * 8)).dedup

/-- A read of n bytes of a core's array or at a home, in any length: the state, the first word in which an error lasts, and
the inverted bits from the start of the range as one number. -/
def State.eccSpan (s : State) (array home addr n p : Nat) (r : Reader) : State × Option Nat × Nat :=
  let lo := arrayAddr array home addr
  (s.hitWords array home lo n).foldl (fun (a : State × Option Nat × Nat) w =>
    let d := a.1.readWord array home w (addr + w - lo) p r
    let m := if w < lo then d.2.2.toNat / 2 ^ (8 * (lo - w)) else d.2.2.toNat * 2 ^ (8 * (w - lo))
    (d.1, if d.2.1 then a.2.1.orElse (fun _ => some (addr + w - lo)) else a.2.1, a.2.2 ^^^ m)) (s, none, 0)

/-- A read of at most 16 bytes. -/
def State.eccRead (s : State) (array home addr n p : Nat) (r : Reader) : EccRes :=
  let e := s.eccSpan array home addr n p r
  { s := e.1, bad := e.2.1, flip := BitVec.ofNat 128 e.2.2 }

/-- Whether no read can meet an error: nothing armed, no storage upset, no retired CXL port. -/
def State.sound (s : State) : Bool := s.dev.injs.isEmpty && s.dev.cxlUp == BitVec.allOnes 16

/-- A read of a far frame on a retired CXL port: a lasting event of array 7 (R450). -/
def State.lostPort (s : State) (p : Partition) (pa : Nat) (r : Reader) : EccRes :=
  let home := homeOf p pa
  let addr := BitVec.ofNat 48 (pa / 8 * 8)
  { s := (s.logErr 7 home addr 2 false false 0 r).mchkEvent p.num 7 home addr false false r, bad := some (pa / 8 * 8) }

/-- A read of global memory: array 0 for a near word at its slice, 7 for a far line at its home (R321, R435, R450). -/
def State.eccGlobal (s : State) (p : Partition) (pa n : Nat) (r : Reader) : EccRes :=
  if 2 ^ 52 ≤ pa && !s.dev.cxlUp.getLsbD (pa / 2 ^ 48 % 16) then s.lostPort p pa r
  else s.eccRead (if pa < 6 * 2 ^ 30 then 0 else 7) (homeOf p pa) pa n p.num r

/-- Reads a subscription entry through its ECC, as the home agent does for its subscribers: a lasting error aborts their
fault domains (R435, R438). -/
def State.tableRead (s : State) (e : SubEntry) : State :=
  if s.dev.injs.all (fun i => i.array != 6) then s
  else match (e.subs.head?).bind (fun x => s.gang? x.gang) with
  | none => s
  | some x =>
    let r := s.eccRead 6 e.home e.addr 8 x.part (s.readerOf x.id)
    if !r.lasting then r.s
    else e.subs.foldl (fun s y => match s.gang? y.gang with
      | some g => s.abortDomain g.part g.tenant g.domain TrapCode.mchk.num 0
      | none => s) r.s

/-- Reads the page-table entries of a walk through ECC (R435): the state, the first entry in which an error lasts, and
memory as the walk sees it. -/
def State.walkRead (s : State) (p : Partition) (tenant va : Nat) (r : Reader) : State × Option Nat × Memory :=
  if s.sound then (s, none, s.mem)
  else
    let q := (entriesFrom s.mem va (p.t0 + 4096 * tenant) 0 4).foldl (fun (a : State × Option Nat × List (Nat × BitVec 128)) ea =>
      let e := a.1.eccGlobal p ea 8 r
      (e.s, a.2.1.orElse (fun _ => e.bad), a.2.2 ++ [(ea, e.flip)])) (s, none, [])
    (q.1, q.2.1, q.2.2.foldl (fun m e => if e.2 == 0 then m else m.write e.1 8 (m.read e.1 8 ^^^ e.2.toNat)) q.1.mem)

end Sys2Proof.Machine
end

