-- ==== Sys2Proof/Machine/Home.lean ====
section
/-! DEFINITION. Translation and its registers, fault records, writes at the homes and banks with what follows from
them, arrivals at barriers, and the futures. -/

namespace Sys2Proof.Machine

open Sys2Proof

/-! ### Fault records (R401, R402) -/

/-- Puts a record into the fault buffer; FAULT_PENDING goes out when the count rises from 0 (R402). -/
def State.enterRecord (s : State) (p id : Nat) (r : BitVec 256) : State :=
  match s.part? p with
  | none => s
  | some x =>
    let a := x.t0 + 0x120000 + 32 * ((x.bufferHead + x.records.length) % 4096)
    let s' : State := { s with mem := s.mem.write a 32 r.toNat }
    let s' := s'.modPart p (fun y => { y with records := y.records ++ [(id, r)] })
    if x.records.isEmpty then s'.event p 0x85 1 0 0 else s'

/-- A new fault record: it enters the buffer, or waits at its core while the buffer is full (R402). Answers its ID. -/
def State.faultRecord (s : State) (p : Nat) (mk : BitVec 32 → BitVec 256) : State × Nat :=
  match s.part? p with
  | none => (s, 0)
  | some x =>
    let id := x.nextFault
    let r := mk id
    let s := s.modPart p (fun y => { y with nextFault := y.nextFault + 1 })
    if x.records.length < 4096 && x.waitRecs.isEmpty then (s.enterRecord p id.toNat r, id.toNat)
    else (s.modPart p (fun y => { y with waitRecs := y.waitRecs ++ [r] }), id.toNat)

/-- The bytes of a fault record (R401). -/
def mkRecord (id : BitVec 32) (va pc : BitVec 48) (kind level slot tenant core task : Nat) (lanes : Mask) : BitVec 256 :=
  0#16 ++ pc ++ lanes ++ BitVec.ofNat 8 core ++ BitVec.ofNat 24 task ++ id ++ BitVec.ofNat 8 tenant ++
  BitVec.ofNat 4 kind ++ BitVec.ofNat 2 level ++ BitVec.ofNat 1 slot ++ 0#33 ++ va

/-! ### The TLB (R396) -/

/-- The result of a hit: the recorded bits decide (R395). -/
def TlbEntry.use (e : TlbEntry) (va : Nat) (acc : Access) (sup : Bool) : Walk :=
  let leaf := 0
  if e.s && !sup && acc != .host then .prot
  else match acc with
    | .write => if e.w then .pa (e.frame + va % e.size) e.frame e.size leaf e.s e.w e.x e.lines else .prot
    | .fetch => if e.x then .pa (e.frame + va % e.size) e.frame e.size leaf e.s e.w e.x e.lines else .prot
    | _ => .pa (e.frame + va % e.size) e.frame e.size leaf e.s e.w e.x e.lines

/-- Whether a TLB entry maps an address of a tenant. -/
def TlbEntry.hits (e : TlbEntry) (p tenant va : Nat) : Bool :=
  e.part == p && e.tenant == tenant && e.page ≤ va && va < e.page + e.size

/-- Sets bits of a leaf entry at its home (A: 0x40, D: 0x80) (R393). -/
def State.orLeaf (s : State) (entry : Nat) (bits : Byte) : State :=
  { s with mem := s.mem.set entry (s.mem.get entry ||| bits) }

/-- Translates through a core's TLB for a reader: a hit, or a walk that fills an entry and sets A (R393, R396). -/
def State.translate (s : State) (core : Nat) (p : Partition) (tenant va : Nat) (acc : Access) (sup : Bool)
    (r : Reader) : State × Walk :=
  if 2 ^ 48 ≤ va then (s, .xlate) else
  match (s.core core).tlb.find? (fun e => e.hits p.num tenant va) with
  | some e => (s, e.use va acc sup)
  | none =>
    let q := s.walkRead p tenant va r
    let s := q.1
    match q.2.1.elim (walk q.2.2 p tenant va acc sup) Walk.mchk with
    | .pa a frame page entry sb w x lines =>
      let e : TlbEntry := { part := p.num, tenant := tenant, page := va - va % page, size := page, frame := frame,
                            s := sb, w := w, x := x, lines := [entry / 128] }
      ((s.orLeaf entry 0x40).modCore core (fun c => { c with tlb := (c.tlb ++ [e]).drop (c.tlb.length + 1 - 2048) }),
       .pa a frame page entry sb w x lines)
    | r => (s, r)

/-- Sets D of the leaf that maps an address, at the first write through it (R393). -/
def State.setDirty (s : State) (p : Partition) (tenant va : Nat) : State :=
  match walk s.mem p tenant va .host true with
  | .pa _ _ _ entry .. => if (s.mem.get entry).getLsbD 7 then s else s.orLeaf entry 0x80
  | _ => s

/-- Sets D of a leaf that still maps, at a write through it (R393). -/
def State.markDirty (s : State) (entry : Nat) : State :=
  if entry != 0 && (decPte (s.mem.read entry 8)).v && !(s.mem.get entry).getLsbD 7 then s.orLeaf entry 0x80 else s

/-- The leaf entry that maps an address; 0 if none. -/
def State.leafOf (s : State) (p : Partition) (tenant va : Nat) : Nat :=
  match walk s.mem p tenant va .host true with
  | .pa _ _ _ entry .. => entry
  | _ => 0

/-! ### Translation registers (R66, R98) -/

/-- The length of the contiguous run of pages with the same S and W from `va` on, and the lines of its leaves. -/
def runFrom (m : Memory) (p : Partition) (tenant va pa : Nat) (sb w : Bool) (have_ : Nat) (lines : List Nat) : Nat → Nat × List Nat
  | 0 => (have_, lines)
  | fuel + 1 =>
    if 2 ^ 21 ≤ have_ then (have_, lines)
    else match walk m p tenant va .host true with
      | .pa a _ page entry sb' w' _ _ =>
        if a == pa && sb' == sb && w' == w then
          let n := page - va % page
          runFrom m p tenant (va + n) (pa + n) sb w (have_ + n) (lines ++ [entry / 128]) fuel
        else (have_, lines)
      | _ => (have_, lines)

/-- What TBIND records for a base whose translation is known (R98). -/
def bindReg (m : Memory) (p : Partition) (tenant : Nat) (base : BitVec 48) : Option TReg :=
  match walk m p tenant base.toNat .host true with
  | .pa a _ _ _ sb w _ _ =>
    let r := runFrom m p tenant base.toNat a sb w 0 [] 34
    some { bound := true, base := base, frame := a, limit := min r.1 (2 ^ 21), s := sb, w := w, retrans := false, lines := r.2 }
  | _ => none

/-- An address of an access through a t register, with the tussock's register brought up to date (R66, R98). -/
def State.tAddr (s : State) (g t core : Nat) (p : Partition) (tenant : Nat) (sup : Bool) (tr : BitVec 3) (o : Int)
    (size : Nat) (acc : Access) : State × Walk :=
  match (s.tk? g t).bind (fun x => x.t[tr.toNat]?) with
  | none => (s, .prot)
  | some r =>
    if !r.bound then (s, .prot) else
    let stale : Option (State × Walk) :=
      if !r.retrans then none
      else match s.translate core p tenant r.base.toNat .read sup (s.readerOf g) with
        | (s', .pa ..) => some (match bindReg s'.mem p tenant r.base with
          | some r' => (s'.modTk g t (fun x => { x with t := x.t.set tr.toNat r' }), .pa 0 0 0 0 false false false [])
          | none => (s', .xlate))
        | other => some other
    match stale with
    | some (s', .pa ..) => go s' (((s'.tk? g t).bind (fun x => x.t[tr.toNat]?)).getD r)
    | some other => other
    | none => go s r
where
  go (s : State) (r : TReg) : State × Walk :=
    if 0 ≤ o && o + size ≤ r.limit then
      if (acc == .write && !r.w) || (r.s && !sup) then (s, .prot)
      else (s, .pa (r.frame + o.toNat) r.frame (2 ^ 16) 0 r.s r.w false r.lines)
    else if (r.base.toNat : Int) + o < 0 then (s, .xlate)
    else s.translate core p tenant ((r.base.toNat : Int) + o).toNat acc sup (s.readerOf g)

/-! ### Clocks of accesses -/

/-- The next clock at which a slot may reach a home again (R134), kept in `Slot.homes`. -/
def nextAt (homes : List (Nat × Nat)) (h : Nat) : Nat := ((homes.find? (fun e => e.1 == h)).map (·.2)).getD 0

/-- Records that a slot reaches a home at a clock. -/
def noteAt (homes : List (Nat × Nat)) (h due : Nat) : List (Nat × Nat) :=
  (h, max (due + 1) (nextAt homes h)) :: homes.filter (fun e => e.1 != h)

/-- The clock up to which a grove's FIFO to a home is taken (R130). -/
def State.fifoAt (s : State) (grove home : Nat) : Nat :=
  (s.fifo.filter (fun e => e.1 == grove && e.2.1 == home)).foldl (fun m e => max m (e.2.2 + 1)) 0

/-- The clock after every entry of a grove's FIFOs. -/
def State.fifoAll (s : State) (grove : Nat) : Nat :=
  (s.fifo.filter (fun e => e.1 == grove)).foldl (fun m e => max m (e.2.2 + 1)) 0

/-- A release of any scope puts the slot's writes into the grove's FIFOs (R130). -/
def State.pushFifo (s : State) (grove : Nat) (homes : List (Nat × Nat)) : State :=
  { s with fifo := (s.fifo.filter (fun e => s.now ≤ e.2.2)) ++
      ((homes.filter (fun e => e.1 < 96 && s.now < e.2)).map (fun e => (grove, e.1, e.2 - 1))) }

/-- The scratchpad accesses of a slot that are not performed: address, size, whether it writes, its clock (R127, R134). -/
def State.bankPend (s : State) (g t k : Nat) : List (Nat × Nat × Bool × Nat) :=
  let of := fun (writes : Bool) (accs : List Acc) =>
    (accs.filter (fun a => !a.glob && !a.done)).map (fun a => (a.addr, a.size, writes, a.at_))
  (s.ops.filter (fun o => o.gang == g && o.tk == t && o.tagSlots.contains k)).flatMap (fun o => match o.kind with
    | .load _ _ accs _ => of false accs
    | .store accs | .atom _ accs _ => of true accs
    | .barrier a .. => [(a, 16, true, o.at_)]
    | _ => [])

/-- The clock after the accesses in [lo, lo + n) that an access comes behind: a write behind all, a read behind writes
(R134). -/
def bankNext (ps : List (Nat × Nat × Bool × Nat)) (lo n : Nat) (writes : Bool) : Nat :=
  (ps.filter (fun p => (writes || p.2.2.1) && decide (lo < p.1 + p.2.1) && decide (p.1 < lo + n))).foldl (fun m p => max m (p.2.2.2 + 1)) 0

/-- The clock after every scratchpad access of a slot that is not performed (R130). -/
def State.banksAt (s : State) (g t k : Nat) : Nat := (s.bankPend g t k).foldl (fun m p => max m (p.2.2.2 + 1)) 0

/-! ### Writes at the homes (R97, R116, R120, R397, R404) -/

/-- A push of a location to a subscription slot on its way (R120). -/
def State.sendPush (s : State) (x : Subscriber) (loc : Nat) (v : BitVec 64) : State :=
  let d := s.delay
  (d.2.addOp (fun id => { id := id, gang := x.gang, tk := 0, slot := 0, core := none, at_ := s.now + 1 + d.1,
                          kind := .push x.slot v 1 loc })).1

/-- Whether a page-table entry says that its page is moving (R404). -/
def State.movingAt (s : State) (entry : Nat) : Bool := !(decPte (s.mem.read entry 8)).v && (decPte (s.mem.read entry 8)).mig

/-- The subscription entries of a location; those of a page that is moving take no pushes (R404). -/
def State.subsAt (s : State) (loc : Nat) : List SubEntry :=
  s.subs.filter (fun e => e.addr == loc && !e.subs.any (fun x => x.leaf != 0 && s.movingAt x.leaf))

/-- The pushes that a write to an 8-byte location makes; a subscriber that is switched out counts it (R120, R122).
Pushes to one slot land in order: a later one is not due earlier. -/
def State.pushes (s : State) (loc : Nat) : State :=
  let s := (s.subsAt loc).foldl (fun s e => s.tableRead e) s
  let v := BitVec.ofNat 64 (s.mem.read loc 8)
  ((s.subsAt loc).flatMap (·.subs)).foldl (fun s x =>
    match (s.gang? x.gang).bind (·.core) with
    | some _ => s.sendPush x loc v
    | none => { s with subs := s.subs.map (fun e => if e.addr == loc then
        { e with subs := e.subs.map (fun y => if y.gang == x.gang && y.slot == x.slot then { y with missed := y.missed + 1 } else y) }
        else e) }) s

/-- Whether an operation still has an access to make through a leaf of a page-table line (R397). -/
def Op.through (o : Op) (line : Nat) : Bool :=
  let hit := fun (a : Acc) => a.glob && !a.done && a.leaf / 128 == line
  match o.kind with
  | .load _ _ accs _ | .store accs | .atom _ accs _ => accs.any hit
  | .acqE _ a | .relE a _ => hit a
  | .subl ls => ls.any (fun l => l.2.2.2 / 128 == line)
  | _ => false

/-- Whether an operation that something waits for is performed or gone; a stopped merge is neither (R289). -/
def State.settled (s : State) (op : Nat) : Bool :=
  s.performed op && s.gangs.all (fun x => x.merges.all (fun m => m.id != op))

/-- Shootdown of a page-table line (R397): TLB entries from it go, t registers from it are marked. Answers the
operations that have an access to make through a translation from it. -/
def State.shootdown (s : State) (line : Nat) : State × List Nat :=
  ({ s with
     cores := s.cores.map (fun c => { c with tlb := c.tlb.filter (fun e => !e.lines.contains line) })
     gangs := s.gangs.map (fun g => { g with tks := g.tks.map (fun t =>
       { t with t := t.t.map (fun r => if r.bound && r.lines.contains line then { r with retrans := true } else r) }) }) },
   (s.ops.filter (fun o => o.through line)).map (·.id))

/-- Wakes the slots and commands that wait for a moving entry, those in saved contexts too (R404). -/
def State.wakeMoving (s : State) (entry : Nat) : State :=
  let mine := fun (p : Option Park) => p == some (.moving entry)
  let slot := fun (k : Slot) => if mine k.park then { k with park := none } else k
  let merge := fun (m : Merge) => if mine m.paused then { m with paused := none } else m
  { s with
    gangs := s.gangs.map (fun g => { g with
      merges := g.merges.map merge, tks := g.tks.map (fun t => { t with slots := t.slots.map slot }) })
    ops := s.ops.map (fun o => { o with kind := (match o.kind with
      | .copy c => if mine c.paused then .copy { c with paused := none } else .copy c
      | .merge m => .merge (merge m)
      | .fill q => if mine q then .fill none else .fill q
      | k => k) }) }

/-- The home slice of a location for the gang of a subscriber (R72, R119). -/
def State.homeFor (s : State) (subs : List Subscriber) (loc : Nat) : Nat :=
  ((subs.head?).bind (fun x => (s.gang? x.gang).bind (fun g => s.part? g.part))).elim (loc / 2 ^ 26) (fun p => homeOf p loc)

/-- What a write of an 8-byte word that held a page-table entry with MIG = 1 means: waiters replay, and a changed
frame takes the page's subscriptions and waiters along (R122, R404). -/
def State.entryWritten (s : State) (entry old new : Nat) : State :=
  let o := decPte old
  let n := decPte new
  if o.v || !o.mig then s else
  let s := s.wakeMoving entry
  if n.v && n.addr != o.addr then
    let inside := fun (a : Nat) => decide (o.addr ≤ a) && decide (a < o.addr + 2 ^ 16)
    let moved := fun (a : Nat) => a - o.addr + n.addr
    { s with
      subs := s.subs.map (fun e => if inside e.addr && e.subs.any (fun x => x.leaf == entry)
        then { e with addr := moved e.addr, home := s.homeFor e.subs (moved e.addr) } else e)
      waiters := s.waiters.map (fun w => if w.glob && w.leaf == entry && inside w.addr then { w with addr := moved w.addr } else w) }
  else s

/-- The pushes on their way from a page whose entry is being marked as moving: they land before it moves (R122). -/
def State.pushesOf (s : State) (old new : Nat) : List Nat :=
  let o := decPte old
  let n := decPte new
  if o.v && !n.v && n.mig then
    (s.ops.filter (fun q => match q.kind with
      | .push _ _ _ loc => decide (o.addr ≤ loc) && decide (loc < o.addr + 2 ^ 16)
      | _ => false)).map (·.id)
  else []

/-- A write of n bytes performed at its home: the bytes, the shootdown, the waiters of a moving entry, the pushes.
Answers what its completion waits for (R397). -/
def State.homeWrite (s : State) (pa n v : Nat) : State × List Nat :=
  let words := (List.range ((pa + n - 1) / 8 - pa / 8 + 1)).map (fun k => (pa / 8 + k) * 8)
  let before := words.map (fun w => s.mem.read w 8)
  let r := ({ s with mem := s.mem.write pa n v } : State).shootdown (pa / 128)
  let s := (words.zip before).foldl (fun s wb => s.entryWritten wb.1 wb.2 (s.mem.read wb.1 8)) r.1
  let coming := (words.zip before).flatMap (fun wb => s.pushesOf wb.2 (s.mem.read wb.1 8))
  (words.foldl (fun s w => s.pushes w) s, r.2 ++ coming)

/-- A write of a nibble at its home (R117). -/
def State.homeNib (s : State) (pa : Nat) (hi : Bool) (v : BitVec 4) : State × List Nat :=
  s.homeWrite pa 1 ((s.mem.nib pa hi v).get pa).toNat

/-- A write of many bytes, at most a line's worth at a time. -/
def State.homePut (s : State) (pa : Nat) : List Byte → Nat → State × List Nat
  | _, 0 => (s, [])
  | [], _ => (s, [])
  | b :: bs, fuel + 1 =>
    let n := min (b :: bs).length (8 - pa % 8)
    let r := s.homeWrite pa n (natOfBytes ((b :: bs).take n))
    let q := r.1.homePut (pa + n) ((b :: bs).drop n) fuel
    (q.1, r.2 ++ q.2)

/-! ### Scratchpad (R101, R140, R454) -/

/-- A generic write performed at its bank: generic reads see it now, the array later, and of two writes of a byte the
older one first (R128, R454). -/
def Gang.spWrite (x : Gang) (arrAt a n v : Nat) : Gang :=
  let behind := fun (b : Nat) => (x.bwq.filter (fun w => w.addr == b)).foldl (fun m w => max m w.at_) arrAt
  { x with sp := x.sp.write a n v,
           bwq := x.bwq ++ (List.range n).map (fun k => { at_ := behind (a + k), addr := a + k, byte := BitVec.ofNat 8 (v / 256 ^ k) }) }

/-- The bank write queues empty into the array up to a clock (R454). -/
def Gang.drainTo (x : Gang) (clk : Nat) : Gang :=
  { x with arr := (x.bwq.filter (fun w => w.at_ ≤ clk)).foldl (fun m w => m.set w.addr w.byte) x.arr,
           bwq := x.bwq.filter (fun w => clk < w.at_) }

/-- A generic write of n bytes at a gang's bank, now. -/
def State.bankWrite (s : State) (g a n v : Nat) : State :=
  let d := s.delay
  match (s.gang? g).bind (·.core) with
  | none => s
  | some c => d.2.modGang g (fun x => x.spWrite (s.clk c + 1 + d.1 % 15) a n v)

/-! ### Arrival barriers (R109, R110) -/

/-- The sixteen bytes of a barrier as one number. -/
def Gang.barrier (x : Gang) (a : Nat) : BitVec 128 := BitVec.ofNat 128 (x.sp.read a 16)

/-- Arrive: `arrived` and `expect` are added, then the completion test applies (R110). -/
def arriveVal (b : BitVec 128) (arrived expect : BitVec 32) : BitVec 128 × Bool :=
  let ex := b.extractLsb' 0 32 + expect
  let ar := b.extractLsb' 32 32 + arrived
  let top := b.extractLsb' 65 63
  let ph := b.extractLsb' 64 1
  if ex != 0 && ex ≤ ar then (top ++ ~~~ph ++ (ar - ex) ++ 0#32, true) else (top ++ ph ++ ar ++ ex, false)

/-- Whether the plain store `a` covers a part of the barrier at an address. -/
def Acc.onBarrier (a : Acc) (addr : Nat) : Bool :=
  !a.glob && decide (a.addr < addr + 16) && decide (addr < a.addr + a.size) && (match a.act with
    | .write _ | .nib .. => true
    | _ => false)

/-- Whether a plain store of another slot than `who` to a barrier is not performed (R111). -/
def State.storeRaces (s : State) (g addr : Nat) (who : Option (Nat × Nat)) : Bool :=
  s.ops.any (fun o => o.gang == g && who != some (o.tk, o.slot) && (match o.kind with
    | .store accs => accs.any (fun a => !a.done && a.onBarrier addr)
    | _ => false))

/-- A plain store races with an arrival: the barrier's fields are undefined, and stay so when the store lands (R111). -/
def State.spoilBarrier (s : State) (g addr : Nat) : State :=
  let v := BitVec.append (Config.freeValue s.seed) (Config.freeValue (s.seed + 1))
  let wild := fun (a : Acc) => if !a.done && a.onBarrier addr then (match a.act with
    | .nib hi _ => { a with act := .nib hi (v.extractLsb' 0 4) }
    | _ => { a with act := .write v }) else a
  let s : State := { s with
    seed := s.seed + 2
    ops := s.ops.map (fun o => if o.gang != g then o else { o with kind := (match o.kind with
      | .store accs => .store (accs.map wild)
      | k => k) }) }
  s.modGang g (fun y => y.arrPut addr (bytesOfNat 16 v.toNat))

/-- An update of a barrier of a gang by a slot (none: an engine); completion decrements the counter linked to it (R33,
R110). A plain store that races with it leaves the fields free (R111). -/
def State.arrive (s : State) (g a : Nat) (arrived expect : BitVec 32) (who : Option (Nat × Nat)) : State :=
  match s.gang? g with
  | none => s
  | some x =>
    let b := x.barrier a
    let r := arriveVal b arrived expect
    let t := if s.storeRaces g a who then s.spoilBarrier g a else s.modGang g (fun y => y.arrPut a (bytesOfNat 16 r.1.toNat))
    if r.2 && b.getLsbD 127 then t.decHandle x.part x.tenant (b.extractLsb' 96 24).toNat else t

/-- PHASE of a barrier. -/
def Gang.phaseOf (x : Gang) (a : Nat) : Bool := (x.barrier a).getLsbD 64

/-! ### Waits -/

/-- Wakes the waiters of a future with its value (R124). -/
def State.wakeFuture (s : State) (glob : Bool) (addr gangOrAny : Nat) (v : BitVec 64) : State :=
  let mine := fun (w : Waiter) => w.glob == glob && w.addr == addr && (glob || w.gang == gangOrAny)
  let s' := (s.waiters.filter mine).foldl (fun s w => s.modSlot w.gang w.tk w.slot (fun x =>
    { x with wait := x.wait.map (fun y => { y with woken := some v }) })) s
  { s' with waiters := s'.waiters.filter (fun w => !mine w) }

end Sys2Proof.Machine
end

