-- ==== Sys2Proof/Machine/Operands.lean ====
section
/-! DEFINITION. Issuing a word: the slot's context, every source form, every destination form, the tail, and what
an instruction that does not retire does instead. -/

namespace Sys2Proof.Machine

open Sys2Proof

/-! ### The issuing slot -/

/-- What an instruction sees when it issues: its slot, the clock of its granule, its active lanes (R163), and the
tag it allocates. -/
structure Ctx where
  g    : Nat
  t    : Nat
  k    : Nat
  core : Nat
  clk  : Nat
  x    : Gang
  tk   : Tussock
  sl   : Slot
  act  : Mask
  tag  : Nat
  deriving DecidableEq, Repr, Inhabited

/-- The value of a guard in every lane (R163); p7 is true (R61). -/
def Tussock.pred (t : Tussock) (r : BitVec 3) : Mask := if r == 7 then Mask.all else t.p.getD r.toNat 0

/-- The lanes of a slot in which a tail's guard is true (R163). -/
def guardMask (tl : Tail) (t : Tussock) (m : Mask) : Mask :=
  let p := t.pred tl.gp
  (if tl.gn then ~~~p else p) &&& m

/-- The context of the slot that `cur` names; none if there is no such slot on a core. -/
def State.ctx? (s : State) (tl : Tail) : Option Ctx :=
  match s.cur with
  | none => none
  | some q =>
    match s.gang? q.gang with
    | none => none
    | some x =>
      match x.core, x.tks[q.tk]? with
      | some core, some tk =>
        match tk.slots[q.slot]? with
        | some sl =>
          if sl.valid then
            some { g := q.gang, t := q.tk, k := q.slot, core := core, clk := s.clk core, x := x, tk := tk, sl := sl,
                   act := guardMask tl tk sl.mask, tag := tl.sba.toNat }
          else none
        | none => none
      | _, _ => none

/-- What the body of an instruction answers: it retires (with the next PC where it is not the following word, and
whether an operation holds its tag), traps, stalls, enters a long wait, parks, or ends the step itself. -/
inductive Res where
  | next (s : State) (held : Bool)
  | jump (s : State) (held : Bool) (pc : Addr)
  | trap (tr : Trap)
  | stall (s : State) (r : Stall)
  | wait (s : State) (w : WaitCond) (d : LDest) (pc : Addr) (p6 : Option Bool := none)
  | park (s : State) (p : Park)
  | out (o : Out)

/-- A trap in the active lanes. -/
def Ctx.trap (c : Ctx) (code : TrapCode) (addr : Nat := 0) : Res := .trap { code := code, lanes := c.act, addr := addr }

/-- The hints and the tag of an instruction that retires (R47, R64, R163). -/
def State.retireTail (s : State) (g t k core : Nat) (tl : Tail) (held : Bool) : State :=
  let clk := s.clk core
  let s := s.modSlot g t k (fun x => { x with
    lastIssue := some clk, gap := tl.gap.toNat, yld := tl.yld, stall := none, wait := none,
    tags := if tl.sba == 0 then x.tags else x.tags.modify (tl.sba.toNat - 1) (· + 1) })
  if tl.sba != 0 && !held then
    (s.addOp (fun id => { id := id, gang := g, tk := t, slot := k, core := some core, at_ := clk + 1,
                          tag := tl.sba.toNat, tagSlots := [k], kind := .tagOnly })).1
  else s

/-- Retires a slot's instruction: the hints of its tail, its tag, its next PC (R47, R64, R163). -/
def State.retireSlot (s : State) (g t k core : Nat) (tl : Tail) (held : Bool) (pc : Addr) : State :=
  (s.retireTail g t k core tl held).goto g t k pc

/-- Retires the instruction of a context. -/
def Ctx.retire (c : Ctx) (tl : Tail) (s : State) (held : Bool) (pc : Addr) : State :=
  s.retireSlot c.g c.t c.k c.core tl held pc

/-- Whether a wait is that of a word that has issued: one that touches a window issues again, and one that waits for its
team issues with it (R43, R106, R269). -/
def WaitCond.issued : WaitCond → Bool
  | .window _ | .team => false
  | _ => true

/-- A slot whose word of tail `tl` has issued at a clock: the hints that its next selections heed (R47, R48, R162). -/
def Slot.hinted (x : Slot) (clk : Nat) (tl : Tail) : Slot := { x with lastIssue := some clk, gap := tl.gap.toNat, yld := tl.yld }

/-- What a body's answer makes of the state `s0` in which the word was about to issue. -/
def Ctx.finish (c : Ctx) (tl : Tail) (s0 : State) : Res → Out
  | .next s held => .next (c.retire tl s held (c.sl.pc + 8))
  | .jump s held pc => .next (c.retire tl s held pc)
  | .trap tr => .next (s0.takeTrap c.g c.t c.k tr)
  | .stall s r => .next (s.modSlot c.g c.t c.k (fun x => { x with stall := some r }))
  | .wait s w d pc p6 => .next (s.modSlot c.g c.t c.k (fun x =>
      let y := if w.issued then x.hinted c.clk tl else x
      { y with stall := none, wait := some { cond := w, start := s.now, d := d, mask := c.act, next := pc, tl := tl, p6 := p6 } }))
  | .park s p => .next (s.modSlot c.g c.t c.k (fun x => { x with park := some p }))
  | .out o => o

/-- Whether every tag that a tail waits for counts 0 (R47, R64). -/
def waitsMet (tl : Tail) (sl : Slot) : Bool :=
  (List.range 7).all (fun i => !tl.sbw.getLsbD i || sl.tags.getD i 0 == 0)

/-- Issues a word: its tag waits, a full tag (R64), the hold of an acquire for the class of R230 (`cls`), then its
body. -/
def issueIn (cls : Bool) (tl : Tail) (s : State) (body : Ctx → State → Res) : Out :=
  match s.ctx? tl with
  | none => .fault .noIssuingSlot
  | some c =>
    let s0 : State := { s with cur := none }
    if !waitsMet tl c.sl then .next s0
    else if tl.sba != 0 && 15 ≤ c.sl.tags.getD (c.tag - 1) 0 then
      c.finish tl s0 (.stall s0 (.tagFull c.tag))
    else if cls && c.sl.hold.any (fun o => (s.op? o).isSome) then c.finish tl s0 (.stall s0 .held)
    else c.finish tl s0 (body c s0)

/-- Issues a word outside the class of R230. -/
abbrev issue := issueIn false

/-- Issues a word of the class of R230. -/
abbrev issueHeld := issueIn true

/-- Whether the tussock runs at supervisor level (R311). -/
def Ctx.sup (c : Ctx) : Bool := c.tk.sup

/-- The reader of a storage access (R439). -/
def Ctx.reader (c : Ctx) (s : State) : Reader :=
  some (c.x.part, c.x.tenant, ((s.task? c.g).map (·.launch)).getD 0)

/-! ### Constants (R174) -/

/-- The column and format that an inline constant is taken in. -/
inductive CK where
  | int
  | fp (f : Fmt)
  | packed (f : Fmt)
  deriving DecidableEq, Repr, Inhabited

/-- The integer column. -/
def intConst (i : Nat) : BitVec 32 :=
  if i < 17 then BitVec.ofNat 32 i
  else if i < 24 then [32, 64, 128, 255, 256, 0x7FFFFFFF, 0x80000000].getD (i - 17) 0
  else BitVec.ofInt 32 ((i : Int) - 32)

/-- An irrational (or a third) of the FP column: its integer part of 128 more bits, rounded to a format. -/
def fpTrunc (f : Fmt) (m : Nat) : Nat := (roundVal f 0 false false m (-128) true).1

/-- A power of two or a small integer of the FP column. -/
def fpSmall (f : Fmt) (s : Bool) (m : Nat) (e : Int) : Nat := (roundVal f 0 false s m e false).1

/-- The FP column, rounded RNE to a format. -/
def fpConst (f : Fmt) (i : Nat) : Nat :=
  match i with
  | 0 => 0
  | 1 => fpSmall f false 1 0
  | 2 => fpSmall f false 2 0
  | 3 => fpSmall f false 1 (-1)
  | 4 => fpSmall f false 4 0
  | 5 => fpSmall f false 1 (-2)
  | 6 => fpSmall f false 8 0
  | 7 => fpSmall f false 10 0
  | 8 => f.signBit
  | 9 => fpSmall f true 1 0
  | 10 => fpSmall f true 2 0
  | 11 => fpSmall f true 1 (-1)
  | 12 => f.infBits
  | 13 => f.signBit + f.infBits
  | 14 => f.infBits - 1
  | 15 => 2 ^ f.fb
  | 16 => fpTrunc f 1069028584064966747859680373161870783300
  | 17 => fpTrunc f 534514292032483373929840186580935391650
  | 18 => fpTrunc f 2138057168129933495719360746323741566601
  | 19 => fpTrunc f 54157620742477409023451113735280473968
  | 20 => fpTrunc f 235865763225513294137944142764154484399
  | 21 => fpTrunc f 490923683258796565746369346286093237521
  | 22 => fpTrunc f 481231938336009023090067544955250113854
  | 23 => fpTrunc f 240615969168004511545033772477625056927
  | 24 => fpSmall f false 3 0
  | 25 => fpSmall f false 6 0
  | 26 => fpTrunc f 113427455640312821154458202477256070485
  | 27 => fpSmall f false 1 (-3)
  | 28 => fpSmall f false 16 0
  | 29 => fpSmall f false 64 0
  | 30 => fpSmall f false 256 0
  | _ => f.canon

/-- An inline constant at an operand's width, in the low bits. -/
def constVal (ck : CK) (i : BitVec 5) : BitVec 64 :=
  match ck with
  | .int => (intConst i.toNat).signExtend 64
  | .fp f => BitVec.ofNat 64 (fpConst f i.toNat)
  | .packed f => BitVec.ofNat 64 (fpConst f i.toNat + 2 ^ 16 * fpConst f i.toNat)

/-! ### Translation results of an instruction (R398) -/

/-- The order of R398. -/
def Walk.rank : Walk → Nat
  | .pa .. => 9
  | .xlate => 0
  | .prot => 1
  | .first .. => 2
  | .moving _ => 3
  | .absent _ => 4
  | .mchk _ => 5

/-- The trap code of a walk's result; MOVING and ABSENT have one at supervisor level only (R395, R408). -/
def Walk.code : Walk → TrapCode
  | .prot => .prot
  | .first .. => .first
  | .moving _ | .absent _ => .supwalk
  | .mchk _ => .mchk
  | .xlate | .pa .. => .xlate

/-- The first result of R398 among the lanes that failed, each with its lane, result and address. Nothing failed:
none. `kind` is that of R401. At supervisor level the domain aborts under the result's code (R395). An entry that cannot be read is
#MCHK in every lane of the mask (R438). -/
def Ctx.walkFault (c : Ctx) (s : State) (kind : Nat) (fails : List (Nat × Walk × Nat)) : Option Res :=
  let low := fails.foldl (fun (m : Option (Nat × Walk × Nat)) f => match m with
    | some q => if f.2.1.rank < q.2.1.rank then some f else some q
    | none => some f) none
  match low with
  | none => none
  | some q =>
    let lanes := maskOfList ((fails.filter (fun f => f.2.1.rank == q.2.1.rank)).map (·.1))
    let code := q.2.1.code
    match q.2.1 with
    | .moving e => some (if c.sup then .trap { code := code, lanes := lanes, addr := q.2.2 } else .park s (.moving e))
    | .absent lv =>
      if c.sup then some (.trap { code := code, lanes := lanes, addr := q.2.2 })
      else
        let r := s.faultRecord c.x.part (fun id => mkRecord id (BitVec.ofNat 48 q.2.2) c.sl.pc kind lv c.k c.x.tenant c.core
          (c.g % 2 ^ 24) lanes)
        some (.park r.1 (.fault r.2))
    | .mchk pa => some (.out (.next (s.takeTrap c.g c.t c.k { code := .mchk, lanes := c.sl.mask, addr := pa })))
    | _ => some (.trap { code := code, lanes := lanes, addr := q.2.2 })

/-! ### Stream fetches (R281 to R283) -/

/-- The values of the next entry of a stream, read now; or the translation result that stops it (R126, R283). -/
def State.streamEntry (s : State) (core : Nat) (p : Partition) (tenant : Nat) (sup : Bool) (st : Stream)
    (rd : Reader) : State × Except (Walk × Nat) (Lanes 32) :=
  laneNums.foldl (fun (acc : State × Except (Walk × Nat) (Lanes 32)) l =>
    match acc.2 with
    | .error e => (acc.1, .error e)
    | .ok vs =>
      let i := st.next + l
      if st.count ≤ i then (acc.1, .ok (vs ++ [0])) else
      let va := st.ibase.toNat + 4 * i
      match acc.1.translate core p tenant va .read sup rd with
      | (s', .pa a ..) =>
        let e := s'.eccGlobal p a 4 rd
        let da := st.dbase.toNat + (e.s.mem.read a 4 ^^^ e.flip.toNat) * 2 ^ st.elog
        if e.lasting then (e.s, .error (.mchk (e.bad.getD 0), va)) else
        (match e.s.translate core p tenant da .read sup rd with
        | (s'', .pa b ..) =>
          let n := 2 ^ st.elog
          let q := s''.eccGlobal p b n rd
          if q.lasting then (q.s, .error (.mchk (q.bad.getD 0), da)) else
          let s'' := q.s
          let v := s''.mem.read b n ^^^ q.flip.toNat
          let v := if st.sx && decide (2 ^ (8 * n - 1) ≤ v) then v + 2 ^ 32 - 2 ^ (8 * n) else v
          (s'', .ok (vs ++ [BitVec.ofNat 32 v]))
        | (s'', w) => (s'', .error (w, da)))
      | (s', w) => (s', .error (w, va))) (s, .ok [])

/-! ### Pops (R125, R126, R175) -/

/-- An entry popped by an instruction: from a w queue or a FIFO, its number, values and success. -/
structure Popped where
  w    : Bool
  q    : Nat
  vals : Lanes 32
  ok   : Bool
  deriving DecidableEq, Repr, Inhabited

/-- Pops a gang queue (R125). -/
def Ctx.popW (c : Ctx) (s : State) (k : Nat) (blocking : Bool) : Except Res (State × Popped) :=
  match s.gang? c.g with
  | none => .error (.out (.fault .noIssuingSlot))
  | some x =>
    match (x.wqs[k]?).join with
    | none => .error (c.trap .qerr)
    | some q =>
      if q.visible.contains q.head then
        let a := q.base + 128 * (q.head % q.entries)
        let e := s.eccSpan 1 c.core (x.spBase + a) 128 x.part (c.reader s)
        let bits := x.sp.read a 128 ^^^ e.2.2
        let vals := laneNums.map (fun l => BitVec.ofNat 32 (bits / 2 ^ (32 * l)))
        let q' := { q with head := q.head + 1, visible := q.visible.filter (fun e => e != q.head) }
        if e.2.1.isSome then .error (.out (.next (e.1.takeTrap c.g c.t c.k { code := .mchk, lanes := c.sl.mask })))
        else .ok (e.1.modGang c.g (fun y => { y with wqs := y.wqs.set k (some q') }), { w := true, q := k, vals := vals, ok := true })
      else if blocking then .error (.stall s (.popEmpty k))
      else .ok (s, { w := true, q := k, vals := splat 0, ok := false })

/-- Pops a stream FIFO (R126, R283). -/
def Ctx.popF (c : Ctx) (s : State) (k : Nat) (blocking : Bool) : Except Res (State × Popped) :=
  match (s.tk? c.g c.t).bind (fun y => y.s[k]?), s.part? c.x.part with
  | some st, some p =>
    if !st.bound then .error (c.trap .qerr) else
    match st.fifo with
    | v :: rest =>
      let st' := { st with fifo := rest, cursor := max st.cursor (min (st.cursor + 32) st.count) }
      .ok (s.modTk c.g c.t (fun y => { y with s := y.s.set k st' }), { w := false, q := k, vals := v, ok := true })
    | [] =>
      if st.count ≤ st.next then
        (if blocking then .error (c.trap .qerr) else .ok (s, { w := false, q := k, vals := splat 0, ok := false }))
      else
        let retry := fun (s : State) => s.modTk c.g c.t (fun y => { y with s := y.s.set k { st with faulted := false } })
        let fault : Option Res := if !st.faulted then none else
          match s.streamEntry c.core p c.x.tenant c.sup st (c.reader s) with
          | (s', .error (w, va)) => c.walkFault (retry s') 0 ((lanesOf c.act).map (fun l => (l, w, va)))
          | (_, .ok _) => none
        match fault with
        | some r => .error r
        | none =>
          if blocking then .error (.stall (if st.faulted then retry s else s) (.fifoEmpty k))
          else .ok (s, { w := false, q := k, vals := splat 0, ok := false })
  | _, _ => .error (.out (.fault .noIssuingSlot))

/-- Which queue a source pops: w queue or FIFO, number, blocking. -/
def srcPop : Src → Option (Bool × Nat × Bool)
  | .fifo k nb => some (false, k.toNat, !nb)
  | .wq k nb => some (true, k.toNat, !nb)
  | _ => none

/-- Pops every queue that the sources name, each once (R175). Where one stops the word, none is popped. The status of
several is success where all of them succeed (DESIGN CHOICE, log 17). -/
def Ctx.pops (c : Ctx) (s0 : State) (srcs : List Src) : Except Res (State × List Popped × Option Bool) :=
  srcs.foldl (fun acc src =>
    match acc, srcPop src with
    | .ok (s, ps, p6), some (w, k, blocking) =>
      let note := fun (p6 : Option Bool) (ok : Bool) => if blocking then p6 else some (ok && p6.getD true)
      (match ps.find? (fun p => p.w == w && p.q == k) with
      | some p => .ok (s, ps, note p6 p.ok)
      | none =>
        if c.act == 0 then .ok (s, ps ++ [{ w := w, q := k, vals := splat 0, ok := true }], p6)
        else match (if w then c.popW s k blocking else c.popF s k blocking) with
          | .ok (s, p) => .ok (s, ps ++ [p], note p6 p.ok)
          | .error r => .error (match (if w then c.popW s0 k blocking else c.popF s0 k blocking) with
            | .error r0 => r0
            | .ok _ => r))
    | acc, _ => acc) (.ok (s0, [], none))

/-! ### Source values (R52, R172, R173) -/

/-- An n register. -/
def Tussock.nreg (t : Tussock) (r : Nat) : Lanes 32 := t.n.getD r (splat 0)

/-- The queue entry of age a: that of the push P − a (R53, R54). -/
def Slot.aged (sl : Slot) (a : Nat) : Lanes 64 := sl.queue.getD ((sl.pushes + 31 - a) % 16) (splat 0)

/-- A g register. -/
def Tussock.greg (t : Tussock) (r : Nat) : BitVec 64 := t.g.getD r 0

/-- A special at issue (R173). -/
def Ctx.special (c : Ctx) (now : Nat) (w64 : Bool) : Special → Lanes 64
  | .lane => laneNums.map (fun l => BitVec.ofNat 64 l)
  | .tk => splat (BitVec.ofNat 64 c.t)
  | .gang => splat ((handleOf c.g).extractLsb' 0 32 |>.setWidth 64)
  | .octant => splat (BitVec.ofNat 64 c.tk.oct)
  | .core => splat (BitVec.ofNat 64 c.core)
  | .grove => splat (BitVec.ofNat 64 (groveOf c.core))
  | .clk => splat (if w64 then BitVec.ofNat 64 now else BitVec.ofNat 64 (now % 2 ^ 32))
  | .clkh => splat (BitVec.ofNat 64 (now / 2 ^ 32 % 2 ^ 32))
  | .slot => splat (BitVec.ofNat 64 c.k)
  | .mask => splat (c.sl.mask.setWidth 64)

/-- The low 32 bits of a value, in place. -/
def low32 (v : BitVec 64) : BitVec 64 := (v.extractLsb' 0 32).setWidth 64

/-- The value of a source in every lane at issue: 64 bits, or 32 bits zero-extended. -/
def Ctx.value (c : Ctx) (now : Nat) (ps : List Popped) (ck : CK) (w64 : Bool) : Src → Lanes 64
  | .q a => if w64 then c.sl.aged a.toNat else (c.sl.aged a.toNat).map low32
  | .n r _ =>
    let lo := c.tk.nreg r.toNat
    if w64 then laneNums.map (fun l => (c.tk.nreg (r.toNat + 1)).at_ l ++ lo.at_ l)
    else laneNums.map (fun l => (lo.at_ l).setWidth 64)
  | .g r hi =>
    let v := c.tk.greg r.toNat
    splat (if w64 then v else if hi then v >>> 32 else low32 v)
  | .const i => splat (if w64 then constVal ck i else low32 (constVal ck i))
  | .fifo k _ => ((ps.find? (fun p => !p.w && p.q == k.toNat)).map (fun p => p.vals.map (·.setWidth 64))).getD (splat 0)
  | .wq k _ => ((ps.find? (fun p => p.w && p.q == k.toNat)).map (fun p => p.vals.map (·.setWidth 64))).getD (splat 0)
  | .special x => c.special now w64 x

/-- A 128-bit operand n4k in every lane (R169). -/
def Ctx.value128 (c : Ctx) : Src → Lanes 128
  | .n r _ => laneNums.map (fun l => (c.tk.nreg (r.toNat + 3)).at_ l ++ (c.tk.nreg (r.toNat + 2)).at_ l ++
      (c.tk.nreg (r.toNat + 1)).at_ l ++ (c.tk.nreg r.toNat).at_ l)
  | _ => splat 0

/-- The value of a "u" operand (R226). -/
def Tussock.uval (t : Tussock) : USrc → BitVec 64
  | .g r hi => if hi then t.greg r.toNat >>> 32 else t.greg r.toNat
  | .const i => constVal .int i

/-- The n registers that a source with its last-read mark frees, at a width in registers (R58). -/
def srcMarked (words : Nat) : Src → List Nat
  | .n r true => (List.range words).map (fun k => r.toNat + k)
  | _ => []

/-- Frees n registers: home none, value undefined (R58, R7). -/
def State.freeN (s : State) (g t : Nat) (rs : List Nat) : State :=
  rs.foldl (fun s r =>
    let f := s.freeLanes
    f.2.modTk g t (fun y => { y with n := y.n.set r f.1, home := y.home.set r none })) s

/-- Applies the last-read marks; ignored while both slots are valid (R58). -/
def Ctx.applyMarks (c : Ctx) (s : State) (rs : List Nat) : State :=
  if rs.isEmpty || c.tk.slots.all (·.valid) then s else s.freeN c.g c.t rs

/-- The active position of a tussock's octant as an offset in the core's fast file: register r, lane l. -/
def Ctx.fastAddr (c : Ctx) (r l : Nat) : Nat := c.tk.oct * 16384 + c.tk.active.getD 0 * 4096 + r * 128 + 4 * l

/-- The trap of a lasting error in the tussock's own context, which is never delivered (R412). -/
def Ctx.lostOwn (c : Ctx) (s : State) : Res :=
  .out (.next (s.takeTrap c.g c.t c.k { code := .mchk, lanes := c.sl.mask, fatal := true }))

/-- Reads n registers of the active lanes through the fast file's parity (R435): the state after, whether a lasting
error was met, and a context whose registers carry the bits that no check sees. -/
def Ctx.fastRead (c : Ctx) (s : State) (rs : List Nat) : State × Bool × Ctx :=
  if s.dev.injs.all (fun i => i.array != 3 || i.home != c.core) then (s, false, c)
  else rs.foldl (fun a r => (lanesOf c.act).foldl (fun (a : State × Bool × Ctx) l =>
    let e := a.1.eccRead 3 c.core (c.fastAddr r l) 4 c.x.part (c.reader s)
    let c' := if e.flip == 0 then a.2.2 else { a.2.2 with tk := { a.2.2.tk with n := a.2.2.tk.n.modify r (fun v =>
      v.modify l (fun w => w ^^^ e.flip.extractLsb' 0 32)) } }
    (e.s, a.2.1 || e.lasting, c')) a) (s, false, c)

/-- The n registers that a source reads at a width in registers. -/
def srcRegs (words : Nat) : Src → List Nat
  | .n r _ => (List.range words).map (fun k => r.toNat + k)
  | _ => []

/-- What reading the sources of an instruction gives: the state after the pops and the marks, the values, the
128-bit values, and the status of the non-blocking pops (R61). -/
structure Read where
  s    : State
  v    : List (Lanes 64)
  wide : List (Lanes 128)
  p6   : Option Bool

/-- A source with its constant column and its width in registers: 1, 2 or 4. -/
abbrev Want := Src × CK × Nat

/-- Reads the sources of an instruction: pops, values, last-read marks. -/
def Ctx.read (c : Ctx) (s : State) (ws : List Want) : Except Res Read :=
  let f := c.fastRead s (ws.flatMap (fun w => srcRegs w.2.2 w.1))
  if f.2.1 then .error (c.lostOwn f.1)
  else
    let c := f.2.2
    match c.pops f.1 (ws.map (·.1)) with
    | .error r => .error r
    | .ok (s, ps, p6) =>
      .ok { s := c.applyMarks s (ws.flatMap (fun w => srcMarked w.2.2 w.1))
            v := ws.map (fun w => c.value s.now ps w.2.1 (w.2.2 != 1) w.1)
            wide := ws.map (fun w => c.value128 w.1)
            p6 := p6 }

/-- Reads the sources, lets `check` judge their values on the state as it stands before any pop, and goes on with
what it answers; a word that does not retire has popped nothing and freed nothing (R56, R227). With no active lane
nothing is checked or done (R163). -/
def Ctx.checked {α : Type} (c : Ctx) (s : State) (ws : List Want) (check : Read → State → Except Res (State × α))
    (body : Read → State → α → Res) : Res :=
  match c.read s ws with
  | .error r => r
  | .ok rd =>
    if c.act == 0 then .next rd.s false
    else match check rd s with
    | .error r => r
    | .ok (s, a) =>
      match c.read s ws with
      | .error r => r
      | .ok rd => body rd rd.s a

/-- A stall leaves the state as it stood before the word. -/
def Res.backTo (s : State) : Res → Res
  | .stall _ r => .stall s r
  | r => r

/-! ### Fixed-latency results (R53, R60, R61, R69, R125) -/

/-- The predicates that a status writes (R61). -/
def statusPreds (p6 : Option Bool) (act : Mask) : List (Nat × Mask) :=
  match p6 with
  | some b => [(6, if b then act else 0)]
  | none => []

/-- Claims the next push of the slot: the entry, and the state with the push count raised (R53). -/
def Ctx.claim (c : Ctx) (s : State) : Nat × State :=
  (c.sl.pushes % 16, s.modSlot c.g c.t c.k (fun x => { x with pushes := x.pushes + 1 }))

/-- Reserves an entry of a gang queue (R125): the queue entry, or none where a non-blocking push finds it full. -/
def Ctx.reserve (c : Ctx) (s : State) (k : Nat) (nb : Bool) : Except Res (State × Option (Nat × Nat)) :=
  match ((s.gang? c.g).bind (fun x => x.wqs[k]?)).join with
  | none => .error (c.trap .qerr)
  | some q =>
    if q.tail - q.head < q.entries then
      .ok (s.modGang c.g (fun y => { y with wqs := y.wqs.set k (some { q with tail := q.tail + 1 }) }), some (k, q.tail))
    else if nb then .ok (s, none) else .error (.stall s (.pushFull k))

/-- A result that lands after its latency. -/
def Ctx.addResult (c : Ctx) (s : State) (lat : Nat) (r : Result) : State :=
  (s.addOp (fun id => { id := id, gang := c.g, tk := c.t, slot := c.k, core := some c.core, at_ := c.clk + lat,
                        tag := c.tag, tagSlots := [c.k], mask := c.act, kind := .result r })).1

/-- Delivers a lane result to a destination after its latency. `words` is 2 for a 64-bit result. -/
def Ctx.deliver (c : Ctx) (s : State) (lat : Nat) (d : Dst) (words : Nat) (vals : Lanes 64) (flags : Lanes 5)
    (p6 : Option Bool) : Res :=
  let pushes := match d with
    | .push | .n _ => true
    | _ => false
  let cl := if pushes then c.claim s else (0, s)
  if c.act == 0 then .next cl.2 false
  else
    let base : Result := { mask := c.act, vals := vals, flags := flags, preds := statusPreds p6 c.act, inHandler := c.sup }
    match d with
    | .push => .next (c.addResult cl.2 lat { base with entry := some cl.1, qslots := [c.k] }) true
    | .discard => .next (c.addResult s lat base) true
    | .n r => .next (c.addResult cl.2 lat { base with entry := some cl.1, qslots := [c.k], nreg := some (r.toNat, words) }) true
    | .g r hi => .next (c.addResult s lat { base with greg := some (r.toNat, hi) }) true
    | .p r =>
      let ps := (if r == 6 then [] else statusPreds p6 c.act) ++ [(r.toNat, maskOf (fun l => (vals.at_ l).getLsbD 0))]
      .next (c.addResult s lat { base with preds := ps }) true
    | .wq k nb =>
      match c.reserve s k.toNat nb with
      | .error r => r
      | .ok (s, some e) =>
        let ps := if nb then statusPreds (some (p6.getD true)) c.act else base.preds
        .next (c.addResult s lat { base with wpush := some e, preds := ps }) true
      | .ok (s, none) => .next (c.addResult s lat { base with preds := statusPreds (some false) c.act }) true

/-- A lane instruction of fixed latency: reads its sources, computes each lane's value and flags, delivers (R187, R209). -/
def laneOp (tl : Tail) (s : State) (lat : Nat) (d : Dst) (words : Nat) (ws : List Want)
    (f : Ctx → List (Lanes 64) → Nat → BitVec 64 × BitVec 5) : Out :=
  issue tl s (fun c s =>
    match c.read s ws with
    | .error r => r
    | .ok rd =>
      let rs := laneNums.map (f c rd.v)
      (c.deliver rd.s lat d words (rs.map (·.1)) (rs.map (·.2)) rd.p6).backTo s)

/-- A uniform operation: once, on 64-bit values (R177). -/
def uniformOp (tl : Tail) (s : State) (d : Dst) (xs : List Src) (f : List (BitVec 64) → BitVec 64) : Out :=
  issue tl s (fun c s =>
    match c.read s (xs.map (fun x => (x, .int, 2))) with
    | .error r => r
    | .ok rd => c.deliver rd.s 2 d 2 (splat (f (rd.v.map (fun v => v.at_ 0)))) noFlags rd.p6)

/-- A lane's value of the n-th source. -/
def arg (v : List (Lanes 64)) (n l : Nat) : BitVec 64 := (v.getD n (splat 0)).at_ l

/-- The low 32 bits of a lane's value of the n-th source. -/
def arg32 (v : List (Lanes 64)) (n l : Nat) : BitVec 32 := (arg v n l).extractLsb' 0 32

/-! ### Landing (R53, R59, R60, R198) -/

/-- Writes lanes of an n register: in the fast file, or at the register's home while the tussock is parked (R59);
ended lanes take nothing (R196). A STAGE in flight on the register then leaves it undefined (R198). -/
def State.writeN (s : State) (g t r : Nat) (mask : Mask) (vals : Lanes 32) : State :=
  match s.tk? g t with
  | none => s
  | some y =>
    let m := mask &&& ~~~y.dead
    let s := if y.parked then
        (match y.home.getD r none with
        | some h => s.modTk g t (fun z => { z with m := z.m.modify h (fun old => blend m vals old) })
        | none => s)
      else s.modTk g t (fun z => { z with n := z.n.modify r (fun old => blend m vals old) })
    let staged := fun (o : Op) => o.gang == g && o.tk == t && (match o.kind with
      | .stage regs => regs.any (fun e => e.1 == r)
      | _ => false)
    if s.ops.any staged then
      let f := s.freeLanes
      { f.2 with ops := f.2.ops.map (fun o => if staged o then { o with kind := (match o.kind with
          | .stage regs => .stage (regs.map (fun e => if e.1 == r then (r, e.2.1, f.1) else e))
          | k => k) } else o) }
    else s

/-- Writes `words` consecutive n registers from lane values, lowest bits first. -/
def State.writeNs (s : State) (g t r words : Nat) (mask : Mask) (vals : Lanes 128) : State :=
  (List.range words).foldl (fun s k => s.writeN g t (r + k) mask (vals.map (fun v => v.extractLsb' (32 * k) 32))) s

/-- Writes a g register. -/
def State.writeG (s : State) (g t r : Nat) (v : BitVec 64) : State :=
  s.modTk g t (fun y => { y with g := y.g.set r v })

/-- Writes lanes of a predicate; p7 discards (R61). -/
def State.writeP (s : State) (g t r : Nat) (mask vals : Mask) : State :=
  if r == 7 then s else s.modTk g t (fun y => { y with p := y.p.modify r (fun old => (old &&& ~~~mask) ||| (vals &&& mask)) })

/-- Writes lanes of a queue entry of a slot. -/
def State.writeQ (s : State) (g t k e : Nat) (mask : Mask) (vals : Lanes 64) : State :=
  s.modSlot g t k (fun x => { x with queue := x.queue.modify e (fun old => blend mask vals old) })

/-- Lets an operation's tag fall and removes it (R64); after the last store of an ended gang its scratchpad is released. -/
def State.finishOp (s : State) (o : Op) : State :=
  let s := if o.tag == 0 then s else o.tagSlots.foldl (fun s k => s.modSlot o.gang o.tk k (fun x =>
    { x with tags := x.tags.modify (o.tag - 1) (fun n => if n == 0 then 0 else n - 1) })) s
  let s := s.modTk o.gang o.tk (fun y => { y with slots := y.slots.map (fun k => { k with hold := k.hold.filter (fun h => h != o.id) }) })
  let s := s.dropOp o.id
  if o.unwritten then s.releaseGang o.gang else s

/-- Writes p6 as the status of an operation that completes, in its lanes (R61). -/
def State.statusOf (s : State) (o : Op) : State :=
  match o.p6 with
  | some b => s.writeP o.gang o.tk 6 o.mask (if b then o.mask else 0)
  | none => s

/-- A value of a long-latency operation arrives at its destination (R226). -/
def State.landLong (s : State) (o : Op) (d : LDest) (vals : Lanes 128) : State :=
  match d with
  | .none => s
  | .n r words => s.writeNs o.gang o.tk r words o.mask vals
  | .g r => s.writeG o.gang o.tk r ((vals.at_ (lowLane o.mask)).extractLsb' 0 64)

/-- A long-latency destination of a width in registers. -/
def ldest (d : Dst) (words : Nat) : LDest :=
  match d with
  | .n r => .n r.toNat words
  | .g r _ => .g r.toNat
  | _ => .none

/-- A long-latency operation of a slot. -/
def Ctx.longOp (c : Ctx) (s : State) (lat : Nat) (kind : OpKind) (p6 : Option Bool := none) : State :=
  (s.addOp (fun id => { id := id, gang := c.g, tk := c.t, slot := c.k, core := some c.core, at_ := c.clk + lat,
                        tag := c.tag, tagSlots := [c.k], mask := c.act, p6 := p6, kind := kind })).1

end Sys2Proof.Machine
end

