-- ==== Sys2Proof/Machine/Fp.lean ====
section
/-! DEFINITION. Vector floating point: FP32, packed FP16 and BF16, FP64 (R209 to R216), and the sticky flags
(R224, R225). -/

namespace Sys2Proof.Machine

open Sys2Proof

/-- An element type of a vector opcode: its format and whether two elements share a word (R74). -/
structure Elem where
  f      : Fmt
  packed : Bool
  deriving DecidableEq, Repr, Inhabited

/-- .f32 -/
def eF32 : Elem := ⟨f32, false⟩
/-- .f16x2 -/
def eF16 : Elem := ⟨f16, true⟩
/-- .bf16x2 -/
def eBF16 : Elem := ⟨bf16, true⟩

/-- The constant column of an element type (R174). -/
def Elem.ck (e : Elem) : CK := if e.packed then .packed e.f else .fp e.f

/-- Computes each element of a lane from the elements of its operands; the flags are the union (R74, R209). -/
def Elem.map (e : Elem) (xs : List (BitVec 64)) (f : List Nat → Nat × BitVec 5) : BitVec 64 × BitVec 5 :=
  if e.packed then
    let lo := f (xs.map (fun x => x.toNat % 2 ^ 16))
    let hi := f (xs.map (fun x => x.toNat / 2 ^ 16 % 2 ^ 16))
    (BitVec.ofNat 64 (lo.1 + 2 ^ 16 * hi.1), lo.2 ||| hi.2)
  else
    let r := f (xs.map (fun x => x.toNat % 2 ^ 32))
    (BitVec.ofNat 64 r.1, r.2)

/-- The operands of a lane. -/
def argsAt (v : List (Lanes 64)) (l : Nat) : List (BitVec 64) := v.map (fun x => x.at_ l)

/-- A vector opcode of an element type and latency. -/
def fpOp (e : Elem) (lat : Nat) (t : Tail) (s : State) (d : Dst) (srcs : List Src) (f : Bool → Ctx → List Nat → Nat × BitVec 5) : Out :=
  laneOp t s lat d 1 (srcs.map (fun x => (x, e.ck, 1))) (fun c v l => e.map (argsAt v l) (f c.tk.ftz c))

/-- The rounding mode of a word: its own, or FPCTL.RM as it stands at issue (R211). -/
def Ctx.mode (c : Ctx) (rm : BitVec 2) (dyn : Bool) : BitVec 2 := if dyn then c.tk.dynRm else rm

/-- A value of a code through FlushIn (R71). -/
def operand (f : Fmt) (ftz : Bool) (x : Nat) : FVal := flushIn ftz f (decF f x)

/-- FADD, FSUB, FMUL of two codes by number 0, 1, 2 (R212). -/
def arith2 (f : Fmt) (ftz : Bool) (rm : BitVec 2) (op : Nat) (x y : Nat) : Nat × BitVec 5 :=
  let a := operand f ftz x
  let b := operand f ftz y
  deliver f rm ftz (match op with
    | 0 => fAdd rm a b
    | 1 => fSub rm a b
    | _ => fMul a b)

/-- FFMA of three codes (R212). -/
def arith3 (f : Fmt) (ftz : Bool) (rm : BitVec 2) (x y z : Nat) : Nat × BitVec 5 :=
  deliver f rm ftz (fFma rm (operand f ftz x) (operand f ftz y) (operand f ftz z))

/-- The n-th code. -/
def nth (xs : List Nat) (n : Nat) : Nat := xs.getD n 0

/-- FADD, FSUB or FMUL of an element type. -/
def fp2 (e : Elem) (op : Nat) (t : Tail) (rm : BitVec 2) (dyn : Bool) (d : Dst) (a b : Src) (s : State) : Out :=
  fpOp e 4 t s d [a, b] (fun ftz c xs => arith2 e.f ftz (c.mode rm dyn) op (nth xs 0) (nth xs 1))

/-- FFMA of an element type. -/
def fp3 (e : Elem) (t : Tail) (rm : BitVec 2) (d : Dst) (a b c : Src) (s : State) : Out :=
  fpOp e 4 t s d [a, b, c] (fun ftz _ xs => arith3 e.f ftz rm (nth xs 0) (nth xs 1) (nth xs 2))

/-- FMIN or FMAX of an element type (R213). -/
def fpMinMax (e : Elem) (isMax : Bool) (t : Tail) (d : Dst) (a b : Src) (s : State) : Out :=
  fpOp e 4 t s d [a, b] (fun ftz _ xs => fMinMax e.f ftz isMax (nth xs 0) (nth xs 1))

/-- A function opcode of an element type, by the number of R214. -/
def fpFn (e : Elem) (fn : Nat) (t : Tail) (rm : BitVec 2) (d : Dst) (a : Src) (s : State) : Out :=
  fpOp e 12 t s d [a] (fun ftz _ xs => fFunc e.f rm ftz fn (nth xs 0))

/-- FCLASS of an element type (R215). -/
def fpClass (e : Elem) (t : Tail) (d : Dst) (a : Src) (s : State) : Out :=
  fpOp e 4 t s d [a] (fun _ _ xs => (fClass e.f (nth xs 0), 0))

/-- FADD.f32 (R212). -/
def execFaddF32 (t : Tail) (rm : BitVec 2) (dyn : Bool) (d : Dst) (a b : Src) (s : State) : Out := fp2 eF32 0 t rm dyn d a b s
/-- FSUB.f32 (R212). -/
def execFsubF32 (t : Tail) (rm : BitVec 2) (dyn : Bool) (d : Dst) (a b : Src) (s : State) : Out := fp2 eF32 1 t rm dyn d a b s
/-- FMUL.f32 (R212). -/
def execFmulF32 (t : Tail) (rm : BitVec 2) (dyn : Bool) (d : Dst) (a b : Src) (s : State) : Out := fp2 eF32 2 t rm dyn d a b s
/-- FFMA.f32 (R212). -/
def execFfmaF32 (t : Tail) (rm : BitVec 2) (d : Dst) (a b c : Src) (s : State) : Out := fp3 eF32 t rm d a b c s
/-- FMIN.f32 (R213). -/
def execFminF32 (t : Tail) (d : Dst) (a b : Src) (s : State) : Out := fpMinMax eF32 false t d a b s
/-- FMAX.f32 (R213). -/
def execFmaxF32 (t : Tail) (d : Dst) (a b : Src) (s : State) : Out := fpMinMax eF32 true t d a b s
/-- FRCP.f32 (R214). -/
def execFrcpF32 (t : Tail) (rm : BitVec 2) (d : Dst) (a : Src) (s : State) : Out := fpFn eF32 0 t rm d a s
/-- FRSQ.f32 (R214). -/
def execFrsqF32 (t : Tail) (rm : BitVec 2) (d : Dst) (a : Src) (s : State) : Out := fpFn eF32 1 t rm d a s
/-- FSQRT.f32 (R214). -/
def execFsqrtF32 (t : Tail) (rm : BitVec 2) (d : Dst) (a : Src) (s : State) : Out := fpFn eF32 2 t rm d a s
/-- FEXP2.f32 (R214). -/
def execFexp2F32 (t : Tail) (rm : BitVec 2) (d : Dst) (a : Src) (s : State) : Out := fpFn eF32 3 t rm d a s
/-- FLOG2.f32 (R214). -/
def execFlog2F32 (t : Tail) (rm : BitVec 2) (d : Dst) (a : Src) (s : State) : Out := fpFn eF32 4 t rm d a s
/-- FSIN.f32 (R214). -/
def execFsinF32 (t : Tail) (rm : BitVec 2) (d : Dst) (a : Src) (s : State) : Out := fpFn eF32 5 t rm d a s
/-- FCOS.f32 (R214). -/
def execFcosF32 (t : Tail) (rm : BitVec 2) (d : Dst) (a : Src) (s : State) : Out := fpFn eF32 6 t rm d a s
/-- FCLASS.f32 (R215). -/
def execFclassF32 (t : Tail) (d : Dst) (a : Src) (s : State) : Out := fpClass eF32 t d a s
/-- FADD.f16x2 (R212). -/
def execFaddF16X2 (t : Tail) (rm : BitVec 2) (dyn : Bool) (d : Dst) (a b : Src) (s : State) : Out := fp2 eF16 0 t rm dyn d a b s
/-- FSUB.f16x2 (R212). -/
def execFsubF16X2 (t : Tail) (rm : BitVec 2) (dyn : Bool) (d : Dst) (a b : Src) (s : State) : Out := fp2 eF16 1 t rm dyn d a b s
/-- FMUL.f16x2 (R212). -/
def execFmulF16X2 (t : Tail) (rm : BitVec 2) (dyn : Bool) (d : Dst) (a b : Src) (s : State) : Out := fp2 eF16 2 t rm dyn d a b s
/-- FFMA.f16x2 (R212). -/
def execFfmaF16X2 (t : Tail) (rm : BitVec 2) (d : Dst) (a b c : Src) (s : State) : Out := fp3 eF16 t rm d a b c s
/-- FMIN.f16x2 (R213). -/
def execFminF16X2 (t : Tail) (d : Dst) (a b : Src) (s : State) : Out := fpMinMax eF16 false t d a b s
/-- FMAX.f16x2 (R213). -/
def execFmaxF16X2 (t : Tail) (d : Dst) (a b : Src) (s : State) : Out := fpMinMax eF16 true t d a b s
/-- FRCP.f16x2 (R214). -/
def execFrcpF16X2 (t : Tail) (rm : BitVec 2) (d : Dst) (a : Src) (s : State) : Out := fpFn eF16 0 t rm d a s
/-- FRSQ.f16x2 (R214). -/
def execFrsqF16X2 (t : Tail) (rm : BitVec 2) (d : Dst) (a : Src) (s : State) : Out := fpFn eF16 1 t rm d a s
/-- FSQRT.f16x2 (R214). -/
def execFsqrtF16X2 (t : Tail) (rm : BitVec 2) (d : Dst) (a : Src) (s : State) : Out := fpFn eF16 2 t rm d a s
/-- FEXP2.f16x2 (R214). -/
def execFexp2F16X2 (t : Tail) (rm : BitVec 2) (d : Dst) (a : Src) (s : State) : Out := fpFn eF16 3 t rm d a s
/-- FLOG2.f16x2 (R214). -/
def execFlog2F16X2 (t : Tail) (rm : BitVec 2) (d : Dst) (a : Src) (s : State) : Out := fpFn eF16 4 t rm d a s
/-- FSIN.f16x2 (R214). -/
def execFsinF16X2 (t : Tail) (rm : BitVec 2) (d : Dst) (a : Src) (s : State) : Out := fpFn eF16 5 t rm d a s
/-- FCOS.f16x2 (R214). -/
def execFcosF16X2 (t : Tail) (rm : BitVec 2) (d : Dst) (a : Src) (s : State) : Out := fpFn eF16 6 t rm d a s
/-- FCLASS.f16x2 (R215). -/
def execFclassF16X2 (t : Tail) (d : Dst) (a : Src) (s : State) : Out := fpClass eF16 t d a s
/-- FADD.bf16x2 (R212). -/
def execFaddBF16X2 (t : Tail) (rm : BitVec 2) (dyn : Bool) (d : Dst) (a b : Src) (s : State) : Out := fp2 eBF16 0 t rm dyn d a b s
/-- FSUB.bf16x2 (R212). -/
def execFsubBF16X2 (t : Tail) (rm : BitVec 2) (dyn : Bool) (d : Dst) (a b : Src) (s : State) : Out := fp2 eBF16 1 t rm dyn d a b s
/-- FMUL.bf16x2 (R212). -/
def execFmulBF16X2 (t : Tail) (rm : BitVec 2) (dyn : Bool) (d : Dst) (a b : Src) (s : State) : Out := fp2 eBF16 2 t rm dyn d a b s
/-- FFMA.bf16x2 (R212). -/
def execFfmaBF16X2 (t : Tail) (rm : BitVec 2) (d : Dst) (a b c : Src) (s : State) : Out := fp3 eBF16 t rm d a b c s
/-- FMIN.bf16x2 (R213). -/
def execFminBF16X2 (t : Tail) (d : Dst) (a b : Src) (s : State) : Out := fpMinMax eBF16 false t d a b s
/-- FMAX.bf16x2 (R213). -/
def execFmaxBF16X2 (t : Tail) (d : Dst) (a b : Src) (s : State) : Out := fpMinMax eBF16 true t d a b s
/-- FRCP.bf16x2 (R214). -/
def execFrcpBF16X2 (t : Tail) (rm : BitVec 2) (d : Dst) (a : Src) (s : State) : Out := fpFn eBF16 0 t rm d a s
/-- FRSQ.bf16x2 (R214). -/
def execFrsqBF16X2 (t : Tail) (rm : BitVec 2) (d : Dst) (a : Src) (s : State) : Out := fpFn eBF16 1 t rm d a s
/-- FSQRT.bf16x2 (R214). -/
def execFsqrtBF16X2 (t : Tail) (rm : BitVec 2) (d : Dst) (a : Src) (s : State) : Out := fpFn eBF16 2 t rm d a s
/-- FEXP2.bf16x2 (R214). -/
def execFexp2BF16X2 (t : Tail) (rm : BitVec 2) (d : Dst) (a : Src) (s : State) : Out := fpFn eBF16 3 t rm d a s
/-- FLOG2.bf16x2 (R214). -/
def execFlog2BF16X2 (t : Tail) (rm : BitVec 2) (d : Dst) (a : Src) (s : State) : Out := fpFn eBF16 4 t rm d a s
/-- FSIN.bf16x2 (R214). -/
def execFsinBF16X2 (t : Tail) (rm : BitVec 2) (d : Dst) (a : Src) (s : State) : Out := fpFn eBF16 5 t rm d a s
/-- FCOS.bf16x2 (R214). -/
def execFcosBF16X2 (t : Tail) (rm : BitVec 2) (d : Dst) (a : Src) (s : State) : Out := fpFn eBF16 6 t rm d a s
/-- FCLASS.bf16x2 (R215). -/
def execFclassBF16X2 (t : Tail) (d : Dst) (a : Src) (s : State) : Out := fpClass eBF16 t d a s

/-! ### FP64 (R216) -/

/-- An FP64 operation on 64-bit operands, latency 8. -/
def dpOp (t : Tail) (s : State) (d : Dst) (srcs : List Src) (f : Ctx → List Nat → Nat × BitVec 5) : Out :=
  laneOp t s 8 d 2 (srcs.map (fun x => (x, .fp f64, 2))) (fun c v l =>
    let r := f c ((argsAt v l).map BitVec.toNat)
    (BitVec.ofNat 64 r.1, r.2))

/-- DADD (R216). -/
def execDadd (t : Tail) (rm : BitVec 2) (dyn : Bool) (d : Dst) (a b : Src) (s : State) : Out :=
  dpOp t s d [a, b] (fun c xs => arith2 f64 false (c.mode rm dyn) 0 (nth xs 0) (nth xs 1))
/-- DMUL (R216). -/
def execDmul (t : Tail) (rm : BitVec 2) (dyn : Bool) (d : Dst) (a b : Src) (s : State) : Out :=
  dpOp t s d [a, b] (fun c xs => arith2 f64 false (c.mode rm dyn) 2 (nth xs 0) (nth xs 1))
/-- DFMA (R216). -/
def execDfma (t : Tail) (rm : BitVec 2) (d : Dst) (a b c : Src) (s : State) : Out :=
  dpOp t s d [a, b, c] (fun _ xs => arith3 f64 false rm (nth xs 0) (nth xs 1) (nth xs 2))
/-- DMIN (R216). -/
def execDmin (t : Tail) (d : Dst) (a b : Src) (s : State) : Out :=
  dpOp t s d [a, b] (fun _ xs => fMinMax f64 false false (nth xs 0) (nth xs 1))
/-- DMAX (R216). -/
def execDmax (t : Tail) (d : Dst) (a b : Src) (s : State) : Out :=
  dpOp t s d [a, b] (fun _ xs => fMinMax f64 false true (nth xs 0) (nth xs 1))

/-! ### Sticky flags (R224, R225) -/

/-- FLAGS.RD: the flags as they stand at issue (R224). -/
def execFlagsRd (t : Tail) (d : Dst) (s : State) : Out :=
  laneOp t s 2 d 1 [] (fun c _ l => ((c.tk.flags.at_ l).setWidth 64, 0))

/-- FLAGS.CLR: clears at retirement, two clocks after issue (R225). -/
def execFlagsClr (t : Tail) (mask : BitVec 5) (s : State) : Out :=
  issue t s (fun c s =>
    if c.act == 0 then .next s false
    else .next (c.addResult s 2 { mask := c.act, clear := mask, flags := noFlags, inHandler := c.sup }) true)

end Sys2Proof.Machine
end

