-- ==== Sys2Proof/Machine/Leave.lean ====
section
/-! DEFINITION. Power tokens: requests, the bucket, the pool, and LEAVE (R273, R427, R428). -/

namespace Sys2Proof.Machine

open Sys2Proof

/-- The most tokens that one request counts (R428). -/
def tokenCap : Nat := 4218

/-- Tokens that a node has spent in this interval (R428). -/
def Partition.spentOf (p : Partition) (tenant node : Nat) : Nat :=
  ((p.spent.find? (fun e => e.tenant == tenant && e.node == node)).map (·.tokens)).getD 0

/-- Counts tokens as spent by every node from the launch node up to the tenant. -/
def Partition.spend (p : Partition) (tenant n : Nat) (nodes : List (Nat × Nat)) : Partition :=
  nodes.foldl (fun (q : Partition) e =>
    { q with spent := q.spent.filter (fun x => !(x.tenant == tenant && x.node == e.1)) ++
        [{ tenant := tenant, node := e.1, tokens := q.spentOf tenant e.1 + n }] }) p

/-- A tenant's pool tokens of this interval. -/
def Partition.drawnOf (p : Partition) (tenant : Nat) : Nat :=
  ((p.drawn.find? (fun e => e.1 == tenant)).map (·.2)).getD 0

/-- Gives tokens to a tussock (R273). -/
def State.giveTokens (s : State) (g t n : Nat) : State :=
  s.modTk g t (fun y => { y with tokens := y.tokens + n })

/-- A request of a core's power governor (R428): granted at once from the bucket, or queued at the pool. `hold`: the
tussock then holds the tokens (R273); otherwise the command spends them. Answers the number of the queued request. -/
def State.askLeave (s : State) (g t k need : Nat) (op : Option Nat) (hold : Bool) : State × Option Nat :=
  let n := min need tokenCap
  match s.gang? g with
  | none => (s, none)
  | some x =>
    match s.part? x.part with
    | none => (s, none)
    | some p =>
      if p.running == some x.tenant && n ≤ p.bucket && x.power.all (fun e => p.spentOf x.tenant e.1 + n ≤ e.2) then
        let pay := fun (q : Partition) => { q.spend x.tenant n x.power with bucket := q.bucket - n, curBucket := q.curBucket + n }
        let s := s.modPart p.num pay
        (if hold then s.giveTokens g t n else s, none)
      else
        let r : LeaveReq := { id := s.nextSeq, part := x.part, tenant := x.tenant, launch := (x.power.headD (0, 0)).1, gang := g,
                              tk := t, slot := k, tokens := n, op := op, hold := hold }
        ({ s.modDev (fun d => { d with poolQ := d.poolQ ++ [r] }) with nextSeq := s.nextSeq + 1 }, some s.nextSeq)

/-- The effective POWER_TOKENS of the tenant of a request (R428). -/
def State.tenantPower (s : State) (r : LeaveReq) : Nat :=
  match s.gang? r.gang with
  | some x => ((x.power.getLast?).map (·.2)).getD 0
  | none => 0

/-- Whether a request stands before another at the pool (R428): those carried over from the last interval in their order, then
by drawn ÷ max(POWER_TOKENS, 1), partition, tenant, age. -/
def State.poolBefore (s : State) (a b : LeaveReq) : Bool :=
  let da := ((s.part? a.part).map (·.drawnOf a.tenant)).getD 0
  let db := ((s.part? b.part).map (·.drawnOf b.tenant)).getD 0
  let x := da * max (s.tenantPower b) 1
  let y := db * max (s.tenantPower a) 1
  if a.carried != b.carried then a.carried != 0 && (b.carried == 0 || decide (a.carried < b.carried))
  else if x != y then decide (x < y)
  else if a.part != b.part then decide (a.part < b.part)
  else if a.tenant != b.tenant then decide (a.tenant < b.tenant)
  else decide (a.id < b.id)

/-- The head of the pool (R428). -/
def State.poolHead (s : State) : Option LeaveReq :=
  s.dev.poolQ.foldl (fun (m : Option LeaveReq) r => match m with
    | none => some r
    | some h => if s.poolBefore r h then some r else some h) none

/-- Puts a request into the pool's order. -/
def State.poolEnter (s : State) (r : LeaveReq) : List LeaveReq → List LeaveReq
  | [] => [r]
  | x :: rest => if s.poolBefore r x then r :: x :: rest else x :: s.poolEnter r rest

/-- The waiting requests carry over into the next interval in their order (R428). -/
def State.carryPool (s : State) : State :=
  s.modDev (fun d => { d with
    poolQ := (d.poolQ.foldl (fun l r => s.poolEnter r l) []).mapIdx (fun k r => { r with carried := k + 1 }) })

/-- Draws held tokens for a need, tussock by tussock; answers what is left of the need (R273). -/
def State.drawHeld (s : State) (g : Nat) : List Nat → Nat → State × Nat
  | [], need => (s, need)
  | t :: ts, need =>
    let have_ := ((s.tk? g t).map (·.tokens)).getD 0
    let n := min have_ need
    (s.modTk g t (fun y => { y with tokens := y.tokens - n })).drawHeld g ts (need - n)

/-- The tokens that tussocks hold. -/
def State.heldBy (s : State) (g : Nat) (ts : List Nat) : Nat :=
  ts.foldl (fun n t => n + ((s.tk? g t).map (·.tokens)).getD 0) 0

/-- A heavy operation asks for leave (R273, R288): the tokens that its tussocks hold are drawn first, against the full need,
and the rest is asked for. Answers what was drawn, and the number of the request if it waits. -/
def State.seekLeave (s : State) (g : Nat) (ts : List Nat) (t k need : Nat) (op : Option Nat) : State × Nat × Option Nat :=
  let d := s.drawHeld g ts need
  if d.2 == 0 then (d.1, need, none)
  else
    let r := d.1.askLeave g t k d.2 op false
    (r.1, need - d.2, r.2)

/-- A heavy command of a slot asks for leave before it starts: either leave stands, or the slot stalls. -/
def Ctx.leaveFor (c : Ctx) (s : State) (need : Nat) : Except Res State :=
  if c.sl.phase.granted then .ok s
  else
    let r := s.seekLeave c.g [c.t] c.t c.k need none
    match r.2.2 with
    | none => .ok r.1
    | some q => .error (.stall (r.1.modSlot c.g c.t c.k (fun x => { x with phase := { x.phase with paid := r.2.1 } })) (.leave q))

/-- LEAVE (R273). -/
def execLeave (tl : Tail) (a : USrc) (s : State) : Out :=
  issue tl s (fun c s =>
    let v := c.tk.uval a
    if c.act == 0 then .next s false
    else if v.extractLsb' 16 48 != 0 then c.trap .qerr
    else if v == 0 then
      .next ((s.poolAdd c.tk.tokens).modTk c.g c.t (fun y => { y with tokens := 0 })) false
    else if c.sl.phase.granted then .next s false
    else
      let r := s.askLeave c.g c.t c.k v.toNat none true
      match r.2 with
      | none => .next r.1 false
      | some q => .stall r.1 (.leave q))

end Sys2Proof.Machine
end

