-- ==== Sys2Proof/Machine/Windows.lean ====
section
/-! DEFINITION. Tensor copy descriptors, the region table and its touches, range locks (R102 to R106, R114, R115). -/

namespace Sys2Proof.Machine

open Sys2Proof

/-! ### Tensor copy descriptors (R102, R103) -/

/-- ELOG. -/
def descElog (d : BitVec 512) : Nat := (d.extractLsb' 48 3).toNat
/-- NDIM. -/
def descNdim (d : BitVec 512) : Nat := (d.extractLsb' 51 3).toNat
/-- DIR. -/
def descDir (d : BitVec 512) : Nat := (d.extractLsb' 54 2).toNat
/-- GADDR. -/
def descG (d : BitVec 512) : Nat := (d.extractLsb' 0 48).toNat
/-- SPADDR. -/
def descSp (d : BitVec 512) : Nat := (d.extractLsb' 64 32).toNat
/-- The extent of a dimension. -/
def descExt (d : BitVec 512) (k : Nat) : Nat := (d.extractLsb' (128 + 16 * k) 16).toNat + 1
/-- The signed stride of a dimension from 1 on. -/
def descStride (d : BitVec 512) (k : Nat) : Int := (d.extractLsb' (256 + 48 * (k - 1)) 48).toInt

/-- The number of elements. -/
def descCount (d : BitVec 512) : Nat := (List.range (descNdim d)).foldl (fun n k => n * descExt d k) 1

/-- The size in bytes. -/
def descBytes (d : BitVec 512) : Nat := descCount d * 2 ^ descElog d

/-- The base of the source in scratchpad for DIR = 2. -/
def descSrc (d : BitVec 512) : Nat := descG d % 2 ^ 32

/-- The global (or, for DIR = 2, source) offset of element n, dimension 0 fastest. -/
def descOffset (d : BitVec 512) (n : Nat) : Int :=
  ((List.range (descNdim d)).foldl (fun (acc : Nat × Int) k =>
    let i := acc.1 % descExt d k
    (acc.1 / descExt d k, acc.2 + (if k == 0 then ((i * 2 ^ descElog d : Nat) : Int) else (i : Int) * descStride d k)))
    (n, 0)).2

/-- The address of element n on the strided side. -/
def descAddr (d : BitVec 512) (n : Nat) : Nat :=
  let base : Int := if descDir d == 2 then (descSrc d : Int) else (descG d : Int)
  let a := base + descOffset d n
  (a % (if descDir d == 2 then 2 ^ 32 else 2 ^ 48)).toNat

/-- The lowest and highest offset of the strided side. -/
def descSpan (d : BitVec 512) : Int × Int :=
  (List.range (descNdim d)).foldl (fun (acc : Int × Int) k =>
    let far : Int := ((descExt d k - 1 : Nat) : Int) * (if k == 0 then ((2 ^ descElog d : Nat) : Int) else descStride d k)
    (acc.1 + min 0 far, acc.2 + max 0 far)) (0, 0)

/-- The byte interval of the strided side. -/
def descRange (d : BitVec 512) : Nat × Nat :=
  let base : Int := if descDir d == 2 then (descSrc d : Int) else (descG d : Int)
  ((base + (descSpan d).1).toNat, (base + (descSpan d).2).toNat + 2 ^ descElog d)

/-- The reserved bits, and the extents and strides beyond NDIM, are 0 (R103). -/
def descReserved (d : BitVec 512) : Bool :=
  d.extractLsb' 496 16 == 0 && d.extractLsb' 224 32 == 0 && d.extractLsb' 96 32 == 0 && d.extractLsb' 56 8 == 0 &&
  (List.range 6).all (fun k => k < descNdim d || (descExt d k == 1 && (k == 0 || descStride d k == 0)))

/-- The rules of R103 for a gang's allocation. -/
def descOk (d : BitVec 512) (sp : Nat) : Bool :=
  descReserved d && decide (1 ≤ descNdim d) && decide (descNdim d ≤ 6) && descDir d != 3 && decide (descElog d ≤ 4) &&
  decide (descBytes d ≤ 2 ^ 21) && decide (descSp d + descBytes d ≤ sp) &&
  decide (descSp d % 2 ^ descElog d = 0) &&
  (if descDir d == 2 then decide (descSrc d % 2 ^ descElog d = 0) && decide (0 ≤ (descSrc d : Int) + (descSpan d).1) &&
      decide ((descRange d).2 ≤ sp)
   else decide (descG d % 2 ^ descElog d = 0))

/-! ### Engines (R112) -/

/-- The engine that an operation in flight occupies. -/
def Op.engine : Op → Option Engine
  | { kind := .copy _, .. } => some .copy
  | { kind := .shuf _, .. } => some .shuffle
  | { kind := .merge _, .. } => some .merge
  | _ => none

/-- Whether an engine of a core holds 16 commands (R112). -/
def State.engineFull (s : State) (core : Nat) (e : Engine) : Bool :=
  decide (16 ≤ (s.ops.filter (fun o => o.core == some core && o.engine == some e)).length)

/-! ### Windows (R104 to R106) -/

/-- Whether two byte ranges, each a start and an end, overlap. -/
def overlap (a b : Nat × Nat) : Bool := decide (a.1 < b.2) && decide (b.1 < a.2)

/-- The scratchpad range of a window. -/
def Window.range (w : Window) : Nat × Nat := (descSp w.desc, descSp w.desc + descBytes w.desc)

/-- The windows that are not PRESENT and overlap one of the ranges (R106). -/
def Gang.touched (x : Gang) (rs : List (Nat × Nat)) : List (Nat × Window) :=
  (x.windows.zipIdx.filterMap (fun e => e.1.map (fun w => (e.2, w)))).filter (fun e =>
    e.2.state != .present && rs.any (fun r => overlap r e.2.range))

/-- Starts the fill of an ABSENT window: one tensor copy, on behalf of the slot that touched it and at its level (R105,
R106). -/
def State.startFill (s : State) (g t slot core : Nat) (mask : Mask) (sup : Bool) (k : Nat) (w : Window) : State :=
  let s := s.modGang g (fun y => { y with windows := y.windows.set k (some { w with state := .filling }) })
  let cp : Copy := { desc := w.desc, bar := some w.bar, window := some k, sup := sup }
  (s.addOp (fun id => { id := id, gang := g, tk := t, slot := slot, core := some core, at_ := s.clk core + 20,
                        mask := mask, kind := .copy cp })).1

/-- Starts the fills of ABSENT windows one after another, while the block-transfer engine has room (R112). Answers the
windows whose fills have started. -/
def State.startFills (s : State) (g t slot core : Nat) (mask : Mask) (sup : Bool) (ws : List (Nat × Window)) : State × List Nat :=
  ws.foldl (fun (a : State × List Nat) e =>
    if a.1.engineFull core .copy then a else (a.1.startFill g t slot core mask sup e.1 e.2, a.2 ++ [e.1])) (s, [])

/-- A generic or tile-path access touches windows: none where every one is PRESENT; else the slot waits for those that
fill, or stalls where none does and the engine is full (R106, R112). -/
def Ctx.touch (c : Ctx) (s : State) (rs : List (Nat × Nat)) : Option Res :=
  match (s.gang? c.g).map (fun x => x.touched rs) with
  | none | some [] => none
  | some ks =>
    let f := s.startFills c.g c.t c.k c.core c.act c.sup (ks.filter (fun e => e.2.state == .absent))
    let on := (ks.filter (fun e => e.2.state == .filling || f.2.contains e.1)).map (·.1)
    some (if on.isEmpty then .stall s (.engineFull .copy) else .wait f.1 (.window on) .none c.sl.pc)

/-! ### Range locks (R114, R115) -/

/-- Whether an access of the issuing gang hits a lock: a load hits destinations, a store or atomic both sides. -/
def Ctx.lockHit (c : Ctx) (s : State) (glob writes : Bool) (lo n : Nat) : Bool :=
  (s.core c.core).locks.any (fun l =>
    l.glob == glob && (if glob then l.part == c.x.part && l.tenant == c.x.tenant else l.gang == c.g) &&
    (writes || l.isDst) && overlap (lo, lo + n) (l.lo, l.hi))

/-- The lanes of an access that hit a lock. -/
def Ctx.lockFault (c : Ctx) (s : State) (glob writes : Bool) (as : List (Nat × Nat)) (n : Nat) : Option Res :=
  match as.filter (fun a => c.lockHit s glob writes a.2 n) with
  | [] => none
  | a :: rest => some (.trap { code := .rlock, lanes := maskOfList (a.1 :: rest.map (·.1)), addr := a.2 })

/-- Registers the ranges of a command, all or none: the 32 entries of the core (R114). -/
def Ctx.lock (c : Ctx) (s : State) (op : Nat) (rs : List (Bool × Nat × Nat × Bool)) : State :=
  s.modCore c.core (fun k => { k with locks := k.locks ++ rs.map (fun r =>
    { op := op, gang := c.g, glob := r.1, part := c.x.part, tenant := c.x.tenant, lo := r.2.1, hi := r.2.2.1, isDst := r.2.2.2 }) })

/-- The free entries of a core's range-lock table. -/
def State.lockRoom (s : State) (core : Nat) : Nat := 32 - (s.core core).locks.length

/-- Releases a command's entries. -/
def State.unlock (s : State) (op : Nat) : State :=
  { s with cores := s.cores.map (fun k => if k.locks.any (fun l => l.op == op) then
      { k with locks := k.locks.filter (fun l => l.op != op) } else k) }

end Sys2Proof.Machine
end

