-- ==== Sys2Proof/Machine/Tiles.lean ====
section
/-! DEFINITION. Tiles: shapes, elements, the tile path, product steps, conversion, scaling, reduction and events
(R250 to R264, R274 to R278). -/

namespace Sys2Proof.Machine

open Sys2Proof

/-! ### Shapes and elements (R251, R252) -/

/-- The element size of an FMT code; 0 where it is unshaped or reserved. -/
def fmtBits (f : Nat) : Nat := [0, 32, 16, 16, 8, 4, 0, 0].getD f 0
/-- FMT of an XCTL value. -/
def ctlFmt (c : BitVec 64) : Nat := (c.extractLsb' 0 3).toNat
/-- The element size of a shape. -/
def ctlBits (c : BitVec 64) : Nat := fmtBits (ctlFmt c)
/-- Rows. -/
def ctlRows (c : BitVec 64) : Nat := (c.extractLsb' 8 6).toNat + 1
/-- Columns. -/
def ctlCols (c : BitVec 64) : Nat := (c.extractLsb' 16 14).toNat + 1
/-- The bits that a shape covers. -/
def ctlSize (c : BitVec 64) : Nat := ctlRows c * ctlCols c * ctlBits c

/-- A valid shape with no reserved bit set (R251). -/
def ctlValid (c : BitVec 64) : Bool :=
  c.extractLsb' 30 34 == 0 && c.extractLsb' 14 2 == 0 && c.extractLsb' 3 5 == 0 && ctlBits c != 0 && decide (ctlSize c ≤ 65536)

/-- The elements of an array by rows. -/
def elements (bits : BitVec 65536) (ctl : BitVec 64) : Array Nat :=
  ((List.range (ctlRows ctl * ctlCols ctl)).map (fun i => (bits.extractLsb' (i * ctlBits ctl) (ctlBits ctl)).toNat)).toArray

/-- A matrix that a port delivers: rows, columns, and the code of each element (R252). -/
structure Matrix where
  fmt  : Nat
  rows : Nat
  cols : Nat
  at_  : Nat → Nat → Nat

/-- The matrix of a tile through its straight or transposed port. -/
def matrixOf (bits : BitVec 65536) (ctl : BitVec 64) (tr : Bool) : Matrix :=
  let es := elements bits ctl
  let c := ctlCols ctl
  if tr then { fmt := ctlFmt ctl, rows := c, cols := ctlRows ctl, at_ := fun i j => es.getD (j * c + i) 0 }
  else { fmt := ctlFmt ctl, rows := ctlRows ctl, cols := c, at_ := fun i j => es.getD (i * c + j) 0 }

/-- The shape of the matrix that a port delivers: format, rows, columns. -/
def portShape (ctl : BitVec 64) (tr : Bool) : Nat × Nat × Nat :=
  if tr then (ctlFmt ctl, ctlCols ctl, ctlRows ctl) else (ctlFmt ctl, ctlRows ctl, ctlCols ctl)

/-- Bits from bytes, byte 0 lowest. -/
def bitsOfBytes (bs : List Byte) : BitVec 65536 := BitVec.ofNat 65536 (natOfBytes bs)

/-- The low n bits of one array over another (R260). -/
def lowOver (n : Nat) (new old : BitVec 65536) : BitVec 65536 :=
  let m : BitVec 65536 := BitVec.ofNat 65536 (2 ^ n - 1)
  (new &&& m) ||| (old &&& ~~~m)

/-! ### Tiles of a gang -/

/-- An x tile. -/
def Gang.x? (x : Gang) (n : BitVec 5) : Option XTile := x.xt[n.toNat]?
/-- A y tile. -/
def Gang.y? (x : Gang) (n : BitVec 4) : Option YTile := x.yt[n.toNat]?
/-- The code of a y tile among tile codes (R256). -/
def yCode (y : Nat) : Nat := 32 + y

/-- The tile codes that a matrix loop names. -/
def Loop.names (l : Loop) : List Nat :=
  let x := (l.word.extractLsb' 24 6).toNat
  [x, x + 1, x + 2, x + 3, yCode (l.word.extractLsb' 14 4).toNat]

/-- Tile codes that an operation in flight names (R253). -/
def Op.names (o : Op) : List Nat :=
  match o.kind with
  | .tile (.setCtl ..) _ => []
  | .tile _ names => names
  | .loop l => l.names
  | _ => []

/-- Whether an uncompleted instruction of a gang names a tile: operations in flight, stopped loops, and loops at which a
team is arriving (R253). -/
def State.tileNamed (s : State) (g : Nat) (code : Nat) : Bool :=
  s.ops.any (fun o => o.gang == g && o.names.contains code) ||
  (match s.gang? g with
  | some x => (x.loops ++ x.arrivals).any (fun l => l.names.contains code)
  | none => false)

/-! ### The forms of cells (R85) -/

/-- The cells of a list as bits. -/
def formBits (is : List Nat) : BitVec 4096 :=
  if is.length == 4096 then BitVec.allOnes 4096 else BitVec.ofNat 4096 (is.foldl (fun n i => n ||| 2 ^ i) 0)

/-- Cells have been written: in the FP32 form, in the residue form, or (none) with bits that are either's: YZERO's, or a raw
image's. -/
def YTile.formed (t : YTile) (fp : Option Bool) (is : List Nat) : YTile :=
  let m := formBits is
  { t with fp := if fp == some true then t.fp ||| m else t.fp &&& ~~~m
           res := if fp == some false then t.res ||| m else t.res &&& ~~~m }

/-- The cells as an instruction reads them in a form (none: as raw bits): a cell last written in the other form is free
(R7, R85). Answers the cells and how many free values they took. -/
def YTile.readAs (t : YTile) (fp : Option Bool) (seed : Nat) : List (BitVec 40) × Nat :=
  let other := match fp with
    | some true => t.res
    | some false => t.fp
    | none => 0
  if other == 0 then (t.cells, 0)
  else (t.cells.zipIdx.map (fun e => if other.getLsbD e.2 then (Config.freeValue (seed + e.2)).extractLsb' 0 40 else e.1), 4096)

/-- A tile instruction in flight. -/
def Ctx.tileOp (c : Ctx) (s : State) (at_ : Nat) (t : TileOp) (names : List Nat) : State :=
  (s.addOp (fun id => { id := id, gang := c.g, tk := c.t, slot := c.k, core := some c.core, at_ := at_, tag := c.tag,
                        tagSlots := [c.k], mask := c.act, kind := .tile t names })).1

/-! ### Sources that a pending write races with (R254) -/

/-- One free bit of choice. -/
def pick (seed : Nat) : Bool := Config.freeChoice seed 2 == 1

/-- Element by element the old or the new array, each element `w` bits wide. -/
def mixBits (seed w : Nat) (old new : BitVec 65536) : BitVec 65536 :=
  (List.range (65536 / w)).foldl (fun (acc : BitVec 65536) i =>
    if pick (seed + i) then acc ||| ((new.extractLsb' (i * w) w).setWidth 65536 <<< (i * w)) else acc ||| ((old.extractLsb' (i * w) w).setWidth 65536 <<< (i * w))) 0

/-- What an instruction reads of an x tile: the array, with the old or the new value where a write is pending. -/
def State.seenX (s : State) (g x : Nat) (t : XTile) : State × BitVec 65536 :=
  s.ops.foldl (fun a o =>
    if o.gang != g then a else
    match o.kind with
    | .tile (.setX x' n bits) _ =>
      if x' == x then
        ({ a.1 with seed := a.1.seed + 16384 }, mixBits a.1.seed (max (ctlBits t.ctl) 4) a.2 (lowOver n bits a.2))
      else a
    | .tile (.xld x' rows) _ =>
      if x' == x then
        let arr : Memory := ((s.gang? g).map (·.arr)).getD []
        let bytes := rows.flatMap (fun r => r.got.getD (arr.bytes r.addr r.len))
        ({ a.1 with seed := a.1.seed + 16384 },
         mixBits a.1.seed (max (ctlBits t.ctl) 4) a.2 (lowOver (8 * bytes.length) (bitsOfBytes bytes) a.2))
      else a
    | _ => a) (s, t.bits)

/-- A cell of a row as YLD reads it. -/
def cellOfBytes (f32 : Bool) (bs : List Byte) (j : Nat) : BitVec 40 :=
  if f32 then BitVec.ofNat 40 (natOfBytes ((bs.drop (4 * j)).take 4)) else BitVec.ofNat 40 (natOfBytes ((bs.drop (8 * j)).take 8))

/-- The cells that the rows of a YLD give. -/
def cellsOfRows (f32 : Bool) (rows : List (List Byte)) : List (BitVec 40) :=
  rows.flatMap (fun bs => (List.range 64).map (fun j => cellOfBytes f32 bs j))

/-- A list of cells with some of them replaced. -/
def setCellList (cells : List (BitVec 40)) (new : List (Nat × BitVec 40)) : List (BitVec 40) :=
  (new.foldl (fun (a : Array (BitVec 40)) e => a.set! e.1 e.2) cells.toArray).toList

/-- The cells that a pending write of one form gives a reader of another: free (R85). -/
def formClash (seed : Nat) (f fp : Option Bool) (cells : List (Nat × BitVec 40)) : List (Nat × BitVec 40) :=
  if f.isSome && fp.isSome && f != fp then cells.map (fun e => (e.1, (Config.freeValue (seed + e.1)).extractLsb' 0 40)) else cells

/-- What an instruction reads of a y tile's cells in a form: each cell the old or the new value where a write is pending. -/
def State.seenY (s : State) (g y : Nat) (t : YTile) (fp : Option Bool) : State × List (BitVec 40) :=
  let mix := fun (seed : Nat) (old new : List (BitVec 40)) =>
    ((List.range 4096).zip (old.zip new)).map (fun e => if pick (seed + e.1) then e.2.2 else e.2.1)
  let now := t.readAs fp s.seed
  s.ops.foldl (fun a o =>
    if o.gang != g then a else
    match o.kind with
    | .tile (.setCells y' cells _ f) _ =>
      if y' == y then
        ({ a.1 with seed := a.1.seed + 8192 }, mix a.1.seed a.2 (setCellList a.2 (formClash (a.1.seed + 4096) f fp cells)))
      else a
    | .tile (.yld y' f rows) _ =>
      if y' == y then
        let arr : Memory := ((s.gang? g).map (·.arr)).getD []
        let new := (cellsOfRows f (rows.map (fun r => r.got.getD (arr.bytes r.addr r.len)))).zipIdx.map (fun e => (e.2, e.1))
        ({ a.1 with seed := a.1.seed + 8192 },
         mix a.1.seed a.2 (setCellList a.2 (formClash (a.1.seed + 4096) (if f then some true else none) fp new)))
      else a
    | _ => a) ({ s with seed := s.seed + now.2 }, now.1)

/-! ### Storage errors of tiles (R412, R435, R438) -/

/-- An x tile's array as an instruction reads it at issue, through ECC. -/
def Ctx.readX (c : Ctx) (s : State) (n : BitVec 5) (t : XTile) : Except Res (State × BitVec 65536) :=
  let q := s.seenX c.g n.toNat t
  if q.1.dev.injs.all (fun i => i.array != 4) then .ok q
  else
    let e := q.1.eccSpan 4 c.core ((c.x.xBase + n.toNat) * 8192) ((ctlSize t.ctl + 7) / 8) c.x.part (c.reader s)
    if e.2.1.isSome then .error (c.lostOwn e.1) else .ok (e.1, q.2 ^^^ BitVec.ofNat 65536 e.2.2)

/-- A y tile's cells as an instruction reads them at issue in a form, through ECC; and as they stand without the bits that
an unseen error inverts. -/
def Ctx.readY (c : Ctx) (s : State) (n : BitVec 4) (t : YTile) (fp : Option Bool) :
    Except Res (State × List (BitVec 40) × List (BitVec 40)) :=
  let q := s.seenY c.g n.toNat t fp
  if q.1.dev.injs.all (fun i => i.array != 5) then .ok (q.1, q.2, q.2)
  else
    let e := q.1.eccSpan 5 c.core ((c.x.yBase + n.toNat) * 20480) 20480 c.x.part (c.reader s)
    if e.2.1.isSome then .error (c.lostOwn e.1)
    else .ok (e.1, if e.2.2 == 0 then q.2 else q.2.zipIdx.map (fun v => v.1 ^^^ cellFlip e.2.2 v.2), q.2)

/-! ### Single tile instructions -/

/-- Issues a tile instruction: nothing where the guard is true in no lane (R254). -/
def tileIssue (cls : Bool) (tl : Tail) (s : State) (body : Ctx → State → Res) : Out :=
  issueIn cls tl s (fun c s => if c.act == 0 then .next s false else body c s)

/-- A running loop whose tile another instruction writes: the tile is undefined, and so are the products of the step
(R271). -/
def State.spoilLoops (s : State) (g code : Nat) : State :=
  { s with ops := s.ops.map (fun o => if o.gang == g then { o with kind := (match o.kind with
      | .loop l => if l.started && o.names.contains code then .loop { l with raced := true } else .loop l
      | k => k) } else o) }

/-- Free cells (R7). -/
def freeCells (seed : Nat) : List (BitVec 40) := (List.range 4096).map (fun i => (Config.freeValue (seed + i)).extractLsb' 0 40)

/-- A free array (R7). -/
def freeTile (seed : Nat) : BitVec 65536 :=
  BitVec.ofNat 65536 ((List.range 1024).foldl (fun n i => n * 2 ^ 64 + (Config.freeValue (seed + i)).toNat) 0)

/-- Whether a running loop of a gang names a tile that another instruction writes (R271). -/
def State.loopOn (s : State) (g code : Nat) : Bool :=
  s.ops.any (fun o => o.gang == g && o.names.contains code && (match o.kind with
    | .loop l => l.started
    | _ => false))

/-- Writes a tile: free where a running loop names it. -/
def State.putX (s : State) (g x : Nat) (bits : BitVec 65536) : State :=
  if s.loopOn g x then
    { (s.spoilLoops g x).modGang g (fun y => { y with xt := y.xt.modify x (fun t => { t with bits := freeTile s.seed }) }) with
      seed := s.seed + 1024 }
  else s.modGang g (fun y => { y with xt := y.xt.modify x (fun t => { t with bits := bits }) })

/-- Writes a tile's cells, those of a list in a form: free where a running loop names it. -/
def State.putY (s : State) (g y : Nat) (cells : List (BitVec 40)) (fp : Option Bool) (is : List Nat) : State :=
  if s.loopOn g (yCode y) then
    { (s.spoilLoops g (yCode y)).modGang g (fun z => { z with yt := z.yt.modify y (fun t => { t with cells := freeCells s.seed, fp := 0, res := 0 }) })
      with seed := s.seed + 4096 }
  else s.modGang g (fun z => { z with yt := z.yt.modify y (fun t => { t.formed fp is with cells := cells }) })

/-- XSHAPE (R253): used by what issues 2 or more clocks later. -/
def execXshape (tl : Tail) (x : BitVec 5) (a : USrc) (s : State) : Out :=
  tileIssue false tl s (fun c s =>
    let v := c.tk.uval a
    match c.x.x? x with
    | none => c.trap .shape
    | some _ =>
      if !ctlValid v then c.trap .shape
      else if s.tileNamed c.g x.toNat then
        .out (.next ((if s.loopOn c.g x.toNat then s.putX c.g x.toNat 0 else s).takeTrap c.g c.t c.k { code := .shape, lanes := c.act }))
      else
        let op := fun (id : Nat) => ({ id := id, gang := c.g, tk := c.t, slot := c.k, core := some c.core, at_ := c.clk + 2,
                                       mask := c.act, kind := .tile (.setCtl x.toNat v) [] } : Op)
        .next (s.addOp op).1 false)

/-- The scratchpad operands of R259. -/
structure PathArgs where
  base  : Nat
  pitch : Nat
  deriving DecidableEq, Repr, Inhabited

/-- BASE and PITCH of a register. -/
def pathArgs (v : BitVec 64) : PathArgs := { base := (v.extractLsb' 0 32).toNat, pitch := (v.extractLsb' 32 16).toNat }

/-- The extra latency that R101 gives for the words of a row taken alone. -/
def rowExtra (n : Nat) : Nat := (n / 4 + 63) / 64 - 1

/-- The checks of R255 after #SHAPE for the rows of a tile-path access, then its touches (R106, R259, R260). -/
def Ctx.pathCheck (c : Ctx) (s : State) (v : BitVec 64) (rows len : Nat) (writes : Bool) : Option Res :=
  let a := pathArgs v
  let hi := a.base + (rows - 1) * a.pitch + len
  if v.extractLsb' 48 16 != 0 then some (c.trap .qerr)
  else if c.x.foot.sp < hi then some (c.trap .prot a.base)
  else if a.base % 4 != 0 || a.pitch % 4 != 0 then some (c.trap .align a.base)
  else if c.lockHit s false writes a.base (hi - a.base) then some (c.trap .rlock a.base)
  else c.touch s ((List.range rows).map (fun i => (a.base + i * a.pitch, a.base + i * a.pitch + len)))

/-- The completion clocks of a tile-path access of R257. -/
def pathClocks (rows len : Nat) : Nat := 20 + (rows * len + 255) / 256 + rows * rowExtra len

/-- The rows of a tile-path read from a clock on: row i at 10 + i clocks and the extra latency before it (R258). -/
def rowReads (start base : Nat) (pitch : Int) (rows len : Nat) : List RowRead :=
  (List.range rows).map (fun i => { at_ := start + 10 + i + i * rowExtra len,
                                    addr := (((base : Int) + i * pitch) % 2 ^ 32).toNat, len := len })

/-- The rows of a tile-path access through ECC of the scratchpad (R438). -/
def Ctx.eccRows (c : Ctx) (s : State) (v : BitVec 64) (rows len : Nat) : Except Res State :=
  if s.dev.injs.all (fun i => i.array != 1) then .ok s
  else
    let a := pathArgs v
    let e := (List.range rows).foldl (fun (x : State × Bool) i =>
      let q := x.1.eccSpan 1 c.core (c.x.spBase + a.base + i * a.pitch) len c.x.part (c.reader s)
      (q.1, x.2 || q.2.1.isSome)) (s, false)
    if e.2 then .error (.out (.next (e.1.takeTrap c.g c.t c.k { code := .mchk, lanes := c.sl.mask }))) else .ok e.1

/-- XLD (R260). -/
def execXld (tl : Tail) (x : BitVec 5) (g : BitVec 6) (s : State) : Out :=
  tileIssue true tl s (fun c s =>
    let v := c.tk.greg g.toNat
    match c.x.x? x with
    | none => c.trap .shape
    | some t =>
      let rows := ctlRows t.ctl
      let len := ctlCols t.ctl * ctlBits t.ctl / 8
      if ctlBits t.ctl == 0 || ctlCols t.ctl * ctlBits t.ctl % 32 != 0 then c.trap .shape
      else match c.pathCheck s v rows len false with
      | some r => r
      | none =>
        match c.eccRows s v rows len with
        | .error r => r
        | .ok s =>
          let a := pathArgs v
          .next (c.tileOp s (c.clk + pathClocks rows len) (.xld x.toNat (rowReads c.clk a.base a.pitch rows len)) [x.toNat]) true)

/-- XST (R260): the tile is read at issue, and its rows reach the bank array when the tag falls (R258). -/
def execXst (tl : Tail) (x : BitVec 5) (g : BitVec 6) (s : State) : Out :=
  tileIssue true tl s (fun c s =>
    let v := c.tk.greg g.toNat
    match c.x.x? x with
    | none => c.trap .shape
    | some t =>
      let rows := ctlRows t.ctl
      let len := ctlCols t.ctl * ctlBits t.ctl / 8
      let a := pathArgs v
      if ctlBits t.ctl == 0 || ctlCols t.ctl * ctlBits t.ctl % 32 != 0 || (decide (1 < rows) && decide (a.pitch < len)) then
        c.trap .shape
      else match c.pathCheck s v rows len true with
      | some r => r
      | none =>
        match c.readX s x t with
        | .error r => r
        | .ok (s, bits) =>
          let row := fun (i : Nat) => (a.base + i * a.pitch, bytesOfNat len (bits.toNat / 2 ^ (8 * len * i)))
          .next (c.tileOp s (c.clk + pathClocks rows len) (.store ((List.range rows).map row)) [x.toNat]) true)

/-- XZERO (R262). -/
def execXzero (tl : Tail) (x : BitVec 5) (s : State) : Out :=
  tileIssue false tl s (fun c s =>
    match c.x.x? x with
    | none => c.trap .shape
    | some _ => .next (c.tileOp s (c.clk + 4) (.setX x.toNat 65536 0) [x.toNat]) true)

/-- The array that holds a matrix by rows. -/
def packMatrix (m : Matrix) (w : Nat) : BitVec 65536 :=
  BitVec.ofNat 65536 ((List.range (m.rows * m.cols)).reverse.foldl (fun (n : Nat) k =>
    n * 2 ^ w + m.at_ (k / m.cols) (k % m.cols)) 0)

/-- XMOV (R262). -/
def execXmov (tl : Tail) (xd xs : BitVec 5) (tr : Bool) (s : State) : Out :=
  tileIssue false tl s (fun c s =>
    match c.x.x? xd, c.x.x? xs with
    | some d, some t =>
      if ctlBits d.ctl == 0 || portShape t.ctl tr != portShape d.ctl false then c.trap .shape
      else match c.readX s xs t with
      | .error r => r
      | .ok (s, bits) =>
        let new := packMatrix (matrixOf bits t.ctl tr) (ctlBits d.ctl)
        let at_ := c.clk + 8 + (ctlSize d.ctl + 2047) / 2048
        .next (c.tileOp s at_ (.setX xd.toNat (ctlSize d.ctl) new) [xd.toNat, xs.toNat]) true
    | _, _ => c.trap .shape)

/-- YZERO (R262). -/
def execYzero (tl : Tail) (y : BitVec 4) (s : State) : Out :=
  tileIssue false tl s (fun c s =>
    match c.x.y? y with
    | none => c.trap .shape
    | some _ =>
      .next (c.tileOp s (c.clk + 4) (.setCells y.toNat ((List.range 4096).map (fun i => (i, 0))) [] none) [yCode y.toNat]) true)

/-- The bytes of a row of YLD and YST (R261). -/
def yRowBytes (cf : Bool) : Nat := if cf then 256 else 512

/-- YLD (R261). -/
def execYld (tl : Tail) (y : BitVec 4) (g : BitVec 6) (cf : Bool) (s : State) : Out :=
  tileIssue true tl s (fun c s =>
    let v := c.tk.greg g.toNat
    match c.x.y? y with
    | none => c.trap .shape
    | some _ =>
      match c.pathCheck s v 64 (yRowBytes cf) false with
      | some r => r
      | none =>
        match c.eccRows s v 64 (yRowBytes cf) with
        | .error r => r
        | .ok s =>
          let a := pathArgs v
          let rows := rowReads c.clk a.base a.pitch 64 (yRowBytes cf)
          .next (c.tileOp s (c.clk + pathClocks 64 (yRowBytes cf)) (.yld y.toNat cf rows) [yCode y.toNat]) true)

/-- YST (R261). -/
def execYst (tl : Tail) (y : BitVec 4) (g : BitVec 6) (cf : Bool) (s : State) : Out :=
  tileIssue true tl s (fun c s =>
    let v := c.tk.greg g.toNat
    let a := pathArgs v
    match c.x.y? y with
    | none => c.trap .shape
    | some t =>
      if a.pitch < yRowBytes cf then c.trap .shape
      else match c.pathCheck s v 64 (yRowBytes cf) true with
      | some r => r
      | none =>
        match c.readY s y t (if cf then some true else none) with
        | .error r => r
        | .ok (s, cells, _) =>
          let bytes := fun (q : BitVec 40) => if cf then bytesOfNat 4 (q.toNat % 2 ^ 32) else bytesOfNat 8 q.toNat
          let row := fun (i : Nat) => (a.base + i * a.pitch, ((cells.drop (64 * i)).take 64).flatMap bytes)
          .next (c.tileOp s (c.clk + pathClocks 64 (yRowBytes cf)) (.store ((List.range 64).map row)) [yCode y.toNat]) true)

/-! ### Product steps (R86, R90 to R92, R257, R263, R264) -/

/-- The A and B formats of a PAIR as FMT codes (R263). -/
def pairFmts (p : Nat) : Nat × Nat := [(3, 3), (2, 2), (1, 1), (4, 4), (5, 5), (5, 3)].getD p (0, 0)
/-- The group width of a PAIR (R90). -/
def pairGroup (p : Nat) : Nat := [8, 8, 2, 1, 16, 8].getD p 1
/-- The cost c of a PAIR times 8 (R257). -/
def pairCost (p : Nat) : Nat := [8, 8, 32, 2, 1, 8].getD p 8

/-- Engine clocks of a product step (R257). -/
def engineClocks (p m n k : Nat) : Nat := (m * n * k * pairCost p + 32767) / 32768

/-- The value of an element code in an FMT (R73, R81). -/
def elemVal (f : Nat) (code : Nat) : FVal :=
  match f with
  | 1 => decF f32 code
  | 2 => decF f16 code
  | 3 => decF bf16 code
  | _ => decL4 (BitVec.ofNat 4 code)

/-- The checks of R263 and R264 on the shapes that the ports deliver. -/
def productOk (p : Nat) (a b : Nat × Nat × Nat) : Bool :=
  (a.1, b.1) == pairFmts p && a.2.2 == b.2.1 && decide (a.2.1 ≤ 64) && decide (b.2.2 ≤ 64)

/-- One cell of an FP product step: the groups of `ks` that are used, in ascending k (R90 to R92). -/
def fpCell (p : Nat) (fa fb : Nat) (a b : Nat → Nat) (used : Nat → Bool) (k : Nat) (acc : Nat) : Nat × BitVec 5 :=
  let w := pairGroup p
  (List.range ((k + w - 1) / w)).foldl (fun (x : Nat × BitVec 5) q =>
    if used (q * w) then
      let g := (List.range (min w (k - q * w))).foldl (fun (g : Group) i =>
        g.add (elemVal fa (a (q * w + i))) (elemVal fb (b (q * w + i)))) {}
      let r := accumulate x.1 g
      (r.1, x.2 ||| r.2)
    else x) (acc, 0)

/-- One cell of an RN8 product step (R86). -/
def rnCell (a b : Nat → Nat) (used : Nat → Bool) (k : Nat) (c : BitVec 40) : BitVec 40 × BitVec 5 :=
  let r := (List.range k).foldl (fun (x : Int × BitVec 5) i =>
    if used i then
      let u := decRN8 (BitVec.ofNat 8 (a i))
      let v := decRN8 (BitVec.ofNat 8 (b i))
      (x.1 + u.1 * v.1, x.2 ||| u.2 ||| v.2)
    else x) (0, 0)
  (residueAdd c r.1, r.2)

/-- A product step into cells: the cells written and the tile events (R264). `used i k` tells whether the block of
A that holds (i, k) takes part. -/
def product (p : Nat) (a b : Matrix) (used : Nat → Nat → Bool) (cells : List (BitVec 40)) : List (Nat × BitVec 40) × BitVec 5 :=
  let cs := cells.toArray
  let out := (List.range a.rows).flatMap (fun i => (List.range b.cols).filterMap (fun j =>
    if (List.range a.cols).all (fun k => !used i k) then none else
    let c := cs.getD (64 * i + j) 0
    if p == 3 then
      let r := rnCell (a.at_ i) (fun k => b.at_ k j) (used i) a.cols c
      some (64 * i + j, r.1, r.2)
    else
      let r := fpCell p a.fmt b.fmt (a.at_ i) (fun k => b.at_ k j) (used i) a.cols (c.toNat % 2 ^ 32)
      some (64 * i + j, BitVec.ofNat 40 r.1, r.2)))
  (out.map (fun e => (e.1, e.2.1)), eventsOfFlags (out.foldl (fun m e => m ||| e.2.2) 0))

/-- MMA (R264): its E engine clocks follow the steps that started before it on the core (R257). -/
def execMma (tl : Tail) (pair : BitVec 3) (y : BitVec 4) (xa xb : BitVec 5) (ta tb : Bool) (s : State) : Out :=
  tileIssue false tl s (fun c s =>
    match c.x.x? xa, c.x.x? xb, c.x.y? y with
    | some a, some b, some d =>
      let sa := portShape a.ctl ta
      let sb := portShape b.ctl tb
      if !productOk pair.toNat sa sb then c.trap .shape
      else match c.readX s xa a with
      | .error r => r
      | .ok (s, abits) =>
        match c.readX s xb b with
        | .error r => r
        | .ok (s, bbits) =>
          match c.readY s y d (some (pair != 3)) with
          | .error r => r
          | .ok (s, cells, _) =>
            let r := product pair.toNat (matrixOf abits a.ctl ta) (matrixOf bbits b.ctl tb) (fun _ _ => true) cells
            let end_ := max c.clk (s.core c.core).mmBusy + engineClocks pair.toNat sa.2.1 sb.2.2 sa.2.2
            let s := s.modCore c.core (fun k => { k with mmBusy := end_ })
            .next (c.tileOp s (end_ + 8) (.setCells y.toNat r.1 [(y.toNat, r.2)] (some (pair != 3))) [xa.toNat, xb.toNat, yCode y.toNat]) true
    | _, _, _ => c.trap .shape)

/-! ### Conversion, scaling, reduction (R274 to R276) -/

/-- The row and column scales of a tile shaped FP32 with 2 rows and 64 columns at least. -/
def scales (bits : BitVec 65536) (ctl : BitVec 64) : (Nat → FVal) × (Nat → FVal) :=
  let es := elements bits ctl
  (fun i => decF f32 (es.getD i 0), fun j => decF f32 (es.getD (ctlCols ctl + j) 0))

/-- The shape that YCVT and YSCA ask of TB. -/
def scaleShape (ctl : BitVec 64) : Bool := ctlFmt ctl == 1 && decide (2 ≤ ctlRows ctl) && decide (64 ≤ ctlCols ctl)

/-- YCVT's cells: the new cell and the events, all set in TA (R274). -/
def ycvtCell (sf : Bool) (sr sc : FVal) (c : BitVec 40) : BitVec 40 × BitVec 5 :=
  let v := cellValue sf c
  let r := deliver f32 0 false (scaleExact v.1 sr sc)
  (BitVec.ofNat 40 r.1, v.2 ||| eventsOfFlags r.2)

/-- YSCA's cells: the new cell, the events of TA and those of TD (R275). -/
def yscaCell (sf : Bool) (sr sc : FVal) (c d : BitVec 40) : BitVec 40 × BitVec 5 × BitVec 5 :=
  let v := cellValue sf c
  let r := deliver f32 0 false (scaleAdd (decF f32 (d.extractLsb' 0 32).toNat) v.1 sr sc)
  (BitVec.ofNat 40 r.1, v.2, eventsOfFlags r.2)

/-- The events of a conversion of cells: WRAP is set by the cells as they stand, never by a storage error (R88, R435). -/
def soundWrap (sf : Bool) (cells clean : List (BitVec 40)) (ev : BitVec 5) : BitVec 5 :=
  if cells == clean then ev
  else (ev &&& 15) ||| (clean.foldl (fun m c => m ||| (cellValue sf c).2) 0 &&& 16)

/-- YCVT (R274). -/
def execYcvt (tl : Tail) (yd ys : BitVec 4) (x : BitVec 5) (sf : Bool) (s : State) : Out :=
  tileIssue false tl s (fun c s =>
    match c.x.y? yd, c.x.y? ys, c.x.x? x with
    | some _, some a, some b =>
      if !scaleShape b.ctl then c.trap .shape
      else match c.readX s x b with
      | .error r => r
      | .ok (s, bits) =>
        match c.readY s ys a (some sf) with
        | .error r => r
        | .ok (s, cells, clean) =>
          let sc := scales bits b.ctl
          let out := cells.zipIdx.map (fun e => (e.2, ycvtCell sf (sc.1 (e.2 / 64)) (sc.2 (e.2 % 64)) e.1))
          let ev := soundWrap sf cells clean (out.foldl (fun m e => m ||| e.2.2) 0)
          .next (c.tileOp s (c.clk + 24) (.setCells yd.toNat (out.map (fun e => (e.1, e.2.1))) [(ys.toNat, ev)] (some true))
            [x.toNat, yCode yd.toNat, yCode ys.toNat]) true
    | _, _, _ => c.trap .shape)

/-- YSCA (R275). -/
def execYsca (tl : Tail) (yd ys : BitVec 4) (x : BitVec 5) (sf : Bool) (s : State) : Out :=
  tileIssue false tl s (fun c s =>
    match c.x.y? yd, c.x.y? ys, c.x.x? x with
    | some d, some a, some b =>
      if !scaleShape b.ctl then c.trap .shape
      else match c.readX s x b with
      | .error r => r
      | .ok (s, bits) =>
        match c.readY s ys a (some sf) with
        | .error r => r
        | .ok (s, cells, clean) =>
          match c.readY s yd d (some true) with
          | .error r => r
          | .ok (s, dst, _) =>
            let sc := scales bits b.ctl
            let out := (cells.zip dst).zipIdx.map (fun e =>
              (e.2, yscaCell sf (sc.1 (e.2 / 64)) (sc.2 (e.2 % 64)) e.1.1 e.1.2))
            let ea := soundWrap sf cells clean (out.foldl (fun m e => m ||| e.2.2.1) 0)
            let ed := out.foldl (fun m e => m ||| e.2.2.2) 0
            .next (c.tileOp s (c.clk + 24)
              (.setCells yd.toNat (out.map (fun e => (e.1, e.2.1))) [(ys.toNat, ea), (yd.toNat, ed)] (some true))
              [x.toNat, yCode yd.toNat, yCode ys.toNat]) true
    | _, _, _ => c.trap .shape)

/-- YRED's cells (R276). -/
def yredCell (rf : Bool) (a d : BitVec 40) : BitVec 40 × BitVec 5 :=
  if rf then
    let r := deliver f32 0 false (fAdd 0 (decF f32 (d.extractLsb' 0 32).toNat) (decF f32 (a.extractLsb' 0 32).toNat))
    (BitVec.ofNat 40 r.1, eventsOfFlags r.2)
  else (residueSum d a, 0)

/-- YRED (R276). -/
def execYred (tl : Tail) (yd ys : BitVec 4) (rf : Bool) (s : State) : Out :=
  tileIssue false tl s (fun c s =>
    match c.x.y? yd, c.x.y? ys with
    | some d, some a =>
      match c.readY s ys a (some rf) with
      | .error r => r
      | .ok (s, src, _) =>
        match c.readY s yd d (some rf) with
        | .error r => r
        | .ok (s, dst, _) =>
          let out := (src.zip dst).zipIdx.map (fun e => (e.2, yredCell rf e.1.1 e.1.2))
          let ev := out.foldl (fun m e => m ||| e.2.2) 0
          .next (c.tileOp s (c.clk + 24) (.setCells yd.toNat (out.map (fun e => (e.1, e.2.1))) [(yd.toNat, ev)] (some rf))
            [yCode yd.toNat, yCode ys.toNat]) true
    | _, _ => c.trap .shape)

/-! ### Events (R93, R94, R277, R278) -/

/-- Whether a tile operation writes a y tile's cells or events. -/
def TileOp.writesY (t : TileOp) (y : Nat) : Bool :=
  match t with
  | .yld y' .. => y' == y
  | .setCells y' _ evs _ => y' == y || evs.any (fun e => e.1 == y)
  | _ => false

/-- What MWAIT waits for: the slot's own writers of a tile, and the loops that its tussock takes part in, stopped
ones included (R277). -/
def Ctx.mwaitOps (c : Ctx) (s : State) (y : Nat) : List Nat :=
  let mine := fun (l : Loop) => (l.word.extractLsb' 14 4).toNat == y && l.members.any (fun m => m.tk == c.t)
  ((s.ops.filter (fun o => o.gang == c.g && (match o.kind with
    | .tile t _ => o.tk == c.t && o.tagSlots.contains c.k && t.writesY y
    | .loop l => (l.started || l.resumed) && mine l
    | _ => false))).map (·.id)) ++ ((c.x.loops.filter mine).map (·.id))

/-- MWAIT (R94, R277). -/
def execMwait (tl : Tail) (y : BitVec 4) (s : State) : Out :=
  tileIssue false tl s (fun c s =>
    match c.x.y? y with
    | none => c.trap .shape
    | some t =>
      let ops := c.mwaitOps s y.toNat
      if !ops.isEmpty && !c.sl.phase.started then
        .stall (s.modSlot c.g c.t c.k (fun z => { z with phase := { z.phase with started := true } })) (.drain ops 0)
      else .next (s.raise c.g c.t c.act (splat (flagsOfEvents t.events)) 0) false)

/-- YEVT.RD (R278): the events at issue, delivered 4 clocks later. -/
def execYevtRd (tl : Tail) (d : Dst) (y : BitVec 4) (s : State) : Out :=
  tileIssue false tl s (fun c s =>
    match c.x.y? y with
    | none => c.trap .shape
    | some t => .next (c.tileOp s (c.clk + 4) (.evRd (ldest d 1) t.events) [yCode y.toNat]) true)

/-- YEVT.CLR (R278). -/
def execYevtClr (tl : Tail) (y : BitVec 4) (mask : BitVec 5) (s : State) : Out :=
  tileIssue false tl s (fun c s =>
    match c.x.y? y with
    | none => c.trap .shape
    | some _ => .next (c.tileOp s (c.clk + 4) (.evClr y.toNat mask) [yCode y.toNat]) true)

/-! ### Completion (R254, R257, R258, TILE_OP_COMPLETE) -/

/-- Another write of the same tile that is pending takes the values of this one cell by cell (R254). -/
def State.mixPending (s : State) (o : Op) (t : TileOp) : State :=
  let cell := match t, s.gang? o.gang with
    | .setX x .., some g => max (ctlBits (g.xt.getD x {}).ctl) 4
    | _, _ => 4
  let f := fun (q : Op) =>
    if q.id == o.id || q.gang != o.gang then q else
    match t, q.kind with
    | .setX x n bits, .tile (.setX x' n' bits') nm =>
      if x == x' then { q with kind := .tile (.setX x' n' (mixBits s.seed cell bits' (lowOver (min n n') bits bits'))) nm } else q
    | .setCells y cells _ _, .tile (.setCells y' cells' evs fp) nm =>
      if y == y' then
        { q with kind := .tile (.setCells y' (cells'.map (fun e =>
            if pick (s.seed + e.1) then (e.1, ((cells.find? (fun d => d.1 == e.1)).map (·.2)).getD e.2) else e)) evs fp) nm }
      else q
    | _, _ => q
  { s with ops := s.ops.map f, seed := s.seed + 16384 }

/-- Sets event bits of tiles (R93). -/
def State.setEvents (s : State) (g : Nat) (evs : List (Nat × BitVec 5)) : State :=
  s.modGang g (fun z => { z with yt := evs.foldl (fun ts e => ts.modify e.1 (fun t => { t with events := t.events ||| e.2 })) z.yt })

/-- What a tile operation does when it completes. -/
def State.tileDone (s : State) (o : Op) (t : TileOp) : State :=
  match s.gang? o.gang with
  | none => s
  | some x =>
    let bytes := fun (r : RowRead) => r.got.getD (x.arr.bytes r.addr r.len)
    match t with
    | .setCtl n v => s.modGang o.gang (fun y => { y with xt := y.xt.modify n (fun q => { q with ctl := v }) })
    | .xld n rows =>
      let bs := rows.flatMap bytes
      s.putX o.gang n (lowOver (8 * bs.length) (bitsOfBytes bs) (x.xt.getD n {}).bits)
    | .yld n f rows => s.putY o.gang n (cellsOfRows f (rows.map bytes)) (if f then some true else none) (List.range 4096)
    | .store rows => s.modGang o.gang (fun y => rows.foldl (fun y r => y.arrPut r.1 r.2) y)
    | .setX n w bits => (s.mixPending o t).putX o.gang n (lowOver w bits (x.xt.getD n {}).bits)
    | .setCells n cells evs fp =>
      ((s.mixPending o t).putY o.gang n (setCellList (x.yt.getD n {}).cells cells) fp (cells.map (·.1))).setEvents o.gang evs
    | .evRd d v => s.landLong o d (splat (v.setWidth 128))
    | .evClr n mask =>
      s.modGang o.gang (fun y => { y with yt := y.yt.modify n (fun q => { q with events := q.events &&& ~~~mask }) })

/-- TILE_OP_COMPLETE (R257): a tile instruction reaches its completion point and its tag falls. -/
def execTileOpComplete (op : Nat) (s : State) : Out :=
  match s.op? op with
  | none => .next s
  | some o =>
    match o.kind with
    | .tile t _ => if o.at_ ≤ s.opClk o then .next ((s.tileDone o t).finishOp o) else .next s
    | _ => .next s

end Sys2Proof.Machine
end

