-- ==== Sys2Proof/Machine/Matrix.lean ====
section
/-! DEFINITION. The sequenced matrix loop: arrival of a team, preparation, steps, stop and resumption (R31, R265 to
R273). -/

namespace Sys2Proof.Machine

open Sys2Proof

/-! ### The command's fields (R265, R266) -/

/-- Bits [55:20] of an MLOOP word. -/
def loopWord (e : EFields) (f : LoopFields) : BitVec 36 :=
  e.p ++ f.x ++ f.sg ++ e.abs ++ f.yd ++ f.var ++ f.pair ++ BitVec.ofBool f.xa ++ BitVec.ofBool f.xb ++ 0#7

/-- X, the first of the four buffer tiles. -/
def Loop.x (l : Loop) : Nat := (l.word.extractLsb' 24 6).toNat
/-- SG. -/
def Loop.sg (l : Loop) : Nat := (l.word.extractLsb' 21 3).toNat
/-- YD. -/
def Loop.yd (l : Loop) : Nat := (l.word.extractLsb' 14 4).toNat
/-- The block edge of VAR; 0 in the dense variant. -/
def Loop.edge (l : Loop) : Nat := [0, 16, 32, 0].getD (l.word.extractLsb' 12 2).toNat 0
/-- PAIR. -/
def Loop.pair (l : Loop) : Nat := (l.word.extractLsb' 9 3).toNat
/-- XA: read A through the transposed port. -/
def Loop.ta (l : Loop) : Bool := l.word.getLsbD 8
/-- XB: read B through the transposed port. -/
def Loop.tb (l : Loop) : Bool := l.word.getLsbD 7
/-- A parameter register. -/
def Loop.par (l : Loop) (k : Nat) : BitVec 64 := l.params.getD k 0
/-- KSTEPS. -/
def Loop.steps (l : Loop) : Nat := ((l.par 2).extractLsb' 0 16).toNat
/-- The start of the A slice of a step. -/
def Loop.aAt (l : Loop) (s : Nat) : Nat :=
  ((((l.par 0).extractLsb' 0 32).toNat + s * ((l.par 0).extractLsb' 32 32).toInt) % 2 ^ 32).toNat
/-- The start of the B slice of a step. -/
def Loop.bAt (l : Loop) (s : Nat) : Nat :=
  ((((l.par 1).extractLsb' 0 32).toNat + s * ((l.par 1).extractLsb' 32 32).toInt) % 2 ^ 32).toNat
/-- APITCH. -/
def Loop.aPitch (l : Loop) : Nat := ((l.par 2).extractLsb' 16 16).toNat
/-- BPITCH. -/
def Loop.bPitch (l : Loop) : Nat := ((l.par 2).extractLsb' 32 16).toNat
/-- BMAP. -/
def Loop.bmap (l : Loop) : Nat := ((l.par 3).extractLsb' 0 32).toNat

/-- XCTL of an x tile of a gang. -/
def Gang.ctl (x : Gang) (n : Nat) : BitVec 64 := (x.xt.getD n {}).ctl
/-- The bytes of a row of a shape. -/
def ctlRowBytes (c : BitVec 64) : Nat := ctlCols c * ctlBits c / 8

/-- M, K and N of a step. -/
def Loop.mkn (l : Loop) : Nat × Nat × Nat :=
  let a := portShape l.ca l.ta
  let b := portShape l.cb l.tb
  (a.2.1, a.2.2, b.2.2)

/-- E of a step (R257). -/
def Loop.clocks (l : Loop) : Nat :=
  let d := l.mkn
  engineClocks l.pair d.1 d.2.2 d.2.1

/-- The tokens of the remaining steps (R273). -/
def Loop.tokens (l : Loop) : Nat := (l.clocks * (l.steps - l.step) + 63) / 64

/-- The byte interval that the slices of one side touch from step `s0` on: from a function of their starts. -/
def sliceRange (at_ : Nat → Nat) (s0 steps span : Nat) : Nat × Nat :=
  (List.range (steps - s0)).foldl (fun (r : Nat × Nat) k => (min r.1 (at_ (s0 + k)), max r.2 (at_ (s0 + k) + span)))
    (2 ^ 33, 0)

/-- The A, B and (in a block-sparse variant) bitmap ranges of the remaining steps. -/
def Loop.ranges (l : Loop) : List (Nat × Nat) :=
  let ca := l.ca
  let cb := l.cb
  let a := sliceRange l.aAt l.step l.steps ((ctlRows ca - 1) * l.aPitch + ctlRowBytes ca)
  let b := sliceRange l.bAt l.step l.steps ((ctlRows cb - 1) * l.bPitch + ctlRowBytes cb)
  [a, b] ++ (if l.edge == 0 then [] else [(l.bmap + 8 * l.step, l.bmap + 8 * l.steps)])

/-- The checks of R255 and R266. -/
def Ctx.loopCheck (c : Ctx) (s : State) (l : Loop) : Option Res :=
  let ca := l.ca
  let cb := l.cb
  let d := l.mkn
  let rs := l.ranges
  let odd := fun (v : BitVec 64) => v.extractLsb' 0 2 != 0 || v.extractLsb' 32 2 != 0
  let shape := c.x.xt.length < l.x + 4 || c.x.yt.length ≤ l.yd || ca != c.x.ctl (l.x + 1) || cb != c.x.ctl (l.x + 3) ||
    ctlBits ca == 0 || ctlBits cb == 0 || !productOk l.pair (portShape ca l.ta) (portShape cb l.tb) ||
    ctlCols ca * ctlBits ca % 32 != 0 || ctlCols cb * ctlBits cb % 32 != 0 ||
    (l.edge != 0 && (d.1 % l.edge != 0 || d.2.1 % l.edge != 0))
  let barOut := match l.bar with
    | some b => decide (c.x.foot.sp ≤ b)
    | none => false
  let barOdd := match l.bar with
    | some b => b % 16 != 0
    | none => false
  if shape then some (c.trap .shape)
  else if (l.par 2).extractLsb' 48 16 != 0 || (l.par 3).extractLsb' 32 32 != 0 || l.steps == 0 then some (c.trap .qerr)
  else if rs.any (fun r => c.x.foot.sp < r.2) || barOut then some (c.trap .prot (l.aAt 0))
  else if odd (l.par 0) || odd (l.par 1) || l.aPitch % 4 != 0 || l.bPitch % 4 != 0 || (l.edge != 0 && l.bmap % 8 != 0) || barOdd then
    some (c.trap .align (l.aAt 0))
  else if rs.any (fun r => c.lockHit s false false r.1 (r.2 - r.1)) then some (c.trap .rlock (l.aAt 0))
  else none

/-! ### Steps (R257, R258, R267, R268) -/

/-- Whether the block that holds (i, k) takes part in a step with a bitmap word. -/
def Loop.used (l : Loop) (kk : Nat) (map : BitVec 64) (i k : Nat) : Bool :=
  l.edge == 0 || map.getLsbD (i / l.edge * (kk / l.edge) + k / l.edge)

/-- L: the load clocks of a step, from the bytes of the blocks that are read (R257, R267). -/
def Loop.loadClocks (l : Loop) (map : BitVec 64) : Nat :=
  let d := l.mkn
  let ba := ctlBits l.ca
  let bb := ctlBits l.cb
  if l.edge == 0 then ((d.1 * d.2.1 * ba + d.2.1 * d.2.2 * bb) / 8 + 255) / 256
  else
    let e := l.edge
    let on := fun (r q : Nat) => map.getLsbD (r * (d.2.1 / e) + q)
    let blocks := ((List.range (d.1 / e)).flatMap (fun r => (List.range (d.2.1 / e)).filter (on r))).length
    let cols := ((List.range (d.2.1 / e)).filter (fun q => (List.range (d.1 / e)).any (fun r => on r q))).length
    ((blocks * e * e * ba + cols * e * d.2.2 * bb) / 8 + 255) / 256

/-- The rows of the A and B slices of a step, read from a clock on (R258). -/
def Loop.rowsOf (l : Loop) (s start : Nat) : List RowRead × List RowRead :=
  if l.steps ≤ s then ([], [])
  else
    let ca := l.ca
    let cb := l.cb
    (rowReads start (l.aAt s) l.aPitch (ctlRows ca) (ctlRowBytes ca),
     rowReads start (l.bAt s) l.bPitch (ctlRows cb) (ctlRowBytes cb))

/-- The bitmap word of a step, read through the tile path at its start (R268). -/
def Loop.mapAt (l : Loop) (x : Gang) : BitVec 64 :=
  if l.edge == 0 then 0 else BitVec.ofNat 64 (x.arr.read (l.bmap + 8 * l.step) 8)

/-- Starts the next step of a loop: its product follows the steps that started before it on the core; the next
slice is loaded beside it (R257, R267). -/
def State.loopStep (s : State) (o : Op) (l : Loop) (first : Bool) : State :=
  match s.gang? o.gang, o.core with
  | some x, some core =>
    let clk := s.clk core
    let map := l.mapAt x
    let ld := l.loadClocks map
    let cur := if first then l.rowsOf l.step clk else (l.nextA, l.nextB)
    let begin_ := max (if first then clk + 20 + ld else clk) (s.core core).mmBusy
    let end_ := begin_ + max (l.clocks) ld
    let next := l.rowsOf (l.step + 1) begin_
    let l := { l with started := true, stepEnd := end_, map := map, rowsA := cur.1, rowsB := cur.2, nextA := next.1, nextB := next.2 }
    (s.modCore core (fun k => { k with mmBusy := end_ })).modOp o.id (fun q => { q with at_ := end_, kind := .loop l })
  | _, _ => s

/-! ### Preparation (R270) -/

/-- The tussocks of a command, ascending. -/
def Loop.tks (l : Loop) : List Nat := (l.members.map (·.tk)).dedup.mergeSort (· ≤ ·)

/-- Puts every member's slot into a long wait, or (none) into the stall of a command that asks for leave or range
locks. -/
def State.holdMembers (s : State) (g op : Nat) (l : Loop) (w : Option WaitCond) : State :=
  l.members.foldl (fun s m => s.modSlot g m.tk m.slot (fun z => match w with
    | some cnd =>
      if z.wait.any (fun v => v.cond == cnd) then z
      else { z with stall := none, wait := some { cond := cnd, start := s.now, mask := m.act, next := z.pc + 8, tl := m.tl } }
    | none => { z with wait := none, stall := some (.loop op) })) s

/-- Registers the A and B ranges of a command (R114). -/
def State.lockLoop (s : State) (core : Nat) (x : Gang) (op : Nat) (l : Loop) : State :=
  s.modCore core (fun k => { k with locks := k.locks ++ ((l.ranges).take 2).map (fun r =>
    { op := op, gang := x.id, glob := false, part := x.part, tenant := x.tenant, lo := r.1, hi := r.2, isDst := false }) })

/-- Retires MLOOP in every member (R270). -/
def State.retireMembers (s : State) (g core : Nat) (l : Loop) : State :=
  l.members.foldl (fun s m =>
    ((s.retireSlot g m.tk m.slot core m.tl true (((s.slot? g m.tk m.slot).map (·.pc)).getD 0 + 8))).noteReady g m.tk) s

/-- The steps of R270 as far as they go: windows, leave, range locks, start. A resumed command makes the last three
(R272). -/
def State.loopPrep (s : State) (op : Nat) : State :=
  match s.op? op with
  | none => s
  | some o =>
    match o.kind, s.gang? o.gang, o.core with
    | .loop l, some x, some core =>
      let touched := if l.resumed then [] else x.touched (l.ranges)
      if !touched.isEmpty then
        let sup := ((s.tk? o.gang o.tk).map (·.supAt o.slot)).getD false
        let s := (s.startFills o.gang o.tk o.slot core o.mask sup (touched.filter (fun e => e.2.state == .absent))).1
        s.holdMembers o.gang op l (some (.window (touched.map (·.1))))
      else
        let wait := fun (s : State) => if l.resumed then s else s.holdMembers o.gang op l none
        let leave : State × Loop :=
          if l.left || l.asked then (s, l)
          else
            let r := s.seekLeave o.gang l.tks o.tk o.slot l.tokens (some op)
            (r.1, { l with asked := true, capped := decide (tokenCap < l.tokens - r.2.1), left := r.2.2.isNone })
        let l := leave.2
        let s := leave.1.modOp op (fun q => { q with kind := .loop l })
        if !l.left || s.lockRoom core < 2 then wait s
        else
          let s := s.lockLoop core x op l
          let s := s.modGang o.gang (fun y => { y with arrivals := y.arrivals.filter (fun a => a.team != l.team || l.resumed) })
          let s := (s.modOp op (fun q => { q with kind := .loop { l with started := true } }))
          let s := if l.resumed then s else s.retireMembers o.gang core l
          s.loopStep o l true
    | _, _, _ => s

/-! ### Arrival (R269) -/

/-- A mismatch: #TEAMMIS in every member that has arrived, in every lane of a waiting one's mask (R409), the arrivals
cleared, and the rest of the team marked. -/
def Ctx.teamMismatch (c : Ctx) (s : State) (a : Loop) : State :=
  let size := c.x.foot.team
  let team := (List.range size).map (fun i => a.team * size + i)
  let late := team.filter (fun t => t != c.t && a.members.all (fun m => m.tk != t))
  let s : State := { s with ops := s.ops.filter (fun o => !(o.gang == c.g && (match o.kind with
    | .loop l => l.team == a.team && !l.started && !l.resumed
    | _ => false))) }
  let s := s.modGang c.g (fun y => { y with arrivals := y.arrivals.filter (fun b => b.team != a.team), teammis := y.teammis ++ late })
  let s := a.members.foldl (fun s m =>
    if m.tk == c.t then (if m.slot == c.k then s else s.modSlot c.g m.tk m.slot (fun z => { z with wait := none, stall := none }))
    else s.takeTrap c.g m.tk m.slot { code := .teammis, lanes := ((s.slot? c.g m.tk m.slot).map (·.mask)).getD 0 }) s
  s.takeTrap c.g c.t c.k { code := .teammis, lanes := c.act }

/-- A member arrives: it waits for the team, and the last one begins the preparation. -/
def Ctx.teamArrive (c : Ctx) (tl : Tail) (s : State) (l : Loop) : State :=
  let me : Member := { tk := c.t, slot := c.k, tag := c.tag, act := c.act, tl := tl }
  let old := c.x.arrivals.find? (fun a => a.team == l.team)
  let l := { (old.getD l) with members := (old.getD l).members ++ [me] }
  let s := s.modGang c.g (fun y => { y with arrivals := y.arrivals.filter (fun a => a.team != l.team) ++ [l] })
  let w : Wait := { cond := .team, start := s.now, mask := c.act, next := c.sl.pc + 8, tl := tl }
  let s := s.modSlot c.g c.t c.k (fun z => { z with stall := none, wait := some w })
  if l.members.length < c.x.foot.team then s
  else
    let op := fun (id : Nat) => ({ id := id, gang := c.g, tk := c.t, slot := c.k, core := some c.core, at_ := 0, mask := c.act,
                                   kind := .loop { l with id := id } } : Op)
    let r := s.addOp op
    r.1.loopPrep r.2

/-- MLOOP (R265 to R270). -/
def execMloop (tl : Tail) (e : EFields) (f : LoopFields) (s : State) : Out :=
  tileIssue true tl s (fun c s =>
    let reg := if e.abs == 0 then 0 else c.tk.greg (e.p.toNat + 3 + e.abs.toNat)
    let bar := if e.abs == 0 then none else some (reg.extractLsb' 0 32).toNat
    let l : Loop := { team := c.t / c.x.foot.team, word := loopWord e f, bar := bar, barReg := reg, members := [],
                      params := (List.range 4).map (fun k => c.tk.greg (e.p.toNat + k)) }
    let l := { l with ca := c.x.ctl l.x, cb := c.x.ctl (l.x + 2) }
    if c.x.teammis.contains c.t then
      .out (.next ((s.modGang c.g (fun y => { y with teammis := y.teammis.filter (fun t => t != c.t) })).takeTrap c.g c.t c.k
        { code := .teammis, lanes := c.act }))
    else match c.loopCheck s l with
    | some r => r
    | none =>
      match c.x.arrivals.find? (fun a => a.team == l.team) with
      | none => .out (.next (c.teamArrive tl s l))
      | some a =>
        let same := a.word == l.word && a.params == l.params && a.barReg == l.barReg && a.members.all (fun m => m.tk != c.t)
        if same then .out (.next (c.teamArrive tl s l)) else .out (.next (c.teamMismatch s a)))

/-! ### The end of a step (R267, R268, R271, R272) -/

/-- The four buffers become undefined (R267). -/
def State.freeBuffers (s : State) (g : Nat) (l : Loop) : State :=
  let f := fun (xt : List XTile) (k : Nat) => xt.modify (l.x + k) (fun t => { t with bits := freeTile (s.seed + 1024 * k) })
  { s.modGang g (fun y => { y with xt := (List.range 4).foldl f y.xt }) with seed := s.seed + 4096 }

/-- Whether a pending stop ends the command at this boundary (R267, R272). -/
def Loop.stopsAt (l : Loop) (stop : Bool) : Bool :=
  stop && l.sg != 0 && l.step % 2 ^ (l.sg - 1) == 0 && decide (l.step < l.steps)

/-- A stopped command's record goes into the gang's context; its members' tags keep their counts (R272). -/
def State.loopStop (s : State) (o : Op) (l : Loop) : State :=
  let rec_ : Loop := { id := l.id, team := l.team, word := l.word, params := l.params, bar := l.bar, barReg := l.barReg, ca := l.ca, cb := l.cb, members := l.members, step := l.step }
  ((((s.unlock o.id).freeBuffers o.gang l).modGang o.gang (fun y => { y with loops := y.loops ++ [rec_] }))).dropOp o.id

/-- The members' tags fall (R270). -/
def State.fallTags (s : State) (g : Nat) (l : Loop) : State :=
  l.members.foldl (fun s m => if m.tag == 0 then s else s.modSlot g m.tk m.slot (fun z =>
    { z with tags := z.tags.modify (m.tag - 1) (fun n => if n == 0 then 0 else n - 1) })) s

/-- Completion: the buffers undefined, the barrier credited once, the tags fall (R267, R270). -/
def State.loopDone (s : State) (o : Op) (l : Loop) : State :=
  let s := (s.unlock o.id).freeBuffers o.gang l
  let s := (s.dropOp o.id).fallTags o.gang l
  match l.bar with
  | some b => s.arrive o.gang b 1 0 none
  | none => s

/-- Whether a step loads element (i, j) of a buffer tile: an A element of a nonzero block, a B element whose block column of
A is not all zero (R267, R268). -/
def Loop.needs (l : Loop) (map : BitVec 64) (isA : Bool) (i j : Nat) : Bool :=
  if l.edge == 0 then true
  else
    let d := l.mkn
    let across := d.2.1 / l.edge
    let e := if (if isA then l.ta else l.tb) then (j, i) else (i, j)
    if isA then map.getLsbD (e.1 / l.edge * across + e.2 / l.edge)
    else (List.range (d.1 / l.edge)).any (fun r => map.getLsbD (r * across + e.1 / l.edge))

/-- The bits of row i of a buffer tile that a step loads. -/
def Loop.rowMask (l : Loop) (map : BitVec 64) (isA : Bool) (i : Nat) : Nat :=
  let c := if isA then l.ca else l.cb
  (List.range (ctlCols c)).reverse.foldl (fun n j => n * 2 ^ ctlBits c + if l.needs map isA i j then 2 ^ ctlBits c - 1 else 0) 0

/-- A buffer tile after the load of a step's rows: what the step does not load keeps its bits. -/
def Loop.loaded (l : Loop) (map : BitVec 64) (isA : Bool) (rows : List (List Byte)) (old : BitVec 65536) : BitVec 65536 :=
  let bs := rows.flatten
  let new := lowOver (8 * bs.length) (bitsOfBytes bs) old
  if l.edge == 0 then new
  else
    let w := ctlRowBytes (if isA then l.ca else l.cb) * 8
    let m : BitVec 65536 := BitVec.ofNat 65536 ((List.range rows.length).reverse.foldl (fun n i => n * 2 ^ w + l.rowMask map isA i) 0)
    (new &&& m) ||| (old &&& ~~~m)

/-- The 8-byte words of the scratchpad array that a step loads of a row at an offset of the array (R92, R435). -/
def Loop.rowWords (l : Loop) (map : BitVec 64) (isA : Bool) (i base len : Nat) : List Nat :=
  let m := l.rowMask map isA i
  (((List.range len).filter (fun k => m / 2 ^ (8 * k) % 256 != 0)).map (fun k => (base + k) / 8)).dedup

/-- A row of a step read through the ECC of the scratchpad: the state, whether a lasting error was met, and the row with the
bits that an unseen error inverts. -/
def Loop.eccRow (l : Loop) (s : State) (core : Nat) (x : Gang) (r : Reader) (isA : Bool) (i : Nat) (q : RowRead) : State × Bool × RowRead :=
  let base := x.spBase + q.addr
  let e := (l.rowWords l.map isA i base q.len).foldl (fun (a : State × Bool × Nat) w =>
    let d := a.1.eccSpan 1 core (8 * w) 8 x.part r
    (d.1, a.2.1 || d.2.1.isSome, a.2.2 ^^^ (if base ≤ 8 * w then d.2.2 * 2 ^ (8 * (8 * w - base)) else d.2.2 / 2 ^ (8 * (base - 8 * w))))) (s, false, 0)
  let bytes := q.got.getD (x.arr.bytes q.addr q.len)
  (e.1, e.2.1, if e.2.2 == 0 then q else { q with got := some (bytesOfNat q.len (natOfBytes bytes ^^^ e.2.2)) })

/-- Reads what a step loads, and YD, through their ECC; an error that lasts aborts the gang's fault domain (R438). Answers
the loop with the bits that reach it. -/
def State.loopEcc (s : State) (o : Op) (x : Gang) (l : Loop) : State × Bool × Loop :=
  match o.core with
  | none => (s, false, l)
  | some core =>
    if s.dev.injs.all (fun i => i.array != 1 && i.array != 5) then (s, false, l)
    else
      let r : Reader := some (x.part, x.tenant, ((s.task? x.id).map (·.launch)).getD 0)
      let side := fun (isA : Bool) (rows : List RowRead) (a : State × Bool) => rows.zipIdx.foldl (fun (b : State × Bool × List RowRead) q =>
        let d := l.eccRow b.1 core x r isA q.2 q.1
        (d.1, b.2.1 || d.2.1, b.2.2 ++ [d.2.2])) (a.1, a.2, [])
      let a := side true l.rowsA (s, false)
      let b := side false l.rowsB (a.1, a.2.1)
      let d := b.1.eccSpan 5 core ((x.yBase + l.yd) * 20480) 20480 x.part r
      let flip := fun (t : YTile) => { t with cells := t.cells.zipIdx.map (fun v => v.1 ^^^ cellFlip d.2.2 v.2) }
      let s := if d.2.2 == 0 then d.1 else d.1.modGang x.id (fun y => { y with yt := y.yt.modify l.yd flip })
      (s, b.2.1 || d.2.1.isSome, { l with rowsA := a.2.2, rowsB := b.2.2 })

/-- The product of a step into YD: free cells where another instruction wrote a tile of the command (R271). -/
def State.loopProduct (s : State) (o : Op) (x : Gang) (l : Loop) : State :=
  let bytes := fun (r : RowRead) => r.got.getD (x.arr.bytes r.addr r.len)
  let load := fun (isA : Bool) (rows : List RowRead) (t : XTile) => { t with bits := l.loaded l.map isA (rows.map bytes) t.bits }
  let na := l.x + l.step % 2
  let nb := l.x + 2 + l.step % 2
  let a := load true l.rowsA (x.xt.getD na {})
  let b := load false l.rowsB (x.xt.getD nb {})
  let fp := some (l.pair != 3)
  let y := x.yt.getD l.yd {}
  let old := y.readAs fp s.seed
  let s : State := { s with seed := s.seed + old.2 }
  let r := product l.pair (matrixOf a.bits l.ca l.ta) (matrixOf b.bits l.cb l.tb) (l.used l.mkn.2.1 l.map) old.1
  let y := if l.raced then { y with cells := freeCells s.seed, fp := 0, res := 0 }
    else { y.formed fp (r.1.map (·.1)) with cells := setCellList y.cells r.1 }
  let s := s.modGang o.gang (fun z => { z with xt := (z.xt.set na a).set nb b, yt := z.yt.set l.yd y })
  { s.setEvents o.gang [(l.yd, r.2)] with seed := if l.raced then s.seed + 4096 else s.seed }

/-- Whether a request of an operation waits at the pool (R428). -/
def State.opAsks (s : State) (op : Nat) : Bool := s.dev.poolQ.any (fun r => r.op == some op)

/-- MLOOP_STEP_END (R267): the product of a step is in YD; the command completes, stops at a split granule, waits for
leave that a capped request still asks for (R428), or goes on. -/
def execMloopStepEnd (op : Nat) (s : State) : Out :=
  match s.op? op with
  | none => .next s
  | some o =>
    match o.kind, s.gang? o.gang with
    | .loop l, some x =>
      if !l.started || l.stepEnd == 0 || s.opClk o < l.stepEnd then .next s
      else
        let e := s.loopEcc o x l
        if e.2.1 then .next (e.1.abortDomain x.part x.tenant x.domain TrapCode.mchk.num 0)
        else
          let l := e.2.2
          let s := e.1.loopProduct o ((e.1.gang? o.gang).getD x) l
          let l := { l with step := l.step + 1, raced := false }
          if l.steps ≤ l.step then .next (s.loopDone o l)
          else if l.stopsAt x.stop then .next (s.loopStop o l)
          else if s.opAsks op then
            .next (s.modOp op (fun q => { q with kind := .loop { l with stepEnd := 0, left := false } }))
          else .next (s.loopStep o l false)
    | _, _ => .next s

/-- Whether a matrix loop in preparation, resumed, or held for leave at a step boundary can go on now. -/
def State.loopCanGo (s : State) (o : Op) (l : Loop) : Bool :=
  match s.gang? o.gang, o.core with
  | some x, some core =>
    if l.started then l.stepEnd == 0 && l.left
    else
      let touched := if l.resumed then [] else x.touched (l.ranges)
      if !touched.isEmpty then touched.any (fun e => e.2.state == .absent) && !s.engineFull core .copy
      else if !l.left then !l.asked
      else decide (2 ≤ s.lockRoom core)
  | _, _ => false

/-- A matrix loop goes on: prepared further, started, or its next step after leave was granted. -/
def State.loopGo (s : State) (o : Op) (l : Loop) : State :=
  if l.started then s.loopStep o l false else s.loopPrep o.id

/-- A held loop at a boundary where a pending stop may end it (R272). -/
def Loop.stopsHeld (l : Loop) (stop : Bool) : Bool := l.started && l.stepEnd == 0 && l.stopsAt stop

/-- Puts a stopped command of a gang back as an operation (R272). -/
def State.loopResume (s : State) (g core : Nat) (l : Loop) : State :=
  let m := l.members.headD default
  let o : Op := { id := l.id, gang := g, tk := m.tk, slot := m.slot, core := some core, at_ := 0, mask := m.act,
                  kind := .loop { l with resumed := true } }
  ({ s with ops := s.ops ++ [o] } : State).loopPrep l.id

end Sys2Proof.Machine
end

