-- ==== Sys2Proof/Machine/Share.lean ====
section
/-! DEFINITION. Bandwidth shares: requests at the weighted arbiters of slices and ports, and their service (R429). -/

namespace Sys2Proof.Machine

open Sys2Proof

/-- The channel of an access: near slice ports 0 to 95, CXL ports 96 to 111, Ethernet ports 112 to 127. -/
def channelOf (pa : Nat) : Nat := if pa < 6 * 2 ^ 30 then pa / 2 ^ 26 else 96 + pa / 2 ^ 48 % 16

/-- Service units of a request (R429): 4 for an atomic, ST.N4 or subscription, else 1 for each 64 bytes begun. -/
def unitsOf (n : Nat) (heavy : Bool) : Nat := if heavy then 4 else (n + 63) / 64

/-- A request's weight among the partitions of a port: its weight there, at least 1. -/
def State.portWeight (s : State) (ch part : Nat) : Nat :=
  max 1 (((s.part? part).map (fun p => (p.weights.getD (ch - 96) 0).toNat)).getD 0)

/-- A job's weight on the near slices and within its partition: the FAR_SHARE of its gangs, at least 1. -/
def State.jobWeight (s : State) (part job : Nat) : Nat :=
  max 1 (((s.gangs.find? (fun x => x.part == part && s.tasks.any (fun t => t.id == x.id && t.job == job))).map (·.far)).getD 0)

/-- The mark of a partition's own counter beside those of its jobs. -/
def wholePart : Nat := 2 ^ 48

/-- A requester's counter at a channel in this interval; 0 where it has none. -/
def Device.counter (d : Device) (ch part job : Nat) : Counter :=
  (d.arb.find? (fun e => e.ch == ch && e.part == part && e.job == job)).getD
    { ch := ch, part := part, job := job, served := 0, num := 0, den := 1 }

/-- Sets a requester's counter. -/
def Device.setCounter (d : Device) (c : Counter) : Device :=
  { d with arb := d.arb.filter (fun e => !(e.ch == c.ch && e.part == c.part && e.job == c.job)) ++ [c] }

/-- A counter after a service. -/
def Counter.serve (c : Counter) (units : Nat) : Counter := { c with served := c.served + units, num := c.num + units * c.den }

/-- A counter ÷ a weight, as a fraction. -/
def Counter.share (c : Counter) (w : Nat) : Nat × Nat := (c.num, c.den * w)

/-- The capacity of a port in units an interval: CXL ports are 0 to 15, Ethernet ports 16 to 31; none once retired
(R430, R450). -/
def Device.portCap (d : Device) (k : Nat) : Nat :=
  if k < 16 then (if d.cxlUp.getLsbD k then 200000 else 0) else (if d.ethUp.getLsbD (k - 16) then 156250 else 0)

/-- Whether a channel can serve so many units more in this interval: a port no more than its capacity (R430). -/
def Device.hasRoom (d : Device) (ch units : Nat) : Bool :=
  ch < 96 || decide (sumOf ((d.arb.filter (fun e => e.ch == ch && e.job != wholePart)).map (·.served)) + units ≤ d.portCap (ch - 96))

/-- The counters at the start of an interval: 0 for every requester with pending demand (R429). -/
def Device.freshCounters (d : Device) : List Counter :=
  (d.demand.flatMap (fun e => [e.job, wholePart].map (fun j =>
    ({ ch := e.ch, part := e.part, job := j, served := 0, num := 0, den := 1 } : Counter)))).dedup

/-- The jobs of a partition with pending demand at a channel. -/
def Device.jobsAt (d : Device) (ch part : Nat) : List Nat :=
  ((d.demand.filter (fun e => e.ch == ch && e.part == part)).map (·.job)).dedup

/-- The partitions with pending demand at a channel. -/
def Device.partsAt (d : Device) (ch : Nat) : List Nat := ((d.demand.filter (fun e => e.ch == ch)).map (·.part)).dedup

/-- The least of fractions; on a tie the first. -/
def leastShare (l : List (Nat × Nat)) : Option (Nat × Nat) :=
  l.foldl (fun (m : Option (Nat × Nat)) e => match m with
    | some q => if e.1 * q.2 < q.1 * e.2 then some e else some q
    | none => some e) none

/-- The counter that a requester of a weight starts with: the least counter ÷ weight among the active ones, times its own
weight, exactly (R429). -/
def startCounter (ch part job : Nat) (active : List (Nat × Nat)) (w : Nat) : Counter :=
  let q := (leastShare active).getD (0, 1)
  let g := max 1 (Nat.gcd (q.1 * w) q.2)
  { ch := ch, part := part, job := job, served := 0, num := q.1 * w / g, den := q.2 / g }

/-- Gives a requester its first counter of the interval, unless it has one. -/
def Device.startAt (d : Device) (ch part job : Nat) (active : List (Nat × Nat)) (w : Nat) : Device :=
  if d.arb.any (fun e => e.ch == ch && e.part == part && e.job == job) then d
  else d.setCounter (startCounter ch part job active w)

/-- A request joins the demand at its channel (R429); a port that is retired has none (R450). -/
def State.demandAt (s : State) (ch part job units : Nat) : State :=
  let d := s.dev
  if 96 ≤ ch && d.portCap (ch - 96) == 0 then s
  else
    let d := d.startAt ch part job ((d.jobsAt ch part).map (fun j => (d.counter ch part j).share (s.jobWeight part j))) (s.jobWeight part job)
    let d := if ch < 96 then d
      else d.startAt ch part wholePart ((d.partsAt ch).map (fun p => (d.counter ch p wholePart).share (s.portWeight ch p))) (s.portWeight ch part)
    { s with dev := { d with demand := d.demand ++ [{ ch := ch, part := part, job := job, units := units }] } }

/-- The demand of a gang's access. -/
def State.demandOf (s : State) (g pa n : Nat) (heavy : Bool) : State :=
  match s.task? g with
  | some t => s.demandAt (channelOf pa) t.part t.job (unitsOf n heavy)
  | none => s

/-- The requester of the least counter ÷ weight; on a tie the first of the list, which ascends. -/
def leastOf (rs : List (Nat × Nat × Nat)) : Option Nat :=
  (rs.foldl (fun (m : Option (Nat × Nat × Nat)) e => match m with
    | some q => if e.2.1 * q.2.2 < q.2.1 * e.2.2 then some e else some q
    | none => some e) none).map (·.1)

/-- The request that a channel serves next (R429): the oldest of the job, within the partition, whose counter ÷ weight is
least. -/
def State.headAt (s : State) (ch : Nat) : Option Demand :=
  let d := s.dev
  let parts := (d.partsAt ch).mergeSort (· ≤ ·)
  let part := if ch < 96 then parts.head?
    else leastOf (parts.map (fun p => (p, (d.counter ch p wholePart).share (s.portWeight ch p))))
  part.bind (fun p =>
    (leastOf (((d.jobsAt ch p).mergeSort (· ≤ ·)).map (fun j => (j, (d.counter ch p j).share (s.jobWeight p j))))).bind (fun j =>
      d.demand.find? (fun e => e.ch == ch && e.part == p && e.job == j)))

/-- The request that a channel can serve now: its head, where the interval's capacity has room for it (R430). -/
def State.serveNext (s : State) (ch : Nat) : Option Demand := (s.headAt ch).filter (fun r => s.dev.hasRoom ch r.units)

/-- ARBITER_SERVE (R429): the head of a channel is served. -/
def execArbiterServe (ch : Nat) (s : State) : Out :=
  match s.serveNext ch with
  | none => .next s
  | some r =>
    let d := s.dev.setCounter ((s.dev.counter ch r.part r.job).serve r.units)
    let d := if ch < 96 then d else d.setCounter ((d.counter ch r.part wholePart).serve r.units)
    .next { s with dev := { d with demand := d.demand.erase r } }

end Sys2Proof.Machine
end

