-- ==== Sys2Proof/Machine/Control.lean ====
section
/-! DEFINITION. Control transfer, branch-target registers, EXIT, YIELD, constants, staging (R190 to R199). -/

namespace Sys2Proof.Machine

open Sys2Proof

/-- NOP (R195). -/
def execNop (t : Tail) (s : State) : Out := issue t s (fun _ s => .next s false)

/-- Ends lanes of a slot: they leave its mask, and with a running handler the interrupted slot's too (R196). -/
def State.endLanes (s : State) (g t k : Nat) (m : Mask) : State :=
  s.modTk g t (fun y => { y with
    dead := y.dead ||| m
    frame := y.frame.map (fun f => { f with ended := f.ended ||| m })
    slots := y.slots.modify k (fun x => { x with mask := x.mask &&& ~~~m }) })

/-- EXIT (R196). -/
def execExit (t : Tail) (s : State) : Out :=
  issue t s (fun c s => .next (if c.act == 0 then s else s.endLanes c.g c.t c.k c.act) false)

/-! ### Branch-target registers (R62) -/

/-- Drops the lines on their way to a register of a slot. -/
def State.dropLines (s : State) (g t k : Nat) (b : Nat → Bool) : State :=
  { s with ops := s.ops.filter (fun o => !(o.gang == g && o.tk == t && o.slot == k && (match o.kind with
      | .btLine r _ => b r
      | _ => false))) }

/-- Starts the stream of up to four lines from a target into a register's buffer; lines that cannot be translated
are not fetched (R190). -/
def Ctx.streamLines (c : Ctx) (s : State) (b : Nat) (target : Addr) : State :=
  match s.part? c.x.part with
  | none => s
  | some p =>
    (List.range 4).foldl (fun s i =>
      let line := target.toNat / 64 + i
      match s.translate c.core p c.x.tenant (64 * line) .fetch c.sup (c.reader s) with
      | (s, .pa ..) =>
        let d := s.delay
        (d.2.addOp (fun id => { id := id, gang := c.g, tk := c.t, slot := c.k, core := none,
                                at_ := s.now + 200 + i + d.1, kind := .btLine b line })).1
      | (s, _) => s) s

/-- Prepares a register: the target, PREP, the buffer discarded, the lines streamed (R190). -/
def Ctx.prepare (c : Ctx) (s : State) (n : BitVec 3) (target : Addr) : State :=
  let s := s.dropLines c.g c.t c.k (fun r => r == n.toNat)
  let s := s.modSlot c.g c.t c.k (fun x => { x with bregs := x.bregs.set n.toNat { target := target, state := .prep, lines := [] } })
  c.streamLines s n.toNat target

/-- PBT (R190). -/
def execPbt (t : Tail) (n : BitVec 3) (off : BitVec 30) (s : State) : Out :=
  issue t s (fun c s => .next (if c.act == 0 then s else c.prepare s n (c.sl.pc + 8 * off.signExtend 48)) false)

/-- PBTR (R191). -/
def execPbtr (t : Tail) (n : BitVec 3) (g : BitVec 6) (s : State) : Out :=
  issue t s (fun c s =>
    let v := c.tk.greg g.toNat
    if c.act == 0 then .next s false
    else if v.extractLsb' 48 16 != 0 then c.trap .xlate v.toNat
    else if v.extractLsb' 0 3 != 0 then c.trap .align v.toNat
    else .next (c.prepare s n (v.extractLsb' 0 48)) false)

/-- BTINV (R193). -/
def execBtinv (t : Tail) (mask : BitVec 8) (s : State) : Out :=
  issue t s (fun c s =>
    if c.act == 0 then .next s false else
    let s := s.dropLines c.g c.t c.k (fun r => mask.getLsbD r)
    let clear := fun (i : Nat) (b : BReg) => if mask.getLsbD i then { b with state := .unprep, lines := [] } else b
    .next (s.modSlot c.g c.t c.k (fun x => { x with bregs := x.bregs.mapIdx clear })) false)

/-- BTMOV (R193). -/
def execBtmov (t : Tail) (d r : BitVec 3) (s : State) : Out :=
  issue t s (fun c s =>
    if c.act == 0 || d == r then .next s false else
    let b := c.sl.bregs.getD r.toNat {}
    let s := s.dropLines c.g c.t c.k (fun q => q == d.toNat)
    let b' : BReg := { target := b.target, state := if b.state == .prep then .stale else b.state, lines := [] }
    .next (s.modSlot c.g c.t c.k (fun x => { x with bregs := x.bregs.set d.toNat b' })) false)

/-! ### XFER (R37, R192) -/

/-- How a slot comes to its target: from the buffer, waiting for the line, or by a refetch with a bubble (R62, R192). -/
def Ctx.aim (c : Ctx) (s : State) (n : BitVec 3) (b : BReg) (x : Slot) : Slot :=
  let line := b.target.toNat / 64
  let landed := b.lines.find? (fun l => l.1 == line)
  let coming := s.ops.find? (fun o => o.gang == c.g && o.tk == c.t && o.slot == c.k && (match o.kind with
    | .btLine r l => r == n.toNat && l == line
    | _ => false))
  match b.state, landed, coming with
  | .prep, some l, _ => { x with fline := some l, fetchOp := none }
  | .prep, none, some o => { x with fline := none, fetchOp := some o.id }
  | _, _, _ => { x with fline := none, fetchOp := none, fetchAt := c.clk + 2 }

/-- The copies that a new slot receives at a split: queue, push count, tags, registers with PREP as STALE, and the
order of the accesses issued before the split (R37, R55, R62, R127). -/
def Slot.splitTo (x : Slot) (pc : Addr) (mask : Mask) (join : Addr) : Slot :=
  { valid := true, pc := pc, mask := mask, join := some join, queue := x.queue, pushes := x.pushes, tags := x.tags,
    bregs := staleRegs x.bregs, hold := x.hold, homes := x.homes }

/-- Operations in flight of slot k count for the new slot as well; their results land in both queues (R37, R55). -/
def State.shareOps (s : State) (g t k : Nat) : State :=
  let both := fun (l : List Nat) => if l.contains k then [0, 1] else l
  let kind := fun (q : OpKind) => match q with
    | .result r => .result { r with qslots := both r.qslots }
    | q => q
  let loop := fun (q : OpKind) => match q with
    | .loop l => .loop { l with members := l.members ++
        (l.members.filter (fun m => m.tk == t && m.slot == k)).map (fun m => { m with slot := 1 - k }) }
    | q => q
  { s with ops := s.ops.map (fun o =>
      if o.gang != g then o
      else if o.tk == t then { o with tagSlots := both o.tagSlots, kind := loop (kind o.kind) }
      else { o with kind := loop o.kind }) }

/-- The link register's write: g62 two clocks after issue (R192). -/
def Ctx.link (c : Ctx) (s : State) : State :=
  let r : Result := { greg := some (62, false), mask := c.act, vals := splat ((c.sl.pc + 8).setWidth 64), inHandler := c.sup }
  (s.addOp (fun id => { id := id, gang := c.g, tk := c.t, slot := c.k, core := some c.core, at_ := c.clk + 2, mask := c.act,
                        kind := .result r })).1

/-- A STALE register is PREP after a transfer through it (R192). -/
def Ctx.refetched (c : Ctx) (s : State) (n : BitVec 3) : State :=
  let fix := fun (b : BReg) => if b.state == .stale then { b with state := .prep } else b
  s.modSlot c.g c.t c.k (fun x => { x with bregs := x.bregs.modify n.toNat fix })

/-- The split of R37, with the other slot free or taken. The stack is kept newest first. A new slot obeys the GAP of the
XFER (R348). -/
def Ctx.split (c : Ctx) (tl : Tail) (s : State) (n : BitVec 3) (b : BReg) (join : Addr) : Res :=
  let m := c.sl.mask
  let rest := m &&& ~~~c.act
  let next := c.sl.pc + 8
  let reconv : StackRec := { pc := join, mask := m, join := c.sl.join, owner := c.k, isPath := false }
  let other := (c.tk.slots.getD (1 - c.k) {}).valid
  let depth := c.tk.stack.length + if other then 2 else 1
  if 64 < depth then c.trap .divstk
  else if other then
    let path : StackRec := { pc := next, mask := rest, join := some join, owner := c.k, isPath := true }
    let here := fun (x : Slot) => c.aim s n b { x with mask := c.act, join := some join }
    let s := s.modTk c.g c.t (fun y => { y with stack := path :: reconv :: y.stack, slots := y.slots.modify c.k here })
    .jump ((c.refetched s n).splitIn c.g c.t (1 - c.k)) false b.target
  else
    let s := s.shareOps c.g c.t c.k
    let s := c.refetched s n
    let fresh := { c.aim s n b (c.sl.splitTo b.target c.act join) with lastIssue := some c.clk, gap := tl.gap.toNat }
    let here := fun (x : Slot) => { x with mask := rest, join := some join }
    let s := s.modTk c.g c.t (fun y => { y with
      stack := reconv :: y.stack, slots := (y.slots.set (1 - c.k) fresh).modify c.k here })
    .next (s.goto c.g c.t (1 - c.k) b.target) false

/-- XFER (R192). -/
def execXfer (t : Tail) (n j : BitVec 3) (link split : Bool) (s : State) : Out :=
  issue t s (fun c s =>
    let b := c.sl.bregs.getD n.toNat {}
    let jb := c.sl.bregs.getD j.toNat {}
    let linked := fun (s : State) => if link then c.link s else s
    if b.state == .unprep then c.trap .xferunp
    else if c.act == c.sl.mask then
      let s := (linked s).modSlot c.g c.t c.k (fun x => c.aim s n b x)
      .jump (c.refetched s n) false b.target
    else if c.act == 0 then .next s false
    else if !split then c.trap .xferdiv
    else if jb.state == .unprep then c.trap .xferunp
    else c.split t (linked s) n b jb.target)

/-! ### ICINV (R194) -/

/-- The writes of a slot that are not performed (R130, R194). -/
def State.ownWrites (s : State) (g t k : Nat) : List Nat :=
  (s.ops.filter (fun o => o.gang == g && o.tk == t && o.tagSlots.contains k && (match o.kind with
    | .store accs | .atom _ accs _ => accs.any (fun a => !a.done)
    | .relE a _ => !a.done
    | .barrier .. => true
    | _ => false))).map (·.id)

/-- Waits until operations of the slot are performed, and what stands before them in the grove's FIFOs, as a release at
.dev does (R130). None: nothing to wait for. -/
def Ctx.drainDev (c : Ctx) (s : State) (own : List Nat) : Option Res :=
  let f := s.fifoAll (groveOf c.core)
  if own.isEmpty && f ≤ s.now then none else some (.stall s (.drain own f))

/-- The accesses of a slot that are not performed: a release comes after the reads too (R130, R133, R134). -/
def State.ownAccs (s : State) (g t k : Nat) : List Nat :=
  (s.ops.filter (fun o => o.gang == g && o.tk == t && o.tagSlots.contains k && (match o.kind with
    | .load _ _ accs _ | .store accs | .atom _ accs _ => accs.any (fun a => !a.done)
    | .relE a _ | .acqE _ a => !a.done
    | .subl _ | .barrier .. => true
    | _ => false))).map (·.id)

/-- Discards fetched code in [lo, hi) on a core, and makes STALE the registers whose target lies there (R194). -/
def State.discardCode (s : State) (core lo hi : Nat) : State :=
  let hit := fun (line : Nat) => decide (64 * line < hi) && decide (lo < 64 * line + 64)
  let reg := fun (b : BReg) => { b with
    lines := b.lines.filter (fun l => !hit l.1)
    state := if b.state == .prep && decide (lo ≤ b.target.toNat) && decide (b.target.toNat < hi) then .stale else b.state }
  let fix := fun (x : Slot) => { x with fline := x.fline.filter (fun l => !hit l.1), bregs := x.bregs.map reg }
  { s with gangs := s.gangs.map (fun g => if g.core == some core then
      { g with tks := g.tks.map (fun y => if y.active.isSome then { y with slots := y.slots.map fix } else y) } else g) }

/-- ICINV (R194). -/
def execIcinv (t : Tail) (base len : BitVec 6) (s : State) : Out :=
  issueHeld t s (fun c s =>
    if c.act == 0 then .next s false
    else match c.drainDev s (s.ownWrites c.g c.t c.k) with
    | some r => r
    | none =>
      let lo := (c.tk.greg base.toNat).toNat
      let hi := min (lo + (c.tk.greg len.toNat).toNat) (2 ^ 48)
      .next (if hi ≤ lo then s else s.discardCode c.core lo hi) false)

/-! ### YIELD (R197) -/

/-- The checks of a scratchpad object's address in a register: an offset of 32 bits, inside the allocation, aligned
(R111, R227, R232). -/
def Ctx.objFault (c : Ctx) (v : BitVec 64) (size : Nat) : Option Res :=
  if v.extractLsb' 32 32 != 0 || c.x.foot.sp ≤ (v.extractLsb' 0 32).toNat then some (c.trap .prot v.toNat)
  else if v.toNat % size != 0 then some (c.trap .align v.toNat)
  else none

/-- YIELD (R197): its continuation is not prepared, so a bubble comes before it. -/
def execYield (t : Tail) (cond : YieldCond) (off : BitVec 18) (s : State) : Out :=
  issue t s (fun c s =>
    let cont := c.sl.pc + 8 * off.signExtend 48
    let bubble := s.modSlot c.g c.t c.k (fun x => { x with fline := none, fetchOp := none, fetchAt := c.clk + 2 })
    if c.act == 0 then .next s false
    else if c.act != c.sl.mask then c.trap .xferdiv
    else match cond with
    | .none => .wait bubble .yieldReady .none cont
    | .barrier g =>
      let v := c.tk.greg g.toNat
      if v.extractLsb' 33 31 != 0 then c.trap .qerr v.toNat
      else match c.objFault (v.extractLsb' 0 32 |>.setWidth 64) 16 with
      | some r => r
      | none => .wait bubble (.yieldBarrier (v.extractLsb' 0 32).toNat (v.getLsbD 32)) .none cont)

/-! ### Constants (R199) -/

/-- MOVI (R199). -/
def execMovi (t : Tail) (d : Dst) (imm : BitVec 18) (s : State) : Out :=
  issue t s (fun c s =>
    match d with
    | .g _ _ => c.deliver s 2 d 2 (splat (imm.signExtend 64)) noFlags none
    | _ => c.deliver s 2 d 1 (splat ((imm.signExtend 32).setWidth 64)) noFlags none)

/-- MOVW (R199). -/
def execMovw (t : Tail) (d : Dst) (imm : BitVec 32) (s : State) : Out :=
  issue t s (fun c s => c.deliver s 2 d 1 (splat (imm.setWidth 64)) noFlags none)

/-! ### Staging (R42, R57, R198) -/

/-- The clocks that moving k registers takes (R42, R198). -/
def stageClocks (k : Nat) : Nat := 8 + (k + 3) / 4

/-- An m register's lane in the core's main file (R16, R29). -/
def Tussock.mainAddr (t : Tussock) (m l : Nat) : Nat := t.oct * 2 ^ 18 + t.mBase + 128 * m + 4 * l

/-- Reads m registers of lanes through ECC; an error that lasts lies in the tussock's own context (R412, R435). -/
def State.mainRead (s : State) (core : Nat) (y : Tussock) (ms : List Nat) (lanes : Mask) (p : Nat) (r : Reader) : State × Bool :=
  if s.dev.injs.all (fun i => i.array != 2 || i.home != core) then (s, false)
  else ms.foldl (fun a m => (lanesOf lanes).foldl (fun (a : State × Bool) l =>
    let e := a.1.eccRead 2 core (y.mainAddr m l) 4 p r
    (e.s, a.2 || e.lasting)) a) (s, false)

/-- STAGE (R198). -/
def execStage (t : Tail) (n : BitVec 5) (cm1 : BitVec 5) (m : BitVec 8) (s : State) : Out :=
  issue t s (fun c s =>
    let cnt := cm1.toNat + 1
    let d := n.toNat
    let f := m.toNat
    let outside := c.tk.home.zipIdx.any (fun e => (e.2 < d || d + cnt ≤ e.2) && (match e.1 with
      | some h => decide (f ≤ h) && decide (h < f + cnt)
      | none => false))
    if c.tk.slots.all (·.valid) || c.tk.m.length < f + cnt || outside then c.trap .stage
    else
      let r := s.mainRead c.core c.tk ((List.range cnt).map (fun i => f + i)) c.act c.x.part (c.reader s)
      if r.2 then c.lostOwn r.1
      else
        let s := r.1.modTk c.g c.t (fun y => { y with home := (List.range cnt).foldl (fun h i => h.set (d + i) (some (f + i))) y.home })
        if c.act == 0 then .next s false
        else .next (c.longOp s (stageClocks cnt) (.stage ((List.range cnt).map (fun i => (d + i, f + i, []))))) true)

/-- SPILL (R198). -/
def execSpill (t : Tail) (n : BitVec 5) (rel : Bool) (cm1 : BitVec 5) (s : State) : Out :=
  issue t s (fun c s =>
    let rs := (List.range (cm1.toNat + 1)).map (fun i => n.toNat + i)
    if c.tk.slots.all (·.valid) || rs.any (fun r => (c.tk.home.getD r none).isNone) then c.trap .stage
    else
      let f := c.fastRead s rs
      if f.2.1 then c.lostOwn f.1
      else
        let regs := rs.map (fun r => ((c.tk.home.getD r none).getD 0, f.2.2.tk.nreg r))
        let s := if rel then f.1.freeN c.g c.t rs else f.1
        if c.act == 0 then .next s false
        else .next (c.longOp s (stageClocks rs.length) (.spill regs)) true)

end Sys2Proof.Machine
end

