-- ==== Sys2Proof/Machine/Memory.lean ====
section
/-! DEFINITION. Addresses and accesses of lane instructions in both spaces, loads and stores, prefetch, translation
registers and the tag table (R95, R98, R101, R226 to R238). -/

namespace Sys2Proof.Machine

open Sys2Proof

/-! ### Global addresses -/

/-- A lane's access: lane, virtual address, physical address. -/
abbrev LanePa := Nat × Nat × Nat

/-- The offsets of the active lanes: the zero-extended operand plus a signed number of bytes (R98, R234). -/
def Ctx.offsets (c : Ctx) (v : Lanes 64) (bytes : Int) : List (Nat × Int) :=
  (lanesOf c.act).map (fun l => (l, ((v.at_ l).toNat % 2 ^ 32 : Nat) + bytes))

/-- A virtual address from a base and an offset, as 64 bits show it. -/
def vaOf (base : Addr) (o : Int) : Nat := (((base.toNat : Int) + o) % 2 ^ 64).toNat

/-- Translates each lane's access and keeps the results (R98, R398). -/
def Ctx.translateLanes (c : Ctx) (s : State) (p : Partition) (tr : BitVec 3) (base : Addr) (os : List (Nat × Int)) (size : Nat)
    (acc : Access) : State × List (Nat × Nat × Walk) :=
  os.foldl (fun a o =>
    let r := a.1.tAddr c.g c.t c.core p c.x.tenant c.sup tr o.2 size acc
    (r.1, a.2 ++ [(o.1, vaOf base o.2, r.2)])) (s, [])

/-- The checks of R227 for a lane instruction through a t register, and the addresses where all pass. `dirty`: the access
writes in any case, so D is set (R393). -/
def Ctx.globalLanes (c : Ctx) (s : State) (p : Partition) (tr : BitVec 3) (os : List (Nat × Int)) (size : Nat) (acc : Access)
    (kind : Nat) (locks : Bool) (dirty : Bool := true) : Except Res (State × List LanePa) :=
  let r := c.tk.t.getD tr.toNat {}
  let vas := os.map (fun o => (o.1, vaOf r.base o.2))
  let bad := vas.filter (fun a => a.2 % size != 0)
  if !r.bound then .error (c.trap .prot (((vas.map (·.2)).headD 0)))
  else if !bad.isEmpty then .error (.trap { code := .align, lanes := maskOfList (bad.map (·.1)), addr := (bad.map (·.2)).headD 0 })
  else
    let t := c.translateLanes s p tr r.base os size acc
    let fails := t.2.filter (fun e => match e.2.2 with
      | .pa .. => false
      | _ => true)
    match c.walkFault t.1 kind (fails.map (fun e => (e.1, e.2.2, e.2.1))) with
    | some res => .error res
    | none =>
      match if locks then c.lockFault t.1 true (acc == .write) vas size else none with
      | some res => .error res
      | none =>
        let s := if acc == .write && dirty then vas.foldl (fun s a => s.setDirty p c.x.tenant a.2) t.1 else t.1
        .ok (s, t.2.map (fun e => (e.1, e.2.1, (match e.2.2 with
          | .pa a .. => a
          | _ => 0))))

/-! ### When an access is performed -/

/-- The reference clock by which every earlier write of the slot is performed, bound writes apart (R130, R138):
those at homes, those of the grove's FIFOs, and those at the banks. -/
def Ctx.releaseAt (c : Ctx) (s : State) (sl : Slot) : Nat :=
  let homes := (sl.homes.filter (fun e => e.1 < 96)).foldl (fun m e => max m e.2) 0
  let banks := s.banksAt c.g c.t c.k - c.clk
  max (max homes (s.fifoAll (groveOf c.core))) (s.now + 2 * banks)

/-- The key in `Slot.homes` of a home's bound writes (R138). -/
def boundKey (home : Nat) : Nat := 200 + home

/-- The binding that a virtual address of a tenant lies in (R138). -/
def Partition.bindingOf (p : Partition) (tenant va : Nat) : Option Binding :=
  p.binds.find? (fun b => b.tenant == tenant && b.lo ≤ va && va < b.lo + b.len)

/-- The clock at which an access of the slot reaches a home: after its latency, after the slot's earlier accesses
there (R134), behind the grove's FIFO (R130), and for a release after the writes before it. -/
def Ctx.homeAt (c : Ctx) (s : State) (sl : Slot) (home base : Nat) (after : Nat) : Nat :=
  max (max base after) (max (max (nextAt sl.homes home) (nextAt sl.homes (boundKey home))) (s.fifoAt (groveOf c.core) home))

/-- The accesses of lanes to global memory. `after` is the clock that a release waits for. A write into a bound
range counts for its binding only (R138). -/
def Ctx.globalAccs (c : Ctx) (s : State) (p : Partition) (ls : List LanePa) (size : Nat) (act : Nat → AccAct) (after : Nat) :
    State × List Acc :=
  let d := s.delay
  let base := s.now + 100 + d.1
  let sl := (s.slot? c.g c.t c.k).getD {}
  let accs := ls.map (fun e =>
    ({ lane := e.1, glob := true, addr := e.2.2, size := size, act := act e.1,
       at_ := c.homeAt s sl (homeOf p e.2.2) base after, leaf := s.leafOf p c.x.tenant e.2.1 } : Acc))
  let writes := match act 0 with
    | .read => false
    | _ => true
  let notes := (ls.zip accs).foldl (fun (hs : List (Nat × Nat)) (e : LanePa × Acc) =>
    let h := homeOf p e.1.2.2
    let bound := writes && (p.bindingOf c.x.tenant e.1.2.1).isSome
    noteAt hs (if bound then boundKey h else h) e.2.at_) sl.homes
  let s := d.2.modSlot c.g c.t c.k (fun x => { x with homes := notes })
  let s := if writes then s.modPart p.num (fun q => { q with binds := q.binds.map (fun b =>
      (ls.zip accs).foldl (fun (b : Binding) (e : LanePa × Acc) =>
        if b.tenant == c.x.tenant && b.lo ≤ e.1.2.1 && e.1.2.1 < b.lo + b.len then { b with drain := max b.drain e.2.at_ } else b) b) })
    else s
  (s, accs)

/-- A long-latency operation on global memory: it lands on the reference clock. -/
def Ctx.globalOp (c : Ctx) (s : State) (at_ : Nat) (kind : OpKind) (p6 : Option Bool) : State × Nat :=
  s.addOp (fun id => { id := id, gang := c.g, tk := c.t, slot := c.k, core := none, src := some c.core, who := some (c.x.part, c.x.tenant),
                       at_ := at_, tag := c.tag, tagSlots := [c.k], mask := c.act, p6 := p6, kind := kind })

/-- A load of global memory: its value lands as many of the granule's own clocks after issue as `at_` lies reference clocks
ahead (R373, R424). -/
def Ctx.globalLoad (c : Ctx) (s : State) (at_ : Nat) (kind : OpKind) (p6 : Option Bool) : State × Nat :=
  s.addOp (fun id => { id := id, gang := c.g, tk := c.t, slot := c.k, core := some c.core, src := some c.core,
                       who := some (c.x.part, c.x.tenant), at_ := c.clk + (at_ - s.now), tag := c.tag, tagSlots := [c.k],
                       mask := c.act, p6 := p6, kind := kind })

/-- An acquire holds back the slot's class of R230 until its operation completes. -/
def Ctx.holdFor (c : Ctx) (s : State) (op : Nat) (acquire : Bool) : State :=
  if acquire then s.modSlot c.g c.t c.k (fun x => { x with hold := op :: x.hold }) else s

/-- A release of any scope lets the slot's writes queue at their homes ahead of what the grove issues later (R130). -/
def Ctx.releaseFifo (c : Ctx) (s : State) : State :=
  s.pushFifo (groveOf c.core) ((s.slot? c.g c.t c.k).getD {}).homes

/-- The clock that a store or atomic waits for, and the state after its release (R130). -/
def Ctx.releaseFor (c : Ctx) (s : State) (release : Bool) (scope : Nat) : State × Nat :=
  if !release then (s, 0)
  else
    let s := c.releaseFifo s
    (s, if 4 ≤ scope then c.releaseAt s ((s.slot? c.g c.t c.k).getD {}) else 0)

/-- Reads the storage under a load's lanes and judges its errors; a lasting one traps (R436, R438). Answers the bits
that unseen errors invert, by lane order. -/
def Ctx.eccLanes (c : Ctx) (s : State) (p : Partition) (glob : Bool) (as : List Nat) (size : Nat) :
    Except Res (State × List (BitVec 128)) :=
  if s.sound then .ok (s, []) else
  let r := as.foldl (fun (x : State × List (BitVec 128) × Option Nat) a =>
    let e := if glob then x.1.eccGlobal p a size (c.reader s)
      else x.1.eccRead 1 c.core (c.x.spBase + a) size p.num (c.reader s)
    (e.s, x.2.1 ++ [e.flip], x.2.2.orElse (fun _ => e.bad.map (fun w => if glob then w else 0))))
    (s, [], none)
  match r.2.2 with
  | some a => .error (.out (.next (r.1.takeTrap c.g c.t c.k { code := .mchk, lanes := c.sl.mask, addr := a })))
  | none => .ok (r.1, r.2.1)

/-- Puts the inverted bits of unseen errors into the accesses. -/
def flipped (accs : List Acc) (fl : List (BitVec 128)) : List Acc :=
  if fl.isEmpty then accs else (accs.zip fl).map (fun e => { e.1 with flip := e.2 })

/-! ### Scratchpad accesses (R101) -/

/-- The words of an access. -/
def wordsOf (addr size : Nat) : List Nat := (List.range ((addr + size - 1) / 4 - addr / 4 + 1)).map (fun k => addr / 4 + k)

/-- The words of one instruction in the order in which the banks serve them, each once (R101). -/
def spOrder (as : List (Nat × Nat)) (size : Nat) : List Nat := (as.flatMap (fun a => wordsOf a.2 size)).dedup

/-- How many words of the order a bank serves before one. -/
def servedBefore (order : List Nat) (w : Nat) : Nat :=
  ((order.takeWhile (fun x => x != w)).filter (fun x => x % 64 == w % 64)).length

/-- The extra latency of bank conflicts (R101). -/
def conflicts (order : List Nat) : Nat :=
  (order.map (fun w => (order.filter (fun x => x % 64 == w % 64)).length)).foldl max 1 - 1

/-- The checks of R227 for scratchpad lanes: the allocation, alignment, range locks, then windows (R106). -/
def Ctx.spCheck (c : Ctx) (s : State) (as : List (Nat × Nat)) (size align : Nat) (writes locks : Bool) : Option Res :=
  let out := as.filter (fun a => c.x.foot.sp ≤ a.2)
  let odd := as.filter (fun a => a.2 % align != 0)
  match out, odd with
  | a :: _, _ => some (.trap { code := .prot, lanes := maskOfList (out.map (·.1)), addr := a.2 })
  | [], a :: _ => some (.trap { code := .align, lanes := maskOfList (odd.map (·.1)), addr := a.2 })
  | [], [] =>
    match if locks then c.lockFault s false writes as size else none with
    | some r => some r
    | none => c.touch s (as.map (fun a => (a.2, a.2 + size)))

/-- The accesses of lanes to scratchpad. A read is made 10 clocks after issue and behind the words of the same instruction that
its bank serves first (R101); a plain write is performed 10 clocks after issue. Only an own access to the same bytes that
is not performed yet holds one back (R134). -/
def Ctx.spAccs (c : Ctx) (s : State) (as : List (Nat × Nat)) (size : Nat) (act : Nat → AccAct) (after : Nat) : List Acc :=
  let order := spOrder as size
  let ps := s.bankPend c.g c.t c.k
  as.map (fun a =>
    let k := match act a.1 with
      | .write _ | .nib .. => (false, true)
      | .rmw .. => (true, true)
      | .read => (true, false)
    let serve := if k.1 then (wordsOf a.2 size).foldl (fun m w => max m (servedBefore order w)) 0 else 0
    { lane := a.1, glob := false, addr := a.2, size := size, act := act a.1,
      at_ := max (max (c.clk + 10 + serve) (bankNext ps a.2 size k.2)) after })

/-- The clock at which a scratchpad load or atomic lands (R21, R101). -/
def Ctx.spLands (c : Ctx) (as : List (Nat × Nat)) (size : Nat) (accs : List Acc) : Nat :=
  accs.foldl (fun m a => max m a.at_) (c.clk + 20 + conflicts (spOrder as size))

/-- The gang-relative addresses of the active lanes (R234). -/
def Ctx.spAddrs (c : Ctx) (v : Lanes 64) (bytes : Int) : List (Nat × Nat) :=
  (c.offsets v bytes).map (fun o => (o.1, (o.2 % 2 ^ 32).toNat))

/-! ### Loads and stores (R234) -/

/-- The size in bytes of a size code. -/
def sizeOf (size : BitVec 3) : Nat := 2 ^ size.toNat

/-- The registers of a size code. -/
def wordsFor (size : BitVec 3) : Nat := if size == 4 then 4 else if size == 3 then 2 else 1

/-- OFF6 in bytes. -/
def offBytes (off : BitVec 6) (scale : Nat) : Int := off.toInt * scale

/-- A load to a g register is performed once, at the lowest active lane (R234). -/
def onceFor (d : Dst) {α : Type} (ls : List α) : List α :=
  match d with
  | .g _ _ => ls.take 1
  | _ => ls

/-- The partition of the issuing gang. -/
def Ctx.part (c : Ctx) (s : State) : Partition := (s.part? c.x.part).getD default

/-- LDG (R234). -/
def execLdg (t : Tail) (md : MemMod) (d : Dst) (tr : BitVec 3) (a : Src) (off : BitVec 6) (s : State) : Out :=
  issueHeld t s (fun c s =>
    let size := sizeOf md.size
    let p := c.part s
    c.checked s [(a, .int, 1)]
      (fun rd s =>
        match c.globalLanes s p tr (onceFor d (c.offsets (rd.v.headD []) (offBytes off size))) size .read 0 true with
        | .error r => .error r
        | .ok (s, ls) =>
          match c.eccLanes s p true (ls.map (·.2.2)) size with
          | .error r => .error r
          | .ok (s, fl) => .ok (s, (ls, fl)))
      (fun rd s q =>
        let g := c.globalAccs s p q.1 size (fun _ => .read) 0
        let r := g.1.delay
        let due := g.2.foldl (fun m x => max m x.at_) 0 + 100 + r.1
        let o := c.globalLoad r.2 due (.load (ldest d (wordsFor md.size)) md.sx (flipped g.2 q.2) (md.kind == 2)) rd.p6
        .next (c.holdFor o.1 o.2 (md.kind == 2)) true))

/-- A long-latency operation of the core that lands at a clock of the core. -/
def Ctx.coreOp (c : Ctx) (s : State) (at_ : Nat) (kind : OpKind) (p6 : Option Bool) : State × Nat :=
  s.addOp (fun id => { id := id, gang := c.g, tk := c.t, slot := c.k, core := some c.core, at_ := at_, tag := c.tag,
                       tagSlots := [c.k], mask := c.act, p6 := p6, kind := kind })

/-- LDP (R234, R235). -/
def execLdp (t : Tail) (md : MemMod) (d : Dst) (a : Src) (off : BitVec 6) (s : State) : Out :=
  issueHeld t s (fun c s =>
    let size := sizeOf md.size
    let as := fun (rd : Read) => onceFor d (c.spAddrs (rd.v.headD []) (offBytes off size))
    c.checked s [(a, .int, 1)]
      (fun rd s =>
        match c.spCheck s (as rd) size size false true with
        | some r => .error r
        | none => c.eccLanes s (c.part s) false ((as rd).map (·.2)) size)
      (fun rd s fl =>
        let g := c.spAccs s (as rd) size (fun _ => .read) 0
        let kind := OpKind.load (ldest d (wordsFor md.size)) md.sx (flipped g fl) (md.kind == 2)
        let o := c.coreOp s (c.spLands (as rd) size g) kind rd.p6
        .next (c.holdFor o.1 o.2 (md.kind == 2)) true))

/-- Store data at a size: the low bytes of the operand, or n4k (R234). -/
def storeData (rd : Read) (n : Nat) (size : BitVec 3) (l : Nat) : BitVec 128 :=
  if size == 4 then (rd.wide.getD n []).at_ l else (arg rd.v n l).setWidth 128

/-- STG (R234). -/
def execStg (t : Tail) (md : MemMod) (tr : BitVec 3) (a b : Src) (off : BitVec 6) (s : State) : Out :=
  issueHeld t s (fun c s =>
    let size := sizeOf md.size
    let p := c.part s
    c.checked s [(a, .int, 1), (b, .int, wordsFor md.size)]
      (fun rd s => c.globalLanes s p tr (c.offsets (rd.v.headD []) (offBytes off size)) size .write 1 true)
      (fun rd s ls =>
        let rel := c.releaseFor s (md.kind == 2) md.scope.toNat
        let g := c.globalAccs rel.1 p ls size (fun l => .write (storeData rd 1 md.size l)) rel.2
        .next (c.globalOp g.1 0 (.store g.2) rd.p6).1 true))

/-- The clock that a release at a bank waits for, and the state after its release (R130). -/
def Ctx.spRelease (c : Ctx) (s : State) (release : Bool) : State × Nat :=
  if release then (c.releaseFifo s, s.banksAt c.g c.t c.k) else (s, 0)

/-- The check of scratchpad lanes as `Ctx.checked` wants it. -/
def Ctx.spOk (c : Ctx) (s : State) (as : List (Nat × Nat)) (size : Nat) (writes : Bool) : Except Res (State × Unit) :=
  match c.spCheck s as size size writes true with
  | some r => .error r
  | none => .ok (s, ())

/-- STP (R234, R235). -/
def execStp (t : Tail) (md : MemMod) (a b : Src) (off : BitVec 6) (s : State) : Out :=
  issueHeld t s (fun c s =>
    let size := sizeOf md.size
    let as := fun (rd : Read) => c.spAddrs (rd.v.headD []) (offBytes off size)
    c.checked s [(a, .int, 1), (b, .int, wordsFor md.size)] (fun rd s => c.spOk s (as rd) size true)
      (fun rd s _ =>
        let rel := c.spRelease s (md.kind == 2)
        let g := c.spAccs rel.1 (as rd) size (fun l => .write (storeData rd 1 md.size l)) rel.2
        .next (c.coreOp rel.1 0 (.store g) rd.p6).1 true))

/-- What ST.N4 writes in a lane: its nibble of the byte of its element (R236). -/
def nibAct (es : List (Nat × Int)) (rd : Read) (l : Nat) : AccAct :=
  .nib ((((es.find? (fun e => e.1 == l)).map (·.2)).getD 0) % 2 == 1) ((arg rd.v 1 l).extractLsb' 0 4)

/-- ST.N4 (R117, R236): element offsets; even elements lie in bits [3:0]. -/
def execStN4 (t : Tail) (md : N4Mod) (tr : BitVec 3) (a b : Src) (off : BitVec 6) (s : State) : Out :=
  issueHeld t s (fun c s =>
    let p := c.part s
    let ws : List Want := [(a, .int, 1), (b, .int, 1)]
    let es := fun (rd : Read) => c.offsets (rd.v.headD []) off.toInt
    let os := fun (rd : Read) => (es rd).map (fun e => (e.1, e.2 / 2))
    let as := fun (rd : Read) => (os rd).map (fun o => (o.1, (o.2 % 2 ^ 32).toNat))
    if md.sp then
      c.checked s ws (fun rd s => c.spOk s (as rd) 1 true)
        (fun rd s _ =>
          let rel := c.spRelease s (md.kind == 2)
          let g := c.spAccs rel.1 (as rd) 1 (nibAct (es rd) rd) rel.2
          .next (c.coreOp rel.1 0 (.store g) rd.p6).1 true)
    else
      c.checked s ws (fun rd s => c.globalLanes s p tr (os rd) 1 .write 2 true)
        (fun rd s ls =>
          let rel := c.releaseFor s (md.kind == 2) md.scope.toNat
          let g := c.globalAccs rel.1 p ls 1 (nibAct (es rd) rd) rel.2
          .next (c.globalOp g.1 0 (.store g.2) rd.p6).1 true))

/-! ### PREF, TBIND, TINV (R233, R237) -/

/-- Whether a PREF of a lane asks for something: its register is bound and its offset aligned to a line (R237). -/
def prefAsks (r : TReg) (o : Int) : Bool := r.bound && o % 128 == 0 && decide (0 ≤ (r.base.toNat : Int) + o)

/-- PREF: fills TLB entries and traps on nothing; a far line brought into the far-line buffer changes nothing that a
program reads (R17, R97, R237). -/
def execPref (t : Tail) (_far : Bool) (tr : BitVec 3) (a : Src) (off : BitVec 6) (s : State) : Out :=
  issue t s (fun c s =>
    match c.read s [(a, .int, 1)], s.part? c.x.part with
    | .error r, _ => r
    | .ok rd, some p =>
      let r := c.tk.t.getD tr.toNat {}
      let fill := fun (s : State) (o : Nat × Int) =>
        if prefAsks r o.2 then (s.translate c.core p c.x.tenant (vaOf r.base o.2) .read c.sup (c.reader s)).1 else s
      let s := (c.offsets (rd.v.headD []) (offBytes off 128)).foldl fill rd.s
      .next (match rd.p6 with
        | some _ => c.longOp s 1 .tagOnly rd.p6
        | none => s) rd.p6.isSome
    | .ok rd, none => .next rd.s false)

/-- TBIND: the binding is recorded 12 clocks after issue on a TLB hit, after the walk's reads otherwise (R98, R233). -/
def execTbind (t : Tail) (n : BitVec 3) (g : BitVec 6) (s : State) : Out :=
  issue t s (fun c s =>
    let v := c.tk.greg g.toNat
    match s.part? c.x.part with
    | none => .next s false
    | some p =>
      if c.act == 0 then .next s false
      else if v.extractLsb' 48 16 != 0 then c.trap .xlate v.toNat
      else
        let hit := (s.core c.core).tlb.any (fun e => e.hits p.num c.x.tenant v.toNat)
        let r := s.translate c.core p c.x.tenant v.toNat .read c.sup (c.reader s)
        match r.2 with
        | .pa _ _ _ _ _ _ _ lines =>
          let d := r.1.delay
          let lat := if hit then 12 else 12 + lines.length * (240 + d.1)
          .next (c.longOp d.2 lat (.tbind n.toNat { bound := true, base := v.extractLsb' 0 48 })) true
        | w =>
          match c.walkFault r.1 0 ((lanesOf c.act).map (fun l => (l, w, v.toNat))) with
          | some res => res
          | none => .next s false)

/-- TINV (R233). -/
def execTinv (t : Tail) (mask : BitVec 8) (s : State) : Out :=
  issue t s (fun c s =>
    let clear := fun (i : Nat) (r : TReg) => if mask.getLsbD i then { r with bound := false } else r
    .next (if c.act == 0 then s else s.modTk c.g c.t (fun y => { y with t := y.t.mapIdx clear })) false)

/-! ### The tag table (R107, R108, R238) -/

/-- The set of a key. -/
def TagTable.setOf (t : TagTable) (key : Nat) : Nat := key / t.z % t.sets
/-- The slots of a key's set. -/
def TagTable.ways (t : TagTable) (key : Nat) : List Nat := (List.range 4).map (fun w => 4 * t.setOf key + w)
/-- The slot that holds a key's line. -/
def TagTable.hit (t : TagTable) (key : Nat) : Option Nat := (t.ways key).find? (fun n => t.lines.getD n none == some (key / t.z))
/-- Makes a slot the most recently used of its set. -/
def TagTable.touch (t : TagTable) (n : Nat) : TagTable := { t with used := t.used.set n (t.stamp + 1), stamp := t.stamp + 1 }

/-- The victim of an install: the lowest invalid way, else the least recently used (R108). -/
def TagTable.victim (t : TagTable) (key : Nat) : Nat :=
  match (t.ways key).find? (fun n => (t.lines.getD n none).isNone) with
  | some n => n
  | none => (t.ways key).foldl (fun m n => if t.used.getD n 0 < t.used.getD m 0 then n else m) (4 * t.setOf key)

/-- One lane's PTAG: D, and the table. -/
def TagTable.ptag (t : TagTable) (key : Nat) : BitVec 128 × TagTable :=
  match t.hit key with
  | some n => (BitVec.ofNat 128 n, t.touch n)
  | none => (0xFFFFFFFF, t)

/-- One lane's PTSET: D to D + 3, and the table (R238). -/
def TagTable.ptset (t : TagTable) (key : Nat) : BitVec 128 × TagTable :=
  match t.hit key with
  | some n => (BitVec.ofNat 64 (key / t.z * t.z) ++ 2#32 ++ BitVec.ofNat 32 n, t.touch n)
  | none =>
    let n := t.victim key
    let old := t.lines.getD n none
    let d := BitVec.ofNat 64 ((old.map (fun x => x * t.z)).getD 0) ++ (if old.isSome then 1#32 else 0#32) ++ BitVec.ofNat 32 n
    (d, { t with lines := t.lines.set n (some (key / t.z)) }.touch n)

/-- One lane's PTINV: D, and the table. -/
def TagTable.ptinv (t : TagTable) (key : Nat) : BitVec 128 × TagTable :=
  match t.hit key with
  | some n => (BitVec.ofNat 128 n, { t with lines := t.lines.set n none })
  | none => (0xFFFFFFFF, t)

/-- A tag-table instruction: lanes in ascending order, the values after a delay (R183, R229). -/
def tagOp (t : Tail) (s : State) (d : Dst) (k : Src) (words : Nat) (f : TagTable → Nat → BitVec 128 × TagTable) : Out :=
  issue t s (fun c s =>
    match c.read s [(k, .int, 2)] with
    | .error r => r
    | .ok rd =>
      if c.act == 0 then .next rd.s false else
      match (rd.s.gang? c.g).bind (·.tags) with
      | none => c.trap .qerr
      | some tab =>
        let r := (lanesOf c.act).foldl (fun (x : TagTable × Lanes 128) l =>
          let q := f x.1 (arg rd.v 0 l).toNat
          (q.2, x.2.set l q.1)) (tab, splat 0)
        let s := rd.s.modGang c.g (fun y => { y with tags := some r.1 })
        let dl := s.delay
        .next (c.longOp dl.2 (1 + dl.1) (.values (ldest d words) r.2 none none) rd.p6) true)

/-- PTAG (R238). -/
def execPtag (t : Tail) (d : Dst) (k : Src) (s : State) : Out := tagOp t s d k 1 TagTable.ptag
/-- PTSET (R238). -/
def execPtset (t : Tail) (d : Dst) (k : Src) (s : State) : Out := tagOp t s d k 4 TagTable.ptset
/-- PTINV (R238). -/
def execPtinv (t : Tail) (d : Dst) (k : Src) (s : State) : Out := tagOp t s d k 1 TagTable.ptinv

/-! ### Atomics (R239) -/

/-- The new value of an atomic at a width in bits, none where a cas fails. `b` holds the compare value below the new
value for cas. -/
def atomNew (op w old b : Nat) : Option Nat :=
  let v := b % 2 ^ w
  let sg := fun (x : Nat) => (BitVec.ofNat w x).toInt
  match op with
  | 0 => some ((old + v) % 2 ^ w)
  | 1 => some (if sg old ≤ sg v then old else v)
  | 2 => some (if sg v ≤ sg old then old else v)
  | 3 => some (old &&& v)
  | 4 => some (old ||| v)
  | 5 => some (old ^^^ v)
  | 6 => some v
  | _ => if old == v then some (b / 2 ^ w % 2 ^ w) else none

/-- The width in registers of an atomic's data operand (R179). -/
def atomWords (md : AtomMod) (op : Nat) : Nat := if op == 7 then (if md.w64 then 4 else 2) else if md.w64 then 2 else 1

/-- The data operand of an atomic in a lane. -/
def atomData (md : AtomMod) (op : Nat) (rd : Read) (l : Nat) : BitVec 128 :=
  if op == 7 && md.w64 then (rd.wide.getD 1 []).at_ l else (arg rd.v 1 l).setWidth 128

/-- ATOM and RED by operation code (R239). -/
def atomOp (op : Nat) (red : Bool) (t : Tail) (md : AtomMod) (d : Dst) (a b : Src) (s : State) : Out :=
  issueHeld t s (fun c s =>
    let p := c.part s
    let ws : List Want := [(a, .int, 1), (b, .int, atomWords md op)]
    let size := if md.w64 then 8 else 4
    let act := fun (rd : Read) (l : Nat) => AccAct.rmw op (atomData md op rd l)
    let acq := !red && (md.kind == 1 || md.kind == 3)
    let rels := md.kind == 2 || md.kind == 3
    let kind := fun (accs : List Acc) =>
      if red then OpKind.store accs else OpKind.atom (ldest d (if md.w64 then 2 else 1)) accs acq
    if md.sp then
      let as := fun (rd : Read) => c.spAddrs (rd.v.headD []) 0
      c.checked s ws (fun rd s =>
          match c.spCheck s (as rd) size size true true with
          | some r => .error r
          | none => c.eccLanes s p false ((as rd).map (·.2)) size)
        (fun rd s fl =>
          let rel := c.spRelease s rels
          let g := flipped (c.spAccs rel.1 (as rd) size (act rd) rel.2) fl
          let o := c.coreOp rel.1 (if red then 0 else c.spLands (as rd) size g) (kind g) rd.p6
          .next (c.holdFor o.1 o.2 acq) true)
    else
      c.checked s ws (fun rd s =>
          match c.globalLanes s p md.treg (c.offsets (rd.v.headD []) 0) size .write 2 true (op != 7) with
          | .error r => .error r
          | .ok (s, ls) =>
            match c.eccLanes s p true (ls.map (·.2.2)) size with
            | .error r => .error r
            | .ok (s, fl) => .ok (s, (ls, fl)))
        (fun rd s q =>
          let rel := c.releaseFor s rels md.scope.toNat
          let a := c.globalAccs rel.1 p q.1 size (act rd) rel.2
          let g := (a.1, flipped a.2 q.2)
          let r := g.1.delay
          let due := g.2.foldl (fun m x => max m x.at_) 0 + 100 + r.1
          let o := if red then c.globalOp r.2 0 (kind g.2) rd.p6 else c.globalLoad r.2 due (kind g.2) rd.p6
          .next (c.holdFor o.1 o.2 acq) true))

/-- ATOM.add (R239). -/
def execAtomAdd (t : Tail) (md : AtomMod) (d : Dst) (a b : Src) (s : State) : Out := atomOp 0 false t md d a b s
/-- ATOM.min (R239). -/
def execAtomMin (t : Tail) (md : AtomMod) (d : Dst) (a b : Src) (s : State) : Out := atomOp 1 false t md d a b s
/-- ATOM.max (R239). -/
def execAtomMax (t : Tail) (md : AtomMod) (d : Dst) (a b : Src) (s : State) : Out := atomOp 2 false t md d a b s
/-- ATOM.and (R239). -/
def execAtomAnd (t : Tail) (md : AtomMod) (d : Dst) (a b : Src) (s : State) : Out := atomOp 3 false t md d a b s
/-- ATOM.or (R239). -/
def execAtomOr (t : Tail) (md : AtomMod) (d : Dst) (a b : Src) (s : State) : Out := atomOp 4 false t md d a b s
/-- ATOM.xor (R239). -/
def execAtomXor (t : Tail) (md : AtomMod) (d : Dst) (a b : Src) (s : State) : Out := atomOp 5 false t md d a b s
/-- ATOM.xchg (R239). -/
def execAtomXchg (t : Tail) (md : AtomMod) (d : Dst) (a b : Src) (s : State) : Out := atomOp 6 false t md d a b s
/-- ATOM.cas (R239). -/
def execAtomCas (t : Tail) (md : AtomMod) (d : Dst) (a b : Src) (s : State) : Out := atomOp 7 false t md d a b s
/-- RED (R239). -/
def execRed (t : Tail) (md : AtomMod) (op : BitVec 3) (a b : Src) (s : State) : Out := atomOp op.toNat true t md .discard a b s

end Sys2Proof.Machine
end

