-- ==== Sys2Proof/Machine/Sync.lean ====
section
/-! DEFINITION. Bindings, fences, barriers, subscriptions, futures and gang queues (R226 to R230, R240 to R249). -/

namespace Sys2Proof.Machine

open Sys2Proof

/-! ### Shared checks -/

/-- An object at a gang-relative address in a register: R111 and R227, range locks, then windows. -/
def Ctx.object (c : Ctx) (s : State) (v : BitVec 64) (size : Nat) (writes : Bool) : Except Res Nat :=
  let a := v.toNat
  match c.objFault v size with
  | some r => .error r
  | none =>
    match c.lockFault s false writes ((lanesOf c.act).map (fun l => (l, a))) size with
    | some r => .error r
    | none =>
      match c.touch s [(a, a + size)] with
      | some r => .error r
      | none => .ok a

/-- A single instruction's location in global memory, by R227: its physical address. D is set with the write (R393). -/
def Ctx.single (c : Ctx) (s : State) (p : Partition) (v : BitVec 64) (size : Nat) (acc : Access) (kind : Nat) :
    Except Res (State × Nat) :=
  let va := v.toNat
  if va % size != 0 then .error (c.trap .align va)
  else
    let r := s.translate c.core p c.x.tenant va acc c.sup (c.reader s)
    match r.2 with
    | .pa a .. =>
      (match c.lockFault r.1 true (acc == .write) ((lanesOf c.act).map (fun l => (l, va))) size with
      | some res => .error res
      | none => .ok (r.1, a))
    | w =>
      match c.walkFault r.1 kind ((lanesOf c.act).map (fun l => (l, w, va))) with
      | some res => .error res
      | none => .error (c.trap .xlate va)

/-- The slot's own operations that still have to reach [lo, lo + n) of a space: the reads too, because what acts at issue
would overtake them (R134). -/
def Ctx.ownAt (c : Ctx) (s : State) (glob : Bool) (lo n : Nat) : List Nat :=
  let hit := fun (a : Acc) => a.glob == glob && !a.done && overlap (lo, lo + n) (a.addr, a.addr + a.size)
  (s.ops.filter (fun o => o.gang == c.g && o.tk == c.t && o.tagSlots.contains c.k && (match o.kind with
    | .load _ _ accs _ | .store accs | .atom _ accs _ => accs.any hit
    | .relE a _ | .acqE _ a => hit a
    | .subl ls => (glob && ls.any (fun l => overlap (lo, lo + n) (l.2.1, l.2.1 + 8))) ||
        (!glob && ls.any (fun l => overlap (lo, lo + n) (l.2.2.1, l.2.2.1 + 16)))
    | .barrier a .. => !glob && overlap (lo, lo + n) (a, a + 16)
    | _ => false))).map (·.id)

/-- An operation that acts at issue first lets the slot's earlier accesses to its cell, and those of the grove's FIFO
to its home, be performed (R134). -/
def Ctx.settle (c : Ctx) (s : State) (p : Partition) (glob : Bool) (lo n : Nat) : Option Res :=
  let own := c.ownAt s glob lo n
  let f := if glob then s.fifoAt (groveOf c.core) (homeOf p lo) else 0
  if own.isEmpty && f ≤ s.now then none else some (.stall s (.drain own f))

/-- The slot's accesses to scratchpad that are not performed. -/
def Ctx.ownBanks (c : Ctx) (s : State) : List Nat :=
  (s.ops.filter (fun o => o.gang == c.g && o.tk == c.t && o.tagSlots.contains c.k && (match o.kind with
    | .load _ _ accs _ | .store accs | .atom _ accs _ => accs.any (fun a => !a.glob && !a.done)
    | .subl _ | .barrier .. => true
    | _ => false))).map (·.id)

/-! ### Fences (R130, R133, R137, R240, R241, R455) -/

/-- The loads and atomics of a slot that have not reached their completion points, RED and REL.E among them (R240). -/
def State.ownReads (s : State) (g t k : Nat) : List Nat :=
  (s.ops.filter (fun o => o.gang == g && o.tk == t && o.tagSlots.contains k && (match o.kind with
    | .load .. | .atom .. | .acqE .. | .relE .. => true
    | .store accs => accs.any (fun a => match a.act with
      | .rmw .. => true
      | _ => false)
    | _ => false))).map (·.id)

/-- What a fence at a scope waits for, and then its release; an SC fence takes the next place of the SC order. -/
def fenceAt (tl : Tail) (scope : BitVec 3) (sc : Bool) (s : State) : Out :=
  issueHeld tl s (fun c s =>
    let wide := decide (4 ≤ scope.toNat)
    let ops := s.ownReads c.g c.t c.k ++ (if wide then s.ownWrites c.g c.t c.k else c.ownBanks s)
    let f := if wide then s.fifoAll (groveOf c.core) else 0
    if !c.sl.phase.started && !(ops.isEmpty && f ≤ s.now) then
      .stall (s.modSlot c.g c.t c.k (fun x => { x with phase := { x.phase with started := true } })) (.drain ops f)
    else
      let s := c.releaseFifo s
      .next (if sc then s.modDev (fun d => { d with ticket := d.ticket + 1 }) else s) false)

/-- FENCE (R240). -/
def execFence (t : Tail) (scope : BitVec 3) (s : State) : Out := fenceAt t scope false s
/-- FENCE.sc (R240). -/
def execFenceSc (t : Tail) (scope : BitVec 3) (s : State) : Out := fenceAt t scope true s

/-- The generic writes issued on a core, whichever gang's, that are not performed, in a reach (R455). -/
def State.coreWrites (s : State) (core : Nat) (sp gl : Bool) : List Nat :=
  let pend := fun (a : Acc) => !a.done && (if a.glob then gl else sp)
  (s.ops.filter (fun o => (o.core == some core || o.src == some core) && (match o.kind with
    | .store accs | .atom _ accs _ => accs.any pend
    | .relE a _ => pend a
    | .barrier .. => sp
    | _ => false))).map (·.id)

/-- The core's clock by which every bank write queue of its gangs is empty of what it holds (R454). -/
def State.banksEmptyAt (s : State) (core : Nat) : Nat :=
  (s.gangs.filter (fun g => g.core == some core)).foldl (fun m g => g.bwq.foldl (fun m w => max m w.at_) m) 0

/-- PFENCE: first the store buffers, and for global memory what a write of the grove that it may have acquired waits
behind at the crossbar (R130), then the bank write queues, each as they stand when it looks (R141, R241, R455). -/
def pfence (tl : Tail) (sp gl : Bool) (s : State) : Out :=
  issueHeld tl s (fun c s =>
    let ops := s.coreWrites c.core sp gl
    let f := if gl then s.fifoAll (groveOf c.core) else 0
    let b := if sp then s.banksEmptyAt c.core else 0
    if !c.sl.phase.started && !(ops.isEmpty && f ≤ s.now) then
      .stall (s.modSlot c.g c.t c.k (fun x => { x with phase := { x.phase with started := true } })) (.drain ops f)
    else if !c.sl.phase.granted && c.clk < b then
      .stall (s.modSlot c.g c.t c.k (fun x => { x with phase := { x.phase with started := true, granted := true } })) (.clock b)
    else .next s false)

/-- PFENCE.sp (R241). -/
def execPfenceSp (t : Tail) (s : State) : Out := pfence t true false s
/-- PFENCE.gl (R241). -/
def execPfenceGl (t : Tail) (s : State) : Out := pfence t false true s
/-- PFENCE.all (R241). -/
def execPfenceAll (t : Tail) (s : State) : Out := pfence t true true s

/-! ### Entry consistency (R138, R139, R243, R244) -/

/-- The engine commands issued and not completed that write global memory for a tenant in [lo, hi): tensor copies, and
merges, stopped ones too, with their output and status record (R243). -/
def State.engineWrites (s : State) (part tenant lo hi : Nat) : List Nat :=
  let merge := fun (m : Merge) => overlap (m.o, m.o + 8 * (m.na + m.nb)) (lo, hi) || overlap (m.st, m.st + 16) (lo, hi)
  (s.ops.filter (fun o => (match o.kind with
    | .copy cp => descDir cp.desc == 1 && overlap (descRange cp.desc) (lo, hi)
    | .merge m => merge m
    | _ => false) && (match s.gang? o.gang with
    | some x => x.part == part && x.tenant == tenant
    | none => false))).map (·.id) ++
  (s.gangs.filter (fun x => x.part == part && x.tenant == tenant)).flatMap (fun x => (x.merges.filter merge).map (·.id))

/-- RBIND (R243): a removal takes effect at issue and completes when the bound writes are performed; a binding is
judged and installed at its completion point. -/
def execRbind (t : Tail) (base len obj : USrc) (s : State) : Out :=
  issueHeld t s (fun c s =>
    let lo := (c.tk.uval base).toNat
    let n := (c.tk.uval len).toNat
    let o := (c.tk.uval obj).toNat
    let p := c.part s
    if c.act == 0 then .next s false
    else if lo % 128 != 0 then c.trap .align lo
    else if n % 128 != 0 then c.trap .align n
    else if o % 8 != 0 then c.trap .align o
    else if n == 0 then
      match p.binds.find? (fun b => b.tenant == c.x.tenant && b.lo == lo) with
      | none =>
        let d := s.delay
        .next (c.globalOp d.2 (s.now + 1 + d.1) (.rbind false none) none).1 true
      | some b =>
        let eng := s.engineWrites c.x.part c.x.tenant b.lo (b.lo + b.len)
        let s := s.modPart p.num (fun q => { q with binds := q.binds.filter (fun x => x != b) })
        let r := c.globalOp s (max (s.now + 1) b.drain) (.rbind true none) none
        .next (r.1.modOp r.2 (fun x => { x with waits := eng })) true
    else
      let d := s.delay
      .next (c.globalOp d.2 (s.now + 1 + d.1) (.rbind true (some (lo, n, o))) none).1 true)

/-- ACQ.E (R139, R244). -/
def execAcqE (t : Tail) (d : Dst) (a : USrc) (s : State) : Out :=
  issueHeld t s (fun c s =>
    let p := c.part s
    let va := c.tk.uval a
    if c.act == 0 then .next s false
    else match c.single s p va 8 .read 0 with
    | .error r => r
    | .ok (s, pa) =>
      match c.eccLanes s p true [pa] 8 with
      | .error r => r
      | .ok (s, fl) =>
        let g := c.globalAccs s p [(lowLane c.act, va.toNat, pa)] 8 (fun _ => .read) 0
        let r := g.1.delay
        let acc := (flipped g.2 fl).headD default
        let o := c.globalLoad r.2 (acc.at_ + 100 + r.1) (.acqE (ldest d 2) acc) none
        .next (c.holdFor o.1 o.2 true) true)

/-- The clock by which every bound write to the ranges bound to a location is performed (R139). -/
def State.boundDrain (s : State) (p : Partition) (pa : Nat) : Nat :=
  (p.binds.filter (fun b => match walk s.mem p b.tenant b.obj .host true with
    | .pa a .. => a == pa
    | _ => false)).foldl (fun m b => max m b.drain) 0

/-- REL.E (R139, R244): a release atomic add of 1 at .dev. -/
def execRelE (t : Tail) (a : USrc) (s : State) : Out :=
  issueHeld t s (fun c s =>
    let p := c.part s
    let va := c.tk.uval a
    if c.act == 0 then .next s false
    else match c.single s p va 8 .write 2 with
    | .error r => r
    | .ok (s, pa) =>
      let s := s.setDirty p c.x.tenant va.toNat
      let drain := s.boundDrain p pa
      let rel := c.releaseFor s true 4
      let g := c.globalAccs rel.1 p [(lowLane c.act, va.toNat, pa)] 8 (fun _ => .rmw 0 1) rel.2
      .next (c.globalOp g.1 0 (.relE (g.2.headD default) drain) none).1 true)

/-! ### The gang barrier (R242) -/

/-- BARG: waits for the slot's scratchpad writes (a release at .gang), arrives, and waits for the phase. -/
def execBarg (t : Tail) (s : State) : Out :=
  issueHeld t s (fun c s =>
    let own := c.ownBanks s
    if !own.isEmpty then .stall s (.drain own 0)
    else
      let s := (c.releaseFifo s).modGang c.g (fun y => { y with arrived := y.arrived ++ [(c.t, c.k)] })
      .wait (s.bargCheck c.g) (.barg c.x.phase) .none (c.sl.pc + 8))

/-! ### Arrival barriers (R109 to R111, R245) -/

/-- Sends an update of a barrier to its bank. Kinds: 0 ABINIT, 1 ABEXP, 2 ABARR. A release follows every earlier
bank access of the slot (R130). -/
def Ctx.barrierOp (c : Ctx) (s : State) (a kind : Nat) (n link : BitVec 32) : State :=
  let rel := c.spRelease s (kind == 2)
  let at_ := max (bankNext (rel.1.bankPend c.g c.t c.k) a 16 true) (max (c.clk + 10) rel.2)
  (c.coreOp rel.1 at_ (.barrier a kind n link) none).1

/-- ABINIT (R245). -/
def execAbinit (t : Tail) (a b d : USrc) (s : State) : Out :=
  issueHeld t s (fun c s =>
    let link := c.tk.uval d
    if c.act == 0 then .next s false
    else if link.extractLsb' 32 32 != 0 || link.extractLsb' 24 7 != 0 then c.trap .qerr
    else match c.object s (c.tk.uval a) 16 true with
    | .error r => r
    | .ok x => .next (c.barrierOp s x 0 ((c.tk.uval b).extractLsb' 0 32) (link.extractLsb' 0 32)) true)

/-- ABEXP (R245). -/
def execAbexp (t : Tail) (a b : USrc) (s : State) : Out :=
  issueHeld t s (fun c s =>
    if c.act == 0 then .next s false
    else match c.object s (c.tk.uval a) 16 true with
    | .error r => r
    | .ok x => .next (c.barrierOp s x 1 ((c.tk.uval b).extractLsb' 0 32) 0) true)

/-- ABARR (R245). -/
def execAbarr (t : Tail) (a b : USrc) (s : State) : Out :=
  issueHeld t s (fun c s =>
    if c.act == 0 then .next s false
    else match c.object s (c.tk.uval a) 16 true with
    | .error r => r
    | .ok x => .next (c.barrierOp s x 2 ((c.tk.uval b).extractLsb' 0 32) 0) true)

/-- ABWAIT (R245). -/
def execAbwait (t : Tail) (a b : USrc) (s : State) : Out :=
  issueHeld t s (fun c s =>
    let parity := (c.tk.uval b).getLsbD 0
    if c.act == 0 then .next s false
    else match c.object s (c.tk.uval a) 16 false with
    | .error r => r
    | .ok x =>
      match c.settle s (c.part s) false x 16 with
      | some r => r
      | none =>
        match c.eccLanes s (c.part s) false [x] 16 with
        | .error r => r
        | .ok (s, fl) =>
          if (c.x.phaseOf x ^^ (fl.headD 0).getLsbD 64) != parity then .next s false
          else .wait s (.barrier x parity) .none (c.sl.pc + 8))

/-! ### Subscriptions (R118 to R121, R246, R247) -/

/-- The first checks of R227 for scratchpad objects in lanes: the allocation, then alignment. -/
def Ctx.slotFault (c : Ctx) (as : List (Nat × Nat)) : Option Res :=
  let out := as.filter (fun a => c.x.foot.sp ≤ a.2)
  let odd := as.filter (fun a => a.2 % 16 != 0)
  match out, odd with
  | a :: _, _ => some (.trap { code := .prot, lanes := maskOfList (out.map (·.1)), addr := a.2 })
  | [], a :: _ => some (.trap { code := .align, lanes := maskOfList (odd.map (·.1)), addr := a.2 })
  | [], [] => none

/-- The checks of SUBL by R227: allocation and unbound register, both alignments, translation, locks, windows. -/
def Ctx.sublCheck (c : Ctx) (s : State) (p : Partition) (tr : BitVec 3) (os : List (Nat × Int)) (as : List (Nat × Nat)) :
    Except Res (State × List LanePa) :=
  let r := c.tk.t.getD tr.toNat {}
  let vas := os.map (fun o => (o.1, vaOf r.base o.2))
  let inside := as.all (fun a => decide (a.2 < c.x.foot.sp))
  let odd := (vas.zip as).filter (fun e => e.1.2 % 8 != 0 || e.2.2 % 16 != 0)
  if !r.bound then .error (c.trap .prot ((vas.map (·.2)).headD 0))
  else if !inside then .error ((c.slotFault as).getD (c.trap .prot))
  else match odd with
  | e :: rest => .error (.trap { code := .align, lanes := maskOfList (e.1.1 :: rest.map (·.1.1)),
                                 addr := if e.1.2 % 8 != 0 then e.1.2 else e.2.2 })
  | [] =>
    match c.globalLanes s p tr os 8 .read 4 true with
    | .error r => .error r
    | .ok (s, ls) =>
      match c.spCheck s as 16 16 true true with
      | some r => .error r
      | none => .ok (s, ls)

/-- SUBL (R119, R246): registered at its completion point, in lane order. -/
def execSubl (t : Tail) (tr : BitVec 3) (a b : Src) (off : BitVec 6) (s : State) : Out :=
  issueHeld t s (fun c s =>
    let p := c.part s
    let slots := fun (rd : Read) => (lanesOf c.act).map (fun l => (l, (arg32 rd.v 1 l).toNat))
    c.checked s [(a, .int, 1), (b, .int, 1)]
      (fun rd s => c.sublCheck s p tr (c.offsets (rd.v.headD []) (offBytes off 8)) (slots rd))
      (fun rd s ls =>
        let g := c.globalAccs s p ls 8 (fun _ => .read) 0
        let r := g.1.delay
        let due := g.2.foldl (fun m x => max m x.at_) 0 + 100 + r.1
        let lanes := (ls.zip (slots rd)).map (fun e => (e.1.1, e.1.2.2, e.2.2, s.leafOf p c.x.tenant e.1.2.1))
        .next (c.globalOp r.2 due (.subl lanes) rd.p6).1 true))

/-- Removes the subscriptions of slots of a gang (R121). -/
def State.unsubscribe (s : State) (g : Nat) (slots : List Nat) : State :=
  let keep := s.subs.map (fun e => { e with subs := e.subs.filter (fun x => !(x.gang == g && slots.contains x.slot)) })
  { s with subs := keep.filter (fun e => !e.subs.isEmpty) }

/-- Whether one of a gang's slots holds a subscription. -/
def State.subscribed (s : State) (g : Nat) (slots : List Nat) : Bool :=
  s.subs.any (fun e => e.subs.any (fun x => x.gang == g && slots.contains x.slot))

/-- The SUBLs of a PC slot before an operation number that name one of some slots and have not registered. -/
def State.sublsBefore (s : State) (g t k id : Nat) (slots : List Nat) : List Nat :=
  (s.ops.filter (fun o => o.gang == g && o.tk == t && o.tagSlots.contains k && decide (o.id < id) && (match o.kind with
    | .subl ls => ls.any (fun l => slots.contains l.2.2.1)
    | _ => false))).map (·.id)

/-- UNSUB (R121, R247): removed at issue, or once the slot's own SUBL before it has registered; it completes when the
pushes on their way have landed. -/
def execUnsub (t : Tail) (a : Src) (s : State) : Out :=
  issueHeld t s (fun c s =>
    let as := fun (rd : Read) => (lanesOf c.act).map (fun l => (l, (arg32 rd.v 0 l).toNat))
    c.checked s [(a, .int, 1)]
      (fun rd s => match c.slotFault (as rd) with
        | some r => .error r
        | none => .ok (s, ()))
      (fun rd s _ =>
        let slots := (as rd).map (·.2)
        let any := s.subscribed c.g slots || !(s.sublsBefore c.g c.t c.k s.nextOp slots).isEmpty
        let d := s.delay
        if any then .next (c.globalOp (d.2.unsubscribe c.g slots) (s.now + 1 + d.1) (.unsub slots) rd.p6).1 true
        else .next (c.globalOp s (s.now + 1) (.unsub slots) rd.p6).1 true))

/-- SEQ of a subscription slot. -/
def Gang.seqOf (x : Gang) (a : Nat) : BitVec 16 := BitVec.ofNat 16 (x.sp.read (a + 8) 2)

/-- SLWAIT (R120, R247): a lane whose SEQ differs already does not hold the wait. -/
def execSlwait (t : Tail) (d : Dst) (a b : Src) (s : State) : Out :=
  issueHeld t s (fun c s =>
    let p := c.part s
    let as := fun (rd : Read) => (lanesOf c.act).map (fun l => (l, (arg32 rd.v 0 l).toNat))
    c.checked s [(a, .int, 1), (b, .int, 1)]
      (fun rd s => match c.spCheck s (as rd) 16 16 false true with
        | some r => .error r
        | none =>
          match (as rd).findSome? (fun e => c.settle s p false e.2 16) with
          | some r => .error r
          | none => c.eccLanes s p false ((as rd).map (·.2)) 16)
      (fun rd s fl =>
        let seqs := (as rd).zipIdx.map (fun e => (e.1.1, e.1.2, c.x.seqOf e.1.2 ^^^ (fl.getD e.2 0).extractLsb' 64 16))
        let differs := fun (l : Nat) (q : BitVec 16) => q != (arg32 rd.v 1 l).extractLsb' 0 16
        if seqs.all (fun e => differs e.1 e.2.2) then
          let vals : Lanes 128 := seqs.foldl (fun v e => v.set e.1 (e.2.2.setWidth 128)) (splat 0)
          let o := c.coreOp s (c.clk + 20) (.values (ldest d 1) vals none none) rd.p6
          .next (c.holdFor o.1 o.2 true) true
        else
          let lanes := seqs.map (fun e => (e.1, e.2.1,
            if differs e.1 e.2.2 then none else some ((arg32 rd.v 1 e.1).extractLsb' 0 16)))
          .wait s (.seq lanes) (ldest d 1) (c.sl.pc + 8) rd.p6))

/-! ### Futures (R123, R124, R248) -/

/-- The cell of FSET or FGET: its address in its space and its sixteen bytes. -/
def Ctx.cell (c : Ctx) (s : State) (p : Partition) (sp writes : Bool) (v : BitVec 64) : Except Res (State × Nat × BitVec 128) :=
  let place : Except Res (State × Nat) :=
    if sp then (c.object s v 16 writes).map (fun a => (s, a))
    else c.single s p v 16 (if writes then .write else .read) (if writes then 2 else 0)
  match place with
  | .error r => .error r
  | .ok (s, a) =>
    match c.settle s p (!sp) a 16 with
    | some r => .error r
    | none =>
      match c.eccLanes s p (!sp) [a] 16 with
      | .error r => .error r
      | .ok (s, fl) =>
        let raw := BitVec.ofNat 128 (if sp then ((s.gang? c.g).getD default).sp.read a 16 else s.mem.read a 16)
        .ok (s, a, raw ^^^ fl.headD 0)

/-- FSET's write at virtual address `va`, the waiters it wakes, and the counter that it decrements (R124). Answers what it
waits for (R397). -/
def Ctx.fill (c : Ctx) (s : State) (sp : Bool) (va a : Nat) (old : BitVec 128) (v : BitVec 64) : State × List Nat :=
  let s := if sp then s else s.setDirty (c.part s) c.x.tenant va
  let new : BitVec 128 := old.extractLsb' 65 63 ++ 1#1 ++ v
  let w := if sp then (s.bankWrite c.g a 16 new.toNat, []) else s.homeWrite a 16 new.toNat
  let s := w.1.wakeFuture (!sp) a c.g v
  (if old.getLsbD 127 then s.decHandle c.x.part c.x.tenant (old.extractLsb' 96 24).toNat else s, w.2)

/-- FSET (R248): a release, so it waits for the slot's accesses before it acts at the cell. -/
def execFset (t : Tail) (sp nb : Bool) (a b : USrc) (s : State) : Out :=
  issueHeld t s (fun c s =>
    let p := c.part s
    if c.act == 0 then .next s false
    else match c.cell s p sp true (c.tk.uval a) with
    | .error r => r
    | .ok (s', x, old) =>
      let own := c.ownBanks s'
      let early := if sp then (if own.isEmpty then none else some (Res.stall s' (.drain own 0))) else c.drainDev s' (s'.ownAccs c.g c.t c.k)
      match early with
      | some r => r
      | none =>
        let full := old.getLsbD 64
        let d := s'.delay
        if full && !nb then c.trap .futrew
        else
          let f := if full then (d.2, []) else c.fill (c.releaseFifo d.2) sp (c.tk.uval a).toNat x old (c.tk.uval b)
          let p6 := if nb then some (!full) else none
          let r := if sp then c.coreOp f.1 (c.clk + 1 + d.1) .tagOnly p6 else c.globalOp f.1 (s.now + 1 + d.1) .tagOnly p6
          .next (r.1.modOp r.2 (fun o => { o with waits := f.2 })) true)

/-- FGET (R248): the value at once, 0 for a non-blocking form, or a long wait as a waiter of the cell. -/
def execFget (t : Tail) (sp nb : Bool) (d : Dst) (a : USrc) (s : State) : Out :=
  issueHeld t s (fun c s =>
    let p := c.part s
    if c.act == 0 then .next s false
    else match c.cell s p sp false (c.tk.uval a) with
    | .error r => r
    | .ok (s, x, old) =>
      let full := old.getLsbD 64
      if full || nb then
        let dl := s.delay
        let v : BitVec 128 := if full then (old.extractLsb' 0 64).setWidth 128 else 0
        let kind := OpKind.values (ldest d 2) (splat v) none none
        let p6 := if nb then some full else none
        let o := if sp then c.coreOp dl.2 (c.clk + 20 + dl.1) kind p6 else c.globalLoad dl.2 (s.now + 240 + dl.1) kind p6
        .next (c.holdFor o.1 o.2 true) true
      else
        let w : Waiter := { glob := !sp, addr := x, leaf := if sp then 0 else s.leafOf p c.x.tenant (c.tk.uval a).toNat, gang := c.g, tk := c.t, slot := c.k }
        .wait { s with waiters := s.waiters ++ [w] } (.future sp x) (ldest d 2) (c.sl.pc + 8))

/-! ### Gang queues (R125, R249) -/

/-- The results of a gang that are still to write entries of a queue. -/
def State.pushing (s : State) (g n : Nat) : List Nat :=
  (s.ops.filter (fun o => o.gang == g && (match o.kind with
    | .result r => (r.wpush.map (·.1)) == some n
    | _ => false))).map (·.id)

/-- QCFG (R249). -/
def execQcfg (t : Tail) (n : BitVec 2) (a b : USrc) (s : State) : Out :=
  issueHeld t s (fun c s =>
    let base := c.tk.uval a
    let cnt := (c.tk.uval b).toNat
    let k := n.toNat
    let set := fun (q : Option WQueue) => Res.next (s.modGang c.g (fun y => { y with wqs := y.wqs.set k q })) false
    let busy := s.pushing c.g k
    if c.act == 0 then .next s false
    else if cnt != 0 && (cnt < 2 || 1024 < cnt || base.toNat % 128 != 0) then c.trap .qerr
    else if cnt != 0 && base.extractLsb' 32 32 != 0 then c.trap .prot base.toNat
    else if cnt != 0 && c.x.foot.sp < base.toNat + 128 * cnt then c.trap .qerr
    else if ((c.x.wqs[k]?).join).isSome && !busy.isEmpty then .stall s (.drain busy 0)
    else if cnt == 0 then set none
    else set (some { base := base.toNat, entries := cnt, head := 0, tail := 0, visible := [] }))

end Sys2Proof.Machine
end

