-- ==== Sys2Proof/Machine/Streams.lean ====
section
/-! DEFINITION. Indirect streams and ISECT (R281 to R284). -/

namespace Sys2Proof.Machine

open Sys2Proof

/-- Changes a stream register. -/
def Ctx.setStream (c : Ctx) (s : State) (n : BitVec 2) (f : Stream → Stream) : State :=
  s.modTk c.g c.t (fun y => { y with s := y.s.modify n.toNat f })

/-- SDEF (R281). -/
def execSdef (t : Tail) (n : BitVec 2) (a b d : USrc) (s : State) : Out :=
  issueHeld t s (fun c s =>
    let ib := c.tk.uval a
    let db := c.tk.uval b
    let ct := c.tk.uval d
    let elog := (ct.extractLsb' 32 2).toNat
    if c.act == 0 then .next s false
    else if ct.extractLsb' 35 29 != 0 || elog == 3 then c.trap .qerr
    else if ib.toNat % 4 != 0 then c.trap .align ib.toNat
    else if db.toNat % 2 ^ elog != 0 then c.trap .align db.toNat
    else if ib.extractLsb' 48 16 != 0 then c.trap .xlate ib.toNat
    else if db.extractLsb' 48 16 != 0 then c.trap .xlate db.toNat
    else
      let st : Stream := { bound := true, ibase := ib.extractLsb' 0 48, dbase := db.extractLsb' 0 48, elog := elog,
                           sx := ct.getLsbD 34, count := (ct.extractLsb' 0 32).toNat }
      .next (c.setStream s n (fun _ => st)) false)

/-- SSTART (R282): fetching starts; the first fetch comes no earlier than the next clock, and after the accesses that the
slot made before it (R134). -/
def execSstart (t : Tail) (n : BitVec 2) (a : USrc) (s : State) : Out :=
  issueHeld t s (fun c s =>
    let i := ((c.tk.uval a).extractLsb' 0 32).toNat
    if c.act == 0 then .next s false
    else if !(c.tk.s.getD n.toNat {}).bound then c.trap .qerr
    else
      let due := c.sl.homes.foldl (fun m e => max m e.2) (max (s.now + 1) (s.fifoAll (groveOf c.core)))
      .next (c.setStream s n (fun st => { st with started := true, cursor := i, next := i, fifo := [], faulted := false, due := due })) false)

/-- The status that SSTOP writes: RUN, DONE, FAULT over the first element not popped (R282). -/
def Stream.status (st : Stream) : BitVec 64 :=
  0#29 ++ BitVec.ofBool st.faulted ++ BitVec.ofBool (decide (st.count ≤ st.cursor)) ++ BitVec.ofBool st.started ++
    BitVec.ofNat 32 st.cursor

/-- SSTOP (R282). -/
def execSstop (t : Tail) (d : Dst) (n : BitVec 2) (s : State) : Out :=
  issueHeld t s (fun c s =>
    let st := c.tk.s.getD n.toNat {}
    if c.act == 0 then .next s false
    else if !st.bound then c.trap .qerr
    else
      let s := c.setStream s n (fun st => { st with started := false, next := st.cursor, fifo := [], faulted := false })
      let dl := s.delay
      .next (c.longOp dl.2 (1 + dl.1) (.values (ldest d 2) (splat (st.status.setWidth 128)) none none)) true)

/-! ### ISECT (R284) -/

/-- The longest strictly increasing prefix of a list. -/
def risingPrefix : List Nat → List Nat
  | [] => []
  | [x] => [x]
  | x :: y :: rest => if x < y then x :: risingPrefix (y :: rest) else [x]

/-- ISECT on two lists: the pairs (i, j), advA, advB and err. -/
def isect (as bs : List Nat) : List (Nat × Nat) × Nat × Nat × Bool :=
  let a := risingPrefix as
  let b := risingPrefix bs
  let err := decide (a.length < as.length) || decide (b.length < bs.length)
  match a.getLast?, b.getLast? with
  | some la, some lb =>
    let t := min la lb
    let pa := a.filter (fun x => x ≤ t)
    let pb := b.filter (fun x => x ≤ t)
    let pairs := pa.zipIdx.flatMap (fun x => (pb.zipIdx.filter (fun y => y.1 == x.1)).map (fun y => (x.2, y.2)))
    (pairs, pa.length, pb.length, err)
  | _, _ => ([], 0, 0, err)

/-- ISECT (R284). -/
def execIsect (tl : Tail) (trap : Bool) (d : Dst) (a b : Src) (g : BitVec 6) (s : State) : Out :=
  issueHeld tl s (fun c s =>
    let run := fun (rd : Read) =>
      isect ((lanesOf c.act).map (fun l => (arg32 rd.v 0 l).toNat)) ((lanesOf c.act).map (fun l => (arg32 rd.v 1 l).toNat))
    c.checked s [(a, .int, 1), (b, .int, 1)]
      (fun rd s => if trap && (run rd).2.2.2 then .error (c.trap .sort) else .ok (s, ()))
      (fun rd s _ =>
        let r := run rd
        let vals : Lanes 128 := (lanesOf c.act).zipIdx.foldl (fun v e =>
          v.set e.1 (match r.1[e.2]? with
            | some p => BitVec.ofNat 128 (p.2 * 65536 + p.1)
            | none => 0xFFFFFFFF)) (splat 0)
        let st := BitVec.ofNat 64 ((if r.2.2.2 then 2 ^ 24 else 0) + r.2.2.1 * 65536 + r.2.1 * 256 + r.1.length)
        .next (c.longOp s 12 (.values (ldest d 1) vals none (some (g.toNat, st))) rd.p6) true))

/-- STREAM_FETCH (R126, R281, R283): one entry, read now; a fetch that faults waits for the pop that takes the fault, and
one that meets a lasting storage error aborts the domain, as every engine's read for a gang does (R438). -/
def execStreamFetch (g t n : Nat) (s : State) : Out :=
  match s.gang? g, (s.tk? g t).bind (fun y => y.s[n]?) with
  | some x, some st =>
    match s.part? x.part, x.core with
    | some p, some core =>
      if !st.started || st.faulted || 16 ≤ st.fifo.length || st.count ≤ st.next || s.now < st.due then .next s
      else
        let r := s.streamEntry core p x.tenant ((s.tk? g t).map (·.sup) |>.getD false) st (s.readerOf g)
        let d := r.1.delay
        let put := fun (f : Stream → Stream) => d.2.modTk g t (fun y => { y with s := y.s.modify n f })
        match r.2 with
        | .error (.mchk _, _) => .next (r.1.abortDomain x.part x.tenant x.domain TrapCode.mchk.num 0)
        | .error _ => .next (put (fun q => { q with faulted := true }))
        | .ok vs => .next (put (fun q => { q with fifo := q.fifo ++ [vs], next := min (q.next + 32) q.count, due := s.now + 1 + d.1 }))
    | _, _ => .next s
  | _, _ => .next s

end Sys2Proof.Machine
end

