-- ==== Sys2Proof/Machine/Engines.lean ====
section
/-! DEFINITION. The engine commands and the region table: CPYT, SHUF, MRGK, RTSET, RTSTATE, RTDROP, window fills, and
how the engines go on (R102 to R106, R112 to R114, R285 to R290, R403). -/

namespace Sys2Proof.Machine

open Sys2Proof

/-! ### Issue -/

/-- The barrier that ABS names, for a command of n parameter registers: bits [31:0] of g(P + n − 1 + k) (R171). -/
def Ctx.absBar (c : Ctx) (e : EFields) (n : Nat) : Option Nat :=
  if e.abs == 0 then none
  else some ((c.tk.greg (e.p.toNat + n - 1 + e.abs.toNat)).extractLsb' 0 32).toNat

/-- What R111 finds wrong with a command's barrier. -/
def Ctx.barFault (c : Ctx) (bar : Option Nat) : Option Res :=
  bar.bind (fun b => c.objFault (BitVec.ofNat 64 b) 16)

/-- The translations of the eight 8-byte words of a descriptor. -/
def Ctx.descWalk (c : Ctx) (s : State) (p : Partition) (va : Nat) : State × Except (Walk × Nat) (List LanePa) :=
  (List.range 8).foldl (fun (a : State × Except (Walk × Nat) (List LanePa)) i =>
    match a.2 with
    | .error e => (a.1, .error e)
    | .ok ls =>
      let r := a.1.translate c.core p c.x.tenant (va + 8 * i) .read c.sup (c.reader s)
      match r.2 with
      | .pa x .. => (r.1, .ok (ls ++ [(i, va + 8 * i, x)]))
      | w => (r.1, .error (w, va + 8 * i))) (s, .ok [])

/-- The 64-byte descriptor at a virtual address: the slot stalls until it has been read (R285, R290). A fault of the
barrier, which comes before those of translation (R227), is taken where the descriptor cannot be read. -/
def Ctx.descriptor (c : Ctx) (s : State) (va : BitVec 64) (bar : Option Nat) : Except Res (State × BitVec 512) :=
  match c.sl.phase.desc with
  | some d => .ok (s, d)
  | none =>
    let p := c.part s
    if va.toNat % 8 != 0 then .error ((c.barFault bar).getD (c.trap .align va.toNat))
    else
      let w := c.descWalk s p va.toNat
      match w.2 with
      | .error e =>
        let res := (c.walkFault w.1 0 ((lanesOf c.act).map (fun l => (l, e.1, e.2)))).getD (c.trap .xlate e.2)
        .error ((c.barFault bar).getD res)
      | .ok ls =>
        match c.eccLanes w.1 p true (ls.map (·.2.2)) 8 with
        | .error r => .error r
        | .ok (s, fl) =>
          let g := c.globalAccs s p ls 8 (fun _ => .read) 0
          let r := g.1.delay
          let due := g.2.foldl (fun m x => max m x.at_) 0 + 100 + r.1
          let o := r.2.addOp (fun id => { id := id, gang := c.g, tk := c.t, slot := c.k, core := none, at_ := due,
                                          kind := .desc (flipped g.2 fl) })
          let s := o.1.modSlot c.g c.t c.k (fun x => { x with phase := { x.phase with descOp := some o.2 } })
          .error (.stall s (.drain [o.2] 0))

/-- A command's scratchpad ranges touch windows that are not PRESENT: the slot stalls and no fill starts (R106). -/
def Ctx.heldByWindow (c : Ctx) (s : State) (rs : List (Nat × Nat)) : Option Res :=
  match (c.x.touched rs).map (·.1) with
  | [] => none
  | ks => some (.stall s (.window ks))

/-- Registers a command's ranges, all or none, under the number its operation will have; once (R114). -/
def Ctx.reserveLocks (c : Ctx) (s : State) (rs : List (Bool × Nat × Nat × Bool)) : Except Res (State × Nat) :=
  match c.sl.phase.lockOp with
  | some op => .ok (s, op)
  | none =>
    if s.lockRoom c.core < rs.length then .error (.stall s (.locks rs.length))
    else
      let op := s.nextOp
      let s := c.lock { s with nextOp := op + 1 } op rs
      .ok (s.modSlot c.g c.t c.k (fun x => { x with phase := { x.phase with lockOp := some op } }), op)

/-- A command in flight under its number: it starts 20 clocks on (R285). -/
def Ctx.command (c : Ctx) (s : State) (id : Nat) (kind : OpKind) : State :=
  { s with ops := s.ops ++ [{ id := id, gang := c.g, tk := c.t, slot := c.k, core := some c.core, at_ := c.clk + 20,
                              tag := c.tag, tagSlots := [c.k], mask := c.act, kind := kind }] }

/-- Windows, the engine, range locks, leave, and then the command (R106, R112, R114, R288). -/
def Ctx.launch (c : Ctx) (s : State) (eng : Engine) (sp : List (Nat × Nat)) (locks : List (Bool × Nat × Nat × Bool))
    (tokens : Nat) (kind : State → Nat → OpKind) : Res :=
  match c.heldByWindow s sp with
  | some r => r
  | none =>
    if s.engineFull c.core eng then .stall s (.engineFull eng)
    else match c.reserveLocks s locks with
    | .error r => r
    | .ok (s, id) =>
      match c.leaveFor s tokens with
      | .error r => r
      | .ok s' => .next (c.command s' id (kind s id)) true

/-- The scratchpad ranges of a descriptor. -/
def descSpRanges (d : BitVec 512) : List (Nat × Nat) :=
  (descSp d, descSp d + descBytes d) :: (if descDir d == 2 then [descRange d] else [])

/-- The two range-lock entries of a tensor copy (R114). -/
def descLocks (d : BitVec 512) : List (Bool × Nat × Nat × Bool) :=
  let dense := (descSp d, descSp d + descBytes d)
  let far := descRange d
  match descDir d with
  | 0 => [(true, far.1, far.2, false), (false, dense.1, dense.2, true)]
  | 1 => [(false, dense.1, dense.2, false), (true, far.1, far.2, true)]
  | _ => [(false, far.1, far.2, false), (false, dense.1, dense.2, true)]

/-- The tokens of a tensor copy (R288). -/
def descTokens (d : BitVec 512) : Nat := if 65536 ≤ descBytes d then (descBytes d + 16383) / 16384 else 0

/-- CPYT (R285). -/
def execCpyt (t : Tail) (e : EFields) (s : State) : Out :=
  tileIssue true t s (fun c s =>
    let bar := c.absBar e 1
    match c.descriptor s (c.tk.greg e.p.toNat) bar with
    | .error r => r
    | .ok (s, d) =>
      if !descOk d c.x.foot.sp then c.trap .qerr
      else match c.barFault bar with
      | some r => r
      | none => c.launch s .copy (descSpRanges d) (descLocks d) (descTokens d)
          (fun _ _ => .copy { desc := d, bar := bar, sup := c.sup, pc := c.sl.pc }))

/-- SHUF (R286). -/
def execShuf (t : Tail) (e : EFields) (s : State) : Out :=
  tileIssue true t s (fun c s =>
    let bar := c.absBar e 2
    let a := c.tk.greg e.p.toNat
    let b := c.tk.greg (e.p.toNat + 1)
    let src := (a.extractLsb' 0 32).toNat
    let dst := (a.extractLsb' 32 32).toNat
    let tab := (b.extractLsb' 0 32).toNat
    let n := (b.extractLsb' 32 16).toNat
    let elog := (b.extractLsb' 48 3).toNat
    let len := n * 2 ^ elog
    let rs := [(src, src + len), (dst, dst + len), (tab, tab + 2 * n)]
    let out := rs.filter (fun r => c.x.foot.sp < r.2)
    let odd := [src, dst].filter (fun x => x % 2 ^ elog != 0) ++ [tab].filter (fun x => x % 2 != 0)
    let bf := c.barFault bar
    let barOut := (bar.map (fun x => decide (c.x.foot.sp ≤ x))).getD false
    if b.extractLsb' 51 13 != 0 || n == 0 || 4 < elog then c.trap .qerr
    else if !out.isEmpty then c.trap .prot ((out.map (·.1)).headD 0)
    else if barOut then bf.getD (c.trap .prot)
    else if !odd.isEmpty then c.trap .align (odd.headD 0)
    else match bf with
    | some r => r
    | none => c.launch s .shuffle rs [(false, src, src + len, false), (false, dst, dst + len, true)] ((len + 8191) / 8192)
        (fun _ _ => .shuf { src := src, dst := dst, table := tab, n := n, elog := elog, bar := bar }))

/-- The tokens of the elements that a merge has left (R288, R289). -/
def Merge.tokens (m : Merge) : Nat := ((m.na - m.i) + (m.nb - m.j) + 63) / 64

/-- The four range-lock entries of a merge (R114, R287). -/
def Merge.ranges (m : Merge) : List (Bool × Nat × Nat × Bool) :=
  [(true, m.a, m.a + 8 * m.na, false), (true, m.b, m.b + 8 * m.nb, false), (true, m.o, m.o + 8 * (m.na + m.nb), true),
   (true, m.st, m.st + 16, true)]

/-- MRGK (R287). -/
def execMrgk (t : Tail) (e : EFields) (s32 : Bool) (s : State) : Out :=
  tileIssue true t s (fun c s =>
    let bar := c.absBar e 5
    let g := fun (k : Nat) => c.tk.greg (e.p.toNat + k)
    let ns := g 3
    let m : Merge := { tk := c.t, slot := c.k, tag := c.tag, sup := c.sup, pc := c.sl.pc, s32 := s32, a := (g 0).toNat,
                       b := (g 1).toNat, o := (g 2).toNat, na := (ns.extractLsb' 0 32).toNat,
                       nb := (ns.extractLsb' 32 32).toNat, st := (g 4).toNat, bar := bar }
    let odd := [m.a, m.b, m.o].filter (fun x => x % 8 != 0) ++ [m.st].filter (fun x => x % 16 != 0)
    let high := [m.a, m.b, m.o, m.st].filter (fun x => 2 ^ 48 ≤ x)
    let barOut := (bar.map (fun x => decide (c.x.foot.sp ≤ x))).getD false
    let drawn := if c.sl.phase.granted then c.sl.phase.paid else s.heldBy c.g [c.t]
    let capped := decide (tokenCap < m.tokens - drawn)
    if barOut then (c.barFault bar).getD (c.trap .prot)
    else if !odd.isEmpty then c.trap .align (odd.headD 0)
    else match c.barFault bar with
    | some r => r
    | none =>
      if !high.isEmpty then c.trap .xlate (high.headD 0)
      else c.launch s .merge [] m.ranges m.tokens (fun _ id => .merge { m with id := id, left := true, asked := true, capped := capped }))

/-! ### The region table (R104, R105, R290) -/

/-- A window of a gang by number. -/
def Gang.window? (x : Gang) (k : Nat) : Option Window := (x.windows[k]?).join

/-- RTSET (R104, R105, R290). -/
def execRtset (t : Tail) (k : BitVec 4) (a b : USrc) (s : State) : Out :=
  tileIssue true t s (fun c s =>
    let bar := ((c.tk.uval b).extractLsb' 0 32).toNat
    let filling := fun (x : Gang) => (x.window? k.toNat).any (fun w => w.state == .filling)
    if filling c.x then c.trap .qerr
    else match c.descriptor s (c.tk.uval a) (some bar) with
    | .error r => r
    | .ok (s, d) =>
      let w : Window := { desc := d, state := .absent, bar := bar }
      let clash := c.x.windows.zipIdx.any (fun e => e.2 != k.toNat && e.1.any (fun v => overlap v.range w.range))
      if !descOk d c.x.foot.sp || descDir d != 0 || clash then c.trap .qerr
      else match c.barFault (some bar) with
      | some r => r
      | none => .next (s.modGang c.g (fun y => { y with windows := y.windows.set k.toNat (some w) })) false)

/-- RTSTATE (R290). -/
def execRtstate (t : Tail) (k : BitVec 4) (d : Dst) (s : State) : Out :=
  tileIssue true t s (fun c s => .next (c.longOp s 2 (.rtstate (ldest d 1) k.toNat)) true)

/-- RTDROP (R105, R290). -/
def execRtdrop (t : Tail) (k : BitVec 4) (s : State) : Out :=
  tileIssue true t s (fun c s =>
    if (c.x.window? k.toNat).any (fun w => w.state == .filling) then c.trap .qerr
    else .next (s.modGang c.g (fun y => { y with windows := y.windows.set k.toNat none })) false)

/-- The number that RTSTATE reads. -/
def Gang.windowState (x : Gang) (k : Nat) : Nat :=
  match (x.window? k).map Window.state with
  | none => 0
  | some WState.absent => 1
  | some WState.filling => 2
  | some WState.present => 3

/-! ### Pieces of a tensor copy (R285, R403) -/

/-- The 128-byte pieces of a tensor copy. -/
def copyPieces (d : BitVec 512) : Nat := (descBytes d + 127) / 128

/-- The bytes of piece k: its start in the dense side and its length. -/
def pieceSpan (d : BitVec 512) (k : Nat) : Nat × Nat := (128 * k, min 128 (descBytes d - 128 * k))

/-- The elements of piece k on the strided side: each one's address before any wrap. -/
def pieceElems (d : BitVec 512) (k : Nat) : List Int :=
  let e := 2 ^ descElog d
  let sp := pieceSpan d k
  let base : Int := if descDir d == 2 then (descSrc d : Int) else (descG d : Int)
  (List.range (sp.2 / e)).map (fun i => base + descOffset d (sp.1 / e + i))

/-- Cuts an element at a page boundary. -/
def chunksOf (va : Int) (n : Nat) : List (Int × Nat) :=
  let m := min n (65536 - (va % 65536).toNat)
  if m < n then [(va, m), (va + m, n - m)] else [(va, n)]

/-- Translates the chunks of a piece: virtual address, physical address, length. -/
def State.engineWalk (s : State) (core : Nat) (p : Partition) (tenant : Nat) (sup : Bool) (acc : Access)
    (cs : List (Int × Nat)) (rd : Reader) : State × Except (Walk × Nat) (List (Nat × Nat × Nat)) :=
  cs.foldl (fun (a : State × Except (Walk × Nat) (List (Nat × Nat × Nat))) (ch : Int × Nat) =>
    match a.2 with
    | .error e => (a.1, .error e)
    | .ok ls =>
      if ch.1 < 0 then (a.1, .error (.xlate, (ch.1 % 2 ^ 64).toNat))
      else
        let r := a.1.translate core p tenant ch.1.toNat acc sup rd
        match r.2 with
        | .pa x .. => (r.1, .ok (ls ++ [(ch.1.toNat, x, ch.2)]))
        | w => (r.1, .error (w, ch.1.toNat))) (s, .ok [])

/-- What a translation result makes of an engine command of a level: the domain aborts, or a record of a KIND and a pause
(R395, R401, R403). Answers none where the domain aborted. -/
def State.engineFault (s : State) (o : Op) (x : Gang) (core : Nat) (sup : Bool) (pc : Addr) (kind : Nat) (w : Walk) (va : Nat) :
    State × Option Park :=
  let record := fun (level : Nat) =>
    let r := s.faultRecord x.part (fun id => mkRecord id (BitVec.ofNat 48 va) pc kind level o.slot x.tenant core
      (x.id % 2 ^ 24) 0)
    (r.1, some (Park.fault r.2))
  let abort := (s.abortDomain x.part x.tenant x.domain w.code.num (pc.setWidth 64), none)
  if sup then abort
  else match w with
  | .moving e => (s, some (.moving e))
  | .absent lv | .first lv _ => record lv
  | .xlate | .prot | .mchk _ | .pa .. => abort

/-- A translation fault of a window fill: the fault of the instruction whose touch started the fill, of that touch's level
(R106, R312, R395). While that tussock's handler runs, the fill of a user-level touch pauses until SRET. -/
def State.fillFault (s : State) (o : Op) (cp : Copy) (core : Nat) (x : Gang) (w : Walk) (va : Nat) : State :=
  let pause := fun (s : State) (p : Park) => s.modOp o.id (fun q => { q with kind := .copy { cp with paused := some p } })
  let pc := ((s.slot? o.gang o.tk o.slot).map (·.pc)).getD 0
  let trap :=
    let s := pause s .trapped
    if ((s.tk? o.gang o.tk).map (·.sup)).getD false then s
    else s.takeTrap o.gang o.tk o.slot { code := w.code, lanes := o.mask, addr := va }
  if cp.sup || w.code == .mchk then s.abortDomain x.part x.tenant x.domain w.code.num (pc.setWidth 64)
  else match w with
  | .moving e => pause s (.moving e)
  | .absent lv =>
    let r := s.faultRecord x.part (fun id => mkRecord id (BitVec.ofNat 48 va) pc 7 lv o.slot x.tenant core (x.id % 2 ^ 24) 0)
    let s := pause r.1 (.fault r.2)
    s.modSlot o.gang o.tk o.slot (fun z => match z.wait with
      | some v => (match v.cond with
        | .window _ => { z with wait := none, park := some (.fault r.2) }
        | _ => z)
      | none => z)
  | _ => trap

/-- Joins pieces that follow each other in memory, so that each is one write. -/
def joinRuns : List (Nat × List Byte) → List (Nat × List Byte)
  | [] => []
  | e :: rest =>
    match joinRuns rest with
    | [] => [e]
    | f :: more => if e.1 + e.2.length == f.1 then (e.1, e.2 ++ f.2) :: more else e :: f :: more

/-- Cuts a list of bytes along lengths. -/
def cutBytes : List Nat → List Byte → List (List Byte)
  | [], _ => []
  | n :: ns, bs => bs.take n :: cutBytes ns (bs.drop n)

/-- Replaces the bytes that a test names by free values (R113). -/
def State.freeWhere (s : State) (a : Nat) (bs : List Byte) (test : Nat → Bool) : State × List Byte :=
  if (List.range bs.length).all (fun i => !test (a + i)) then (s, bs)
  else ({ s with seed := s.seed + bs.length }, bs.zipIdx.map (fun e =>
    if test (a + e.2) then (Config.freeValue (s.seed + e.2)).extractLsb' 0 8 else e.1))

/-- Whether a scratchpad byte is a source byte of a copy within scratchpad. -/
def descReadsByte (d : BitVec 512) (a : Nat) : Bool :=
  let r := descRange d
  decide (r.1 ≤ a) && decide (a < r.2) && (List.range (descCount d)).any (fun n =>
    let e := (descSrc d : Int) + descOffset d n
    decide (e ≤ (a : Int)) && decide ((a : Int) < e + (2 ^ descElog d : Nat)))

/-- Credits n bytes of a copy to its barrier; after the last piece the command completes (R112, R285). -/
def State.copyCredit (s : State) (o : Op) (cp : Copy) (n : Nat) : State :=
  let s := match cp.bar with
    | some b => s.arrive o.gang b (BitVec.ofNat 32 n) 0 none
    | none => s
  if copyPieces cp.desc ≤ cp.done then (s.unlock o.id).finishOp o
  else s.modOp o.id (fun q => { q with kind := .copy { cp with owed := 0 } })

/-- The clock of a copy's next piece: 256 bytes a clock from its start, and the latency of its source (R285). -/
def pieceDue (cp : Copy) (lat : Nat) : Nat := cp.startAt + (cp.done + 2) / 2 + lat

/-- The latency of a copy's source: 20 clocks for scratchpad, a free delay for global memory (log 11). -/
def State.sourceLat (s : State) (d : BitVec 512) : Nat × State :=
  if descDir d == 0 then let r := s.delay; (200 + r.1, r.2) else (20, s)

/-- A piece has been performed: its bytes are credited now, or once the writes of page-table lines in it are complete
(R397); a fill credits nothing yet. -/
def State.pieceDone (s : State) (o : Op) (cp : Copy) (n : Nat) (waits : List Nat) : State :=
  let lat := s.sourceLat cp.desc
  let cp := { cp with done := cp.done + 1 }
  let due := max o.at_ (pieceDue cp lat.1)
  if cp.window.isSome then lat.2.modOp o.id (fun q => { q with at_ := due, kind := .copy cp })
  else if waits.isEmpty then
    lat.2.copyCredit o cp n |>.modOp o.id (fun q => { q with at_ := due })
  else lat.2.modOp o.id (fun q => { q with at_ := due, waits := waits, kind := .copy { cp with owed := n } })

/-- Reads n bytes of a gang's bank array through its ECC, as an engine reads (R435, R438). -/
def State.engineSp (s : State) (core : Nat) (x : Gang) (a n : Nat) : State × Bool × List Byte :=
  let e := s.eccSpan 1 core (x.spBase + a) n x.part (s.readerOf x.id)
  (e.1, e.2.1.isSome, bytesOfNat n ((natOfBytes (x.arr.bytes a n)) ^^^ e.2.2))

/-- Joins ranges (address, length) that follow each other: each is one request (R429). -/
def joinSpans : List (Nat × Nat) → List (Nat × Nat)
  | [] => []
  | e :: rest =>
    match joinSpans rest with
    | [] => [e]
    | f :: more => if e.1 + e.2 == f.1 then (e.1, e.2 + f.2) :: more else e :: f :: more

/-- Reads chunks of global memory through their ECC. -/
def State.engineGlobal (s : State) (p : Partition) (x : Gang) (cs : List (Nat × Nat × Nat)) : State × Bool × List Byte :=
  let s := (joinSpans (cs.map (·.2))).foldl (fun s r => s.demandOf x.id r.1 r.2 false) s
  cs.foldl (fun (a : State × Bool × List Byte) ch =>
    let e := a.1.eccGlobal p ch.2.1 ch.2.2 (s.readerOf x.id)
    (e.s, a.2.1 || e.lasting, a.2.2 ++ bytesOfNat ch.2.2 (a.1.mem.read ch.2.1 ch.2.2 ^^^ e.flip.toNat))) (s, false, [])

/-- The next piece of a copy is performed. -/
def State.copyPiece (s : State) (o : Op) (cp : Copy) (x : Gang) (p : Partition) (core : Nat) : State :=
  let d := cp.desc
  let sp := pieceSpan d cp.done
  let dense := descSp d + sp.1
  let elems := pieceElems d cp.done
  let cs := elems.flatMap (fun a => chunksOf a (2 ^ descElog d))
  let mchk := fun (s : State) => s.abortDomain x.part x.tenant x.domain TrapCode.mchk.num (cp.pc.setWidth 64)
  let fault := fun (s : State) (kind : Nat) (w : Walk) (va : Nat) =>
    if cp.window.isSome then s.fillFault o cp core x w va
    else match s.engineFault o x core cp.sup cp.pc kind w va with
      | (s, some k) => s.modOp o.id (fun q => { q with kind := .copy { cp with paused := some k } })
      | (s, none) => s
  match descDir d with
  | 0 =>
    let w := s.engineWalk core p x.tenant cp.sup .read cs (s.readerOf x.id)
    match w.2 with
    | .error e => fault w.1 5 e.1 e.2
    | .ok ls =>
      let r := w.1.engineGlobal p x ls
      if r.2.1 then mchk r.1
      else (r.1.modGang o.gang (fun y => y.arrPut dense r.2.2)).pieceDone o cp sp.2 []
  | 1 =>
    let w := s.engineWalk core p x.tenant cp.sup .write cs (s.readerOf x.id)
    match w.2 with
    | .error e => fault w.1 6 e.1 e.2
    | .ok ls =>
      let r := w.1.engineSp core x dense sp.2
      if r.2.1 then mchk r.1
      else
        let s := ls.foldl (fun s ch => s.setDirty p x.tenant ch.1) r.1
        let runs := joinRuns ((ls.map (·.2.1)).zip (cutBytes (ls.map (·.2.2)) r.2.2))
        let done := runs.foldl (fun (a : State × List Nat) run =>
          let q := (a.1.demandOf x.id run.1 run.2.length false).homePut run.1 run.2 (run.2.length + 1)
          (q.1, a.2 ++ q.2)) (s, [])
        done.1.pieceDone o cp sp.2 done.2
  | _ =>
    let r := elems.foldl (fun (a : State × Bool × List Byte) e =>
      let q := a.1.engineSp core x e.toNat (2 ^ descElog d)
      (q.1, a.2.1 || q.2.1, a.2.2 ++ q.2.2)) (s, false, [])
    if r.2.1 then mchk r.1
    else
      let f := r.1.freeWhere dense r.2.2 (descReadsByte d)
      (f.1.modGang o.gang (fun y => y.arrPut dense f.2)).pieceDone o cp sp.2 []

/-- ENGINE_PIECE_CREDIT (R285): a 128-byte piece of a tensor copy or fill is performed, and credited. -/
def execEnginePieceCredit (op : Nat) (s : State) : Out :=
  match s.op? op with
  | none => .next s
  | some o =>
    match o.kind, s.gang? o.gang, o.core with
    | .copy cp, some x, some core =>
      (match s.part? x.part with
      | none => .next s
      | some p =>
        if !cp.started || cp.paused.isSome || o.waits.any (fun w => !s.settled w) then .next s
        else if cp.owed != 0 then .next (s.copyCredit o cp cp.owed)
        else if copyPieces cp.desc ≤ cp.done || s.clk core < o.at_ then .next s
        else .next (s.copyPiece o cp x p core))
    | _, _, _ => .next s

/-- WINDOW_FILL_DONE (R105, R106): the last byte is written, so the window is PRESENT and its bytes are credited. -/
def execWindowFillDone (op : Nat) (s : State) : Out :=
  match s.op? op with
  | none => .next s
  | some o =>
    match o.kind with
    | .copy cp =>
      (match cp.window with
      | some k =>
        if !cp.started || cp.done < copyPieces cp.desc then .next s
        else
          let fill := fun (w : Window) => { w with state := WState.present }
          let s := s.modGang o.gang (fun y => { y with windows := y.windows.modify k (fun w => w.map fill) })
          let s := match cp.bar with
            | some b => s.arrive o.gang b (BitVec.ofNat 32 (descBytes cp.desc)) 0 none
            | none => s
          .next (s.dropOp op)
      | none => .next s)
    | _ => .next s

/-! ### Shuffles (R286) -/

/-- The bytes that a shuffle writes, from the bank array. -/
def shuffleBytes (arr : Memory) (f : Shuffle) : List Byte :=
  let e := 2 ^ f.elog
  (List.range f.n).flatMap (fun j =>
    let i := arr.read (f.table + 2 * j) 2
    if i < f.n then arr.bytes (f.src + e * i) e else List.replicate e 0)

/-- SHUF_COMPLETE (R286): every element is written, and the bytes are credited. -/
def execShufComplete (op : Nat) (s : State) : Out :=
  match s.op? op with
  | none => .next s
  | some o =>
    match o.kind, s.gang? o.gang, o.core with
    | .shuf f, some x, some core =>
      if !f.started || s.clk core < o.at_ then .next s
      else
        let len := f.n * 2 ^ f.elog
        let a := s.engineSp core x f.src len
        let b := a.1.engineSp core x f.table (2 * f.n)
        if a.2.1 || b.2.1 then .next (b.1.abortDomain x.part x.tenant x.domain TrapCode.mchk.num 0)
        else
          let arr := (x.arr.put f.src a.2.2).put f.table b.2.2
          let w := b.1.freeWhere f.dst (shuffleBytes arr f) (fun i => decide (f.src ≤ i) && decide (i < f.src + len))
          let s := w.1.modGang o.gang (fun y => y.arrPut f.dst w.2)
          let s := match f.bar with
            | some k => s.arrive o.gang k (BitVec.ofNat 32 len) 0 none
            | none => s
          .next ((s.unlock op).finishOp o)
    | _, _, _ => .next s

/-! ### Merges (R287, R289) -/

/-- The status record of a merge. -/
def Merge.record (m : Merge) (bad : Bool) : Nat :=
  m.i + m.j * 2 ^ 32 + m.k * 2 ^ 64 + (if bad then 2 ^ 96 else 0) + m.flags.toNat * 2 ^ 97

/-- The sum of two values of a merge: value and flags (R287). -/
def Merge.sum (m : Merge) (a b : BitVec 32) : BitVec 32 × BitVec 5 :=
  if m.s32 then (a + b, 0)
  else let r := arith2 f32 false 0 0 a.toNat b.toNat; (BitVec.ofNat 32 r.1, r.2)

/-- What a merge's access to 8 or 16 bytes of global memory gives: the physical address, or the state that the fault
leaves. -/
def State.mergeAddr (s : State) (o : Op) (m : Merge) (x : Gang) (p : Partition) (core va : Nat) (acc : Access) :
    Except State (State × Nat) :=
  let r := s.translate core p x.tenant va acc m.sup (s.readerOf x.id)
  match r.2 with
  | .pa a .. => .ok (if acc == .write then r.1.setDirty p x.tenant va else r.1, a)
  | w =>
    match r.1.engineFault o x core m.sup m.pc (if acc == .write then 6 else 5) w va with
    | (s, some k) => .error (s.modOp o.id (fun q => { q with kind := .merge { m with paused := some k } }))
    | (s, none) => .error s

/-- Reads an element of a merge: key and value. -/
def State.mergeRead (s : State) (o : Op) (m : Merge) (x : Gang) (p : Partition) (core va : Nat) :
    Except State (State × BitVec 32 × BitVec 32) :=
  match s.mergeAddr o m x p core va .read with
  | .error s => .error s
  | .ok (s, a) =>
    let e := (s.demandOf x.id a 8 false).eccGlobal p a 8 (s.readerOf x.id)
    if e.lasting then .error (e.s.abortDomain x.part x.tenant x.domain TrapCode.mchk.num (m.pc.setWidth 64))
    else
      let v := BitVec.ofNat 64 (s.mem.read a 8) ^^^ e.flip.extractLsb' 0 64
      .ok (e.s, v.extractLsb' 0 32, v.extractLsb' 32 32)

/-- Whether a byte lies in an input of a merge (R113). -/
def Merge.reads (m : Merge) (va : Nat) : Bool :=
  (decide (m.a ≤ va) && decide (va < m.a + 8 * m.na)) || (decide (m.b ≤ va) && decide (va < m.b + 8 * m.nb))

/-- A merge writes n bytes; those that overlap its inputs become undefined (R113). -/
def State.mergeWrite (s : State) (o : Op) (m : Merge) (x : Gang) (p : Partition) (core va n v : Nat) :
    Except State (State × List Nat) :=
  match s.mergeAddr o m x p core va .write with
  | .error s => .error s
  | .ok (s, a) =>
    let f := (s.demandOf x.id a n false).freeWhere va (bytesOfNat n v) m.reads
    .ok (f.1.homeWrite a n (natOfBytes f.2))

/-- Writes the status record; the credit follows once the write is complete. -/
def State.mergeEnd (s : State) (o : Op) (m : Merge) (x : Gang) (p : Partition) (core : Nat) (bad : Bool) : State :=
  match s.mergeWrite o m x p core m.st 16 (m.record bad) with
  | .error s => s
  | .ok w => w.1.modOp o.id (fun q => { q with waits := q.waits ++ w.2, kind := .merge { m with ended := true } })

/-- Writes an output element and moves the cursors. -/
def State.mergePut (s : State) (o : Op) (m m' : Merge) (x : Gang) (p : Partition) (core : Nat) (key val : BitVec 32) : State :=
  match s.mergeWrite o m x p core (m.o + 8 * m.k) 8 (val ++ key).toNat with
  | .error s => s
  | .ok w =>
    w.1.modOp o.id (fun q => { q with at_ := s.clk core + 1, waits := q.waits ++ w.2, kind := .merge { m' with k := m.k + 1 } })

/-- An element of a stream that has one left. -/
def State.mergeSide (s : State) (o : Op) (m : Merge) (x : Gang) (p : Partition) (core : Nat) (left : Bool) (va : Nat) :
    Except State (State × Option (BitVec 32 × BitVec 32)) :=
  if !left then .ok (s, none)
  else match s.mergeRead o m x p core va with
    | .error s => .error s
    | .ok (s, k, v) => .ok (s, some (k, v))

/-- Whether a stream breaks strict order at its cursor. -/
def unordered (e : Option (BitVec 32 × BitVec 32)) (last : Option (BitVec 32)) : Bool :=
  match e, last with
  | some (k, _), some l => decide (k ≤ l)
  | _, _ => false

/-- One turn of the loop of R287. -/
def State.mergeTurn (s : State) (o : Op) (m : Merge) (x : Gang) (p : Partition) (core : Nat) : State :=
  if m.na ≤ m.i && m.nb ≤ m.j then s.mergeEnd o m x p core false
  else match s.mergeSide o m x p core (decide (m.i < m.na)) (m.a + 8 * m.i) with
  | .error s => s
  | .ok (s, ea) =>
    if unordered ea m.lastA then s.mergeEnd o m x p core true
    else match s.mergeSide o m x p core (decide (m.j < m.nb)) (m.b + 8 * m.j) with
    | .error s => s
    | .ok (s, eb) =>
      if unordered eb m.lastB then s.mergeEnd o m x p core true
      else
        let takeA := fun (e : BitVec 32 × BitVec 32) =>
          s.mergePut o m { m with i := m.i + 1, lastA := some e.1 } x p core e.1 e.2
        let takeB := fun (e : BitVec 32 × BitVec 32) =>
          s.mergePut o m { m with j := m.j + 1, lastB := some e.1 } x p core e.1 e.2
        match ea, eb with
        | some a, some b =>
          if a.1 < b.1 then takeA a
          else if b.1 < a.1 then takeB b
          else
            let r := m.sum a.2 b.2
            let m' := { m with i := m.i + 1, j := m.j + 1, lastA := some a.1, lastB := some b.1, flags := m.flags ||| r.2 }
            s.mergePut o m m' x p core a.1 r.1
        | some a, none => takeA a
        | none, some b => takeB b
        | none, none => s

/-- MRGK_COMPLETE (R287): the merge unit advances by one element; after the last one it writes the status record and
credits one byte, which completes the command. It waits while a capped request still asks for leave (R428). -/
def execMrgkComplete (op : Nat) (s : State) : Out :=
  match s.op? op with
  | none => .next s
  | some o =>
    match o.kind, s.gang? o.gang, o.core with
    | .merge m, some x, some core =>
      (match s.part? x.part with
      | none => .next s
      | some p =>
        if !m.started || m.paused.isSome || s.clk core < o.at_ then .next s
        else if m.ended then
          if o.waits.any (fun w => !s.settled w) then .next s
          else
            let s := match m.bar with
              | some b => s.arrive o.gang b 1 0 none
              | none => s
            .next ((s.unlock op).finishOp o)
        else if s.opAsks op then .next s
        else .next (s.mergeTurn o m x p core))
    | _, _, _ => .next s

/-- A running merge stops before its next element; its record goes into the gang's context and its locks are
released (R289). -/
def State.mergeStop (s : State) (o : Op) (m : Merge) : State :=
  let rec_ : Merge := { m with id := o.id, tagSlots := o.tagSlots, left := false, asked := false, started := false, resumed := true }
  ((s.unlock o.id).modGang o.gang (fun y => { y with merges := y.merges ++ [rec_] })).dropOp o.id

/-- Puts a stopped merge of a gang back as an operation (R289). -/
def State.mergeResume (s : State) (g core : Nat) (m : Merge) : State :=
  let o : Op := { id := m.id, gang := g, tk := m.tk, slot := m.slot, core := some core, at_ := 0, tag := m.tag,
                  tagSlots := m.tagSlots, kind := .merge m }
  { s with ops := s.ops ++ [o] }

/-- Whether a resumed merge can go on: ask for leave, or register its ranges and start. -/
def State.mergeCanGo (s : State) (o : Op) (m : Merge) : Bool :=
  if !m.left then !m.asked else match o.core with
    | some core => decide (4 ≤ s.lockRoom core)
    | none => false

/-- A resumed merge asks for the leave of its remaining elements, registers its ranges and starts (R289). -/
def State.mergeGo (s : State) (o : Op) (m : Merge) : State :=
  match s.gang? o.gang, o.core with
  | some x, some core =>
    if m.left then
      let lock := fun (r : Bool × Nat × Nat × Bool) =>
        ({ op := o.id, gang := x.id, glob := r.1, part := x.part, tenant := x.tenant, lo := r.2.1, hi := r.2.2.1, isDst := r.2.2.2 } : Lock)
      let locks := m.ranges.map lock
      let go := fun (q : Op) => { q with at_ := s.clk core + 1, kind := OpKind.merge { m with started := true } }
      (s.modCore core (fun k => { k with locks := k.locks ++ locks })).modOp o.id go
    else
      let r := s.seekLeave o.gang [o.tk] o.tk o.slot m.tokens (some o.id)
      let m := { m with asked := true, capped := decide (tokenCap < m.tokens - r.2.1), left := r.2.2.isNone }
      r.1.modOp o.id (fun q => { q with kind := .merge m })
  | _, _ => s

/-! ### Starts -/

/-- Whether an engine command or matrix loop can start or go on now (R285, R270). -/
def State.engineCanStart (s : State) (o : Op) : Bool :=
  match o.kind with
  | .copy c => !c.started && decide (o.at_ ≤ s.opClk o)
  | .shuf c => !c.started && decide (o.at_ ≤ s.opClk o)
  | .merge m => !m.started && (if m.resumed then s.mergeCanGo o m else decide (o.at_ ≤ s.opClk o))
  | .loop l => s.loopCanGo o l
  | _ => false

/-- ENGINE_START (R114, R270, R285): a command starts, or one that waited for leave or range locks goes on. -/
def execEngineStart (op : Nat) (s : State) : Out :=
  match s.op? op with
  | none => .next s
  | some o =>
    if !s.engineCanStart o then .next s
    else
      let now := s.opClk o
      match o.kind with
      | .copy c =>
        let lat := s.sourceLat c.desc
        let c := { c with started := true, startAt := now }
        let due := pieceDue c lat.1
        .next (lat.2.modOp op (fun q => { q with at_ := due, kind := .copy c }))
      | .shuf f =>
        let r := s.delay
        .next (r.2.modOp op (fun q => { q with at_ := now + 1 + r.1, kind := .shuf { f with started := true } }))
      | .merge m =>
        if m.resumed then .next (s.mergeGo o m)
        else .next (s.modOp op (fun q => { q with at_ := now + 1, kind := .merge { m with started := true } }))
      | .loop l => .next (s.loopGo o l)
      | _ => .next s

end Sys2Proof.Machine
end

