-- ==== Sys2Proof/Machine/Jcp.lean ====
section
/-! DEFINITION. JCP headers, endpoints and responses (R378 to R380). -/

namespace Sys2Proof.Machine

open Sys2Proof

/-- VER of a header. -/
def hdrVer (h : BitVec 512) : Nat := (h.extractLsb' 0 8).toNat
/-- TYPE. -/
def hdrType (h : BitVec 512) : Nat := (h.extractLsb' 8 4).toNat
/-- OP. -/
def hdrOp (h : BitVec 512) : Nat := (h.extractLsb' 16 8).toNat
/-- PART. -/
def hdrPart (h : BitVec 512) : Nat := (h.extractLsb' 24 6).toNat
/-- TENANT. -/
def hdrTenant (h : BitVec 512) : Nat := (h.extractLsb' 32 8).toNat
/-- EP. -/
def hdrEp (h : BitVec 512) : Nat := (h.extractLsb' 40 2).toNat
/-- STATUS. -/
def hdrStatus (h : BitVec 512) : Nat := (h.extractLsb' 48 16).toNat
/-- SEQ. -/
def hdrSeq (h : BitVec 512) : BitVec 32 := h.extractLsb' 64 32
/-- LEN. -/
def hdrLen (h : BitVec 512) : Nat := (h.extractLsb' 96 32).toNat
/-- ARG0 to ARG3. -/
def hdrArg (h : BitVec 512) (k : Nat) : BitVec 64 := h.extractLsb' (128 + 64 * k) 64
/-- TAG. -/
def hdrTag (h : BitVec 512) : BitVec 64 := h.extractLsb' 384 64
/-- Whether the reserved fields are 0. -/
def hdrReserved (h : BitVec 512) : Bool :=
  h.extractLsb' 448 64 == 0 && h.extractLsb' 42 6 == 0 && h.extractLsb' 30 2 == 0 && h.extractLsb' 12 4 == 0

/-- An endpoint: number 63 is the management endpoint (R376, R378). -/
def State.endpoint? (s : State) (p ep : Nat) : Option Endpoint :=
  if p == 63 then some s.dev.mgmt else (s.part? p).bind (fun x => x.eps[ep]?)

/-- Changes an endpoint. -/
def State.modEndpoint (s : State) (p ep : Nat) (f : Endpoint → Endpoint) : State :=
  if p == 63 then s.modDev (fun d => { d with mgmt := f d.mgmt })
  else s.modPart p (fun x => { x with eps := x.eps.modify ep f })

/-- The response message to a command (R380). -/
def answer (m : JcpMsg) (status : Nat) (arg0 : BitVec 64) (payload : List Byte) : OutMsg :=
  let h := m.hdr
  { part := hdrPart h, dest := m.src, payload := payload,
    hdr := mkHdr 1 (hdrOp h) (hdrPart h) (hdrTenant h) (hdrEp h) status (hdrSeq h) payload.length (hdrTag h) arg0 0 0 0 }

/-- The number of the endpoint that a command names: the management endpoint has one. -/
def endpointOf (m : JcpMsg) : Nat := if hdrPart m.hdr == 63 then 0 else hdrEp m.hdr

/-- Answers a command that an endpoint runs: the response is stored, and the commands that waited behind it come
next (R379). -/
def State.respond (s : State) (m : JcpMsg) (status : Nat) (arg0 : BitVec 64) (payload : List Byte) : State :=
  let p := hdrPart m.hdr
  let ep := if p == 63 then 0 else hdrEp m.hdr
  let o := answer m status arg0 payload
  let waiting := ((s.endpoint? p ep).map (·.queue)).getD []
  let keep : JcpMsg := { src := o.dest, hdr := o.hdr, payload := o.payload }
  let s := s.modEndpoint p ep (fun e => { e with
    busy := none, queue := [], waits := none, stored := (e.stored ++ [(hdrSeq m.hdr, keep)]).drop (e.stored.length + 1 - 64) })
  { s with outbox := s.outbox ++ [o], inbox := waiting.map (fun q => Input.jcp q) ++ s.inbox }

/-- The command that an endpoint runs, by its SEQ. -/
def State.running? (s : State) (p ep : Nat) (seq : BitVec 32) : Option JcpMsg :=
  ((s.endpoint? p ep).bind (·.busy)).filter (fun m => hdrSeq m.hdr == seq)

end Sys2Proof.Machine
end

