-- ==== Sys2Proof/Machine/Tasks.lean ====
section
/-! DEFINITION. Templates, task creation, the task unit, page moves, and SPAWN, TDEP, TSIG, TEND, MIGR (R28 to R35,
R291 to R296, R388 to R390, R404, R405, R452). -/

namespace Sys2Proof.Machine

open Sys2Proof

/-! ### Templates (R342, R343, R388 to R390) -/

/-- Reads n 8-byte words at an 8-byte-aligned virtual address as the S9 does, lowest first; none where one has no
translation. -/
def State.vreadN (s : State) (p : Partition) (tenant va n : Nat) : Option Nat :=
  (List.range n).foldr (fun i (acc : Option Nat) =>
    match acc, s.vread p tenant (va + 8 * i) 8 with
    | some v, some w => some (v * 2 ^ 64 + w)
    | _, _ => none) (some 0)

/-- A footprint record (R29, R107, R342); none where it breaks a rule. -/
def decFoot (f : BitVec 256) : Option Foot :=
  let n := fun (lo len : Nat) => (f.extractLsb' lo len).toNat
  let tagS := 2 ^ n 137 4
  let tagZ := 2 ^ (n 141 3 + 8)
  let tags := f.getLsbD 136
  let bad := f.extractLsb' 144 112 != 0 || f.extractLsb' 131 5 != 0 || f.extractLsb' 125 3 != 0 || f.extractLsb' 118 2 != 0 ||
    f.extractLsb' 104 8 != 0 || 32 < n 112 6 || 16 < n 120 5 || n 64 32 % 256 != 0 || 2 ^ 21 < n 64 32 ||
    (tags && (2048 < tagS || 4096 < tagZ || n 64 32 < 4 * tagS * tagZ)) || f.extractLsb' 48 16 != 0 || n 0 3 != 0
  if bad then none
  else some { entry := f.extractLsb' 0 48, regs := n 96 8 + 1, sp := n 64 32, xt := n 112 6, yt := n 120 5, team := n 128 3 + 1,
              tags := if tags then some (tagS, tagZ) else none }

/-- What a launch node's object gives every task: footprint, argument block, counter, private blocks. -/
structure Template where
  foot  : Foot
  args  : BitVec 64
  ctr   : Nat
  base  : Nat
  size  : Nat
  deriving DecidableEq, Repr, Inhabited

/-- The fields of a template's 64 bytes, with the value of TUSM1 (R388). -/
def decTemplate (t : BitVec 512) : Option (Template × Nat) :=
  match decFoot (t.extractLsb' 0 256) with
  | none => none
  | some f =>
    let base := (t.extractLsb' 320 48).toNat
    let size := (t.extractLsb' 384 24).toNat
    if t.extractLsb' 408 104 != 0 || t.extractLsb' 373 11 != 0 || base % 128 != 0 || size % 128 != 0 then none
    else some ({ foot := f, args := (t.extractLsb' 256 48).setWidth 64, ctr := (t.extractLsb' 304 16).toNat, base := base, size := size },
               (t.extractLsb' 368 5).toNat)

/-- A role record (R343, R389). -/
def decRole (r : BitVec 128) : Option Role :=
  let kind := (r.extractLsb' 77 2).toNat
  if r.extractLsb' 79 49 != 0 || kind == 0 || r.extractLsb' 48 16 != 0 || (r.extractLsb' 0 3) != 0 then none
  else some { kind := kind, pc := r.extractLsb' 0 48, regs := (r.extractLsb' 64 8).toNat + 1, count := (r.extractLsb' 72 5).toNat + 1 }

/-- Whether kinds rise strictly. -/
def kindsRise : List Role → Bool
  | [] => true
  | [_] => true
  | a :: b :: rest => decide (a.kind < b.kind) && kindsRise (b :: rest)

/-- The template of a launch node's object of a kind 0 or 1, or the JCP status that refuses it: 5 malformed, 8 not
readable (R380, R388, R389). -/
def State.template (s : State) (p : Partition) (tenant obj kind : Nat) : Except Nat Template :=
  if obj % 8 != 0 then .error 5 else
  match s.vreadN p tenant obj 8 with
  | none => .error 8
  | some raw =>
    match decTemplate (BitVec.ofNat 512 (if kind == 0 then raw else raw / 2 ^ 64 * 2 ^ 64)) with
    | none => .error 5
    | some (t, tus) =>
      if kind == 0 then
        (if (tus + 1) % t.foot.team != 0 then .error 5 else .ok { t with foot := { t.foot with tus := tus + 1 } })
      else if 2 < tus then .error 5
      else
        let words := (List.range (tus + 1)).map (fun i => s.vreadN p tenant (obj + 64 + 16 * i) 2)
        let roles := words.filterMap (fun w => w.bind (fun v => decRole (BitVec.ofNat 128 v)))
        let n := roles.foldl (fun n r => n + r.count) 0
        if words.any (·.isNone) then .error 8
        else if roles.length != tus + 1 || !kindsRise roles || 32 < n || n % t.foot.team != 0 then .error 5
        else .ok { t with foot := { t.foot with tus := n, roles := roles } }

/-- The kind-specific words of a launch RCB (R386): LKIND, object, N, ORDERED; none where a reserved bit is set. -/
def launchWords (l : BitVec 1024) : Option (Nat × Nat × Nat × Bool) :=
  if l.extractLsb' 408 40 != 0 || l.extractLsb' 371 13 != 0 || l.extractLsb' 368 2 == 3 then none
  else some ((l.extractLsb' 368 2).toNat, (l.extractLsb' 320 48).toNat, (l.extractLsb' 384 24).toNat + 1, l.getLsbD 370)

/-! ### Footprints against ceilings (R26, R29, R30) -/

/-- The registers of tussock i of a gang per lane: its role's, or the template's. -/
def Foot.roleOf (f : Foot) (i : Nat) : Option (Role × Nat) :=
  (f.roles.foldl (fun (a : Nat × Option (Role × Nat)) r =>
    if a.2.isSome then a else if i < a.1 + r.count then (a.1, some (r, i - a.1)) else (a.1 + r.count, none)) (0, none)).2

/-- Registers per lane of tussock i. -/
def Foot.regsOf (f : Foot) (i : Nat) : Nat := ((f.roleOf i).map (·.1.regs)).getD f.regs

/-- Main-register bytes of a gang. -/
def Foot.mbytes (f : Foot) : Nat := (List.range f.tus).foldl (fun n i => n + 128 * f.regsOf i) 0

/-- Whether a footprint can never be placed: on an empty core, or within the ceilings that stand (R26, R30). -/
def footNever (ch : Chain) (f : Foot) : Bool :=
  let room := (List.range 8).all (fun o => decide (((List.range f.tus).filter (fun i => i % 8 == o)).foldl
    (fun n i => n + 128 * f.regsOf i) 0 ≤ 2 ^ 18))
  !(room && f.tus ≤ 32 && f.sp ≤ 2 ^ 21 && f.xt ≤ 32 && f.yt ≤ 16 && f.tus ≤ effective 0 ch && f.mbytes ≤ effective 1 ch &&
    f.sp ≤ effective 2 ch)

/-! ### Creation (R32, R33, R291) -/

/-- The first number from one on whose handle is not 0 and names no task that is kept (R291). -/
def State.freeHandle (s : State) (n : Nat) : Nat → Nat
  | 0 => n
  | fuel + 1 =>
    if n % 2 ^ 24 == 0 || s.tasks.any (fun t => t.id % 2 ^ 24 == n % 2 ^ 24) then s.freeHandle (n + 1) fuel else n

/-- Adds a task: its number, ready at once where its counter is 0. Answers its number. -/
def State.addTask (s : State) (t : Task) : State × Nat :=
  let id := s.freeHandle s.nextTask (s.tasks.length + 2)
  let t := { t with id := id, ready := t.ctr == 0, readySeq := s.nextSeq }
  ({ s with tasks := s.tasks ++ [t], nextTask := id + 1, nextSeq := s.nextSeq + 1 }, id)

/-- Adds n to a job's outstanding count; a job that is not counted yet begins (R35). -/
def State.jobUp (s : State) (p tenant rcb n : Nat) : State :=
  match s.job? p rcb tenant with
  | some _ => s.modJob p tenant rcb (fun j => { j with out := j.out + n })
  | none => s.modPart p (fun x => { x with jobs := x.jobs ++ [{ part := p, tenant := tenant, rcb := rcb, out := n }] })

/-- The task that a launch node of a tenant makes, or none where it names no task template (R23, R292). -/
def State.spawnTask (s : State) (p : Partition) (tenant node : Nat) (index depth : Nat) (args : BitVec 64)
    (ctr : Option Nat) : Option (Chain × Task) :=
  match (s.chain p tenant node).filter (fun _ => s.tenantOk p tenant) with
  | none => none
  | some ch =>
    match launchWords ((ch.map (·.2)).headD 0) with
    | some (0, obj, _, _) =>
      (match s.template p tenant obj 0 with
      | .error _ => none
      | .ok t =>
        let job := rcbParent ((ch.map (·.2)).headD 0)
        let j := s.job? p.num job tenant
        some (ch, { id := 0, part := p.num, tenant := tenant, job := job, launch := node, group := s.nextSeq, index := index,
                    depth := depth, ctr := ctr.getD t.ctr, foot := t.foot, args := if args == 0 then t.args else args,
                    privBase := t.base, privSz := t.size, rank := (j.map (·.rank)).getD 0,
                    ranks := max 1 ((j.map (·.feps.length)).getD 1) }))
    | _ => none

/-! ### Handles (R291) -/

/-- What a task handle names. -/
inductive Handle where
  | bad (code : TrapCode)
  | remote (rank task : Nat)
  | here (t : Task)
  | gone
  deriving DecidableEq, Repr, Inhabited

/-- Reads a handle: reserved bits, 0 and ranks beyond the PGT raise #QERR, a task of another tenant #PROT; a handle
given earlier whose job is over names a task that has ended. -/
def Ctx.handle (c : Ctx) (s : State) (v : BitVec 64) : Handle :=
  let task := (v.extractLsb' 0 24).toNat
  let rank := (v.extractLsb' 24 16).toNat
  let job := ((s.task? c.g).map (·.job)).getD 0
  let feps := ((s.job? c.x.part job c.x.tenant).map (·.feps.length)).getD 0
  if v.extractLsb' 41 23 != 0 || task == 0 then .bad .qerr
  else if v.getLsbD 40 then (if rank < feps then .remote rank task else .bad .qerr)
  else if rank != 0 then .bad .qerr
  else match s.byHandle c.x.part c.x.tenant task with
  | some t => if t.tenant == c.x.tenant then .here t else .bad .prot
  | none => if task < s.nextTask then .gone else .bad .qerr

/-! ### The units (R452) -/

/-- Whether a request belongs to an island unit. -/
def TaskReq.island : TaskReq → Bool
  | .icon _ | .ijnt .. | .iscene .. | .isceneDel _ | .istep .. | .made => true
  | _ => false

/-- Whether a request stands in a unit's queue: all but a remote one whose message has gone. -/
def TaskReq.queued : TaskReq → Bool
  | .remote .. => false
  | _ => true

/-- The partition of a request's task. -/
def State.partOf (_s : State) (o : Op) : Option Nat := o.who.map (·.1)

/-- Whether two requests wait in one unit: the task unit, or the island unit of the grove that they issued from (R13). -/
def State.sameUnit (_s : State) (a b : Op) : Bool :=
  match a.kind, b.kind with
  | .task x _, .task y _ =>
    x.queued && y.queued && x.island == y.island && (!x.island || a.src.map groveOf == b.src.map groveOf)
  | _, _ => false

/-- Whether two requests are ISTEPs on one scene, which are applied in issue order (R299). -/
def State.sameScene (s : State) (a b : Op) : Bool :=
  match a.kind, b.kind with
  | .task (.istep x _) _, .task (.istep y _) _ => x == y && s.partOf a == s.partOf b
  | _, _ => false

/-- Whether a request is at the front of its unit: requests reach it in the order of their numbers. -/
def State.atFront (s : State) (o : Op) : Bool :=
  s.ops.all (fun q => o.id ≤ q.id || !(s.sameUnit q o || s.sameScene q o))

/-- After a request has left a unit, the next one's time counts from now on. -/
def State.nextRequest (s : State) (o : Op) : State :=
  match (s.ops.filter (fun q => q.id != o.id && s.sameUnit q o)).find? (fun q => s.ops.all (fun r => r.id == o.id || q.id ≤ r.id || !s.sameUnit r q)) with
  | none => s
  | some q => s.modOp q.id (fun z => { z with at_ := max z.at_ (s.now + (match z.kind with
      | .task _ d => d
      | _ => 0)) })

/-- A request on its way: it reaches its unit one clock after issue, and is due `dur` clocks after it comes to the
front. -/
def Ctx.request (c : Ctx) (s : State) (r : TaskReq) (dur : Nat) (p6 : Option Bool) : State :=
  (s.addOp (fun id => { id := id, gang := c.g, tk := c.t, slot := c.k, core := none, src := some c.core,
                        who := some (c.x.part, c.x.tenant), at_ := s.now + 1 + dur, tag := c.tag, tagSlots := [c.k], mask := c.act,
                        p6 := p6, kind := .task r dur })).1

/-! ### SPAWN, TDEP, TSIG, TEND (R292 to R295) -/

/-- SPAWN (R292): the launch node and template are read at issue; the job's count rises at issue (R35). -/
def execSpawn (t : Tail) (d : Dst) (a b ctl : USrc) (s : State) : Out :=
  tileIssue true t s (fun c s =>
    let v := c.tk.uval ctl
    let args := c.tk.uval b
    let node := (c.tk.uval a).toNat
    let depth := ((s.task? c.g).map (·.depth)).getD 1 + 1
    let p := c.part s
    let rank := (v.extractLsb' 24 16).toNat
    let ctr := if v.getLsbD 47 then some (v.extractLsb' 48 16).toNat else none
    if v.extractLsb' 41 6 != 0 || (!v.getLsbD 40 && rank != 0) then c.trap .qerr
    else if 8 < depth then c.trap .spawndepth
    else match s.spawnTask p c.x.tenant node (v.extractLsb' 0 24).toNat depth args ctr with
    | none => c.trap .qerr
    | some (ch, tk) =>
      let feps := ((s.job? p.num tk.job c.x.tenant).map (·.feps.length)).getD 0
      if footNever ch tk.foot then c.trap .qerr
      else if v.getLsbD 40 && feps ≤ rank then c.trap .qerr
      else
        let s := s.jobUp p.num c.x.tenant tk.job 1
        if v.getLsbD 40 then
          .next (c.request s (.rspawn (ldest d 2) rank (c.tk.uval a) args v depth tk.job) 0 none) true
        else
          let r := s.delay
          .next (c.request r.2 (.spawn (ldest d 2) tk) (240 + r.1) none) true)

/-- The TDEPs in flight to a task. -/
def State.linking (s : State) (y : Nat) : List Nat :=
  (s.ops.filter (fun o => match o.kind with
    | .task (.tdep _ y') _ => y' == y
    | _ => false)).map (·.id)

/-- TDEP (R293). -/
def execTdep (t : Tail) (a b : USrc) (s : State) : Out :=
  tileIssue true t s (fun c s =>
    let one := fun (h : Handle) => match h with
      | .bad code => Except.error (c.trap code)
      | .remote .. => .error (c.trap .qerr)
      | .gone => .ok (none : Option Task)
      | .here t => .ok (some t)
    match one (c.handle s (c.tk.uval a)), one (c.handle s (c.tk.uval b)) with
    | .error r, _ => r
    | _, .error r => r
    | .ok x, .ok y =>
      let xid := (x.map (·.id)).getD 0
      let yid := (y.map (·.id)).getD 0
      let live := (x.map (fun t => !t.ended)).getD false
      let pend := s.linking yid
      let ctr := (y.map (·.ctr)).getD 0
      if live && 65535 ≤ ctr + pend.length then (if pend.isEmpty then c.trap .qerr else .stall s (.drain pend 0))
      else .next (c.request s (.tdep xid yid) 40 none) true)

/-- TSIG (R294). -/
def execTsig (t : Tail) (a b : USrc) (s : State) : Out :=
  tileIssue true t s (fun c s =>
    let n := ((c.tk.uval b).extractLsb' 0 16).toNat
    if n == 0 then c.trap .qerr
    else match c.handle s (c.tk.uval a) with
    | .bad code => c.trap code
    | .remote rank task => .next (c.request s (.rsig rank task n (((s.task? c.g).map (·.job)).getD 0)) 0 none) true
    | .gone => .next (c.request s (.tsig 0 n) 40 none) true
    | .here x => .next (c.request s (.tsig x.id n) 40 none) true)

/-- Ends a tussock with a status: both slots, every lane, the divergence stack (R295). -/
def State.endTussock (s : State) (g t status : Nat) : State :=
  let s := (s.withdraw g t 0).withdraw g t 1
  let s := s.modTk g t (fun y => { y with
    status := max y.status status, dead := Mask.all, stack := [], frame := none, sup := false,
    slots := y.slots.map (fun x => { x with valid := false, mask := 0, waitJoin := false, wait := none, park := none, stall := none, phase := {} }) })
  s.endCheck g t

/-- TEND (R295). -/
def execTend (t : Tail) (a : USrc) (s : State) : Out :=
  tileIssue true t s (fun c s =>
    let v := c.tk.uval a
    if v.extractLsb' 8 56 != 0 then c.trap .qerr
    else .out (.next (s.endTussock c.g c.t v.toNat)))

/-! ### Page moves (R99, R399, R404, R405) -/

/-- Takes a frame from a pool (R399): none where it is empty. -/
def State.takeFrame (s : State) (p : Partition) (near : Bool) : Option (Nat × State) :=
  let hdr := p.t0 + (if near then 0x100000 else 0x100040)
  let ring := p.t0 + (if near then 0x108000 else 0x110000)
  let h := s.mem.read hdr 4
  if h == s.mem.read (hdr + 4) 4 then none
  else some (s.mem.read (ring + 8 * (h % 4096)) 8, (s.homeWrite hdr 4 ((h + 1) % 2 ^ 32)).1)

/-- Frees a frame by a record of KIND 8 (R401, R405). -/
def State.freeFrame (s : State) (p tenant va frame : Nat) : State :=
  (s.faultRecord p (fun id => mkRecord id (BitVec.ofNat 48 va) (BitVec.ofNat 48 (frame / 65536)) 8 0 0 tenant 0 0 0)).1

/-- Near frames that the S9 holds for a node of a tenant; none: the partition root (R26). -/
def Partition.framesOf (p : Partition) (tenant : Nat) (node : Option Nat) : Nat :=
  (p.frames.filter (fun f => match node with
    | some n => f.tenant == tenant && f.nodes.contains n
    | none => true)).foldl (fun n f => n + f.count + f.frames.length) 0

/-- Changes what is counted for a set of nodes. -/
def Partition.modUse (p : Partition) (tenant : Nat) (nodes : List Nat) (f : FrameUse → FrameUse) : Partition :=
  let mine := fun (u : FrameUse) => u.tenant == tenant && u.nodes == nodes
  let old := (p.frames.find? mine).getD { tenant := tenant, nodes := nodes, count := 0 }
  { p with frames := p.frames.filter (fun u => !mine u) ++ [f old] }

/-- Counts frames that hold no page for a set of nodes. -/
def Partition.addFrames (p : Partition) (tenant : Nat) (nodes : List Nat) (n : Nat) : Partition :=
  p.modUse tenant nodes (fun u => { u with count := u.count + n })

/-- Counts a frame that takes a page for a set of nodes. -/
def Partition.addFrame (p : Partition) (tenant : Nat) (nodes : List Nat) (frame : Nat) : Partition :=
  p.modUse tenant nodes (fun u => { u with frames := u.frames ++ [frame] })

/-- A frame no longer counts for the nodes it counted for. -/
def Partition.dropFrame (p : Partition) (frame : Nat) : Partition :=
  { p with frames := p.frames.map (fun u => { u with frames := u.frames.filter (fun f => f != frame) }) }

/-- The nodes that a gang's frames count for, with their ceilings as it was placed: launch, job, tenant, root (R25,
R26). -/
def Gang.frameNodes (x : Gang) : List (Option Nat × Nat) := (x.power.map (fun (e : Nat × Nat) => some e.1) ++ [none]).zip x.near

/-- The RCB address of a tenant, from the tenant table; none where it does not exist (R387). -/
def State.tenantRcb (s : State) (p : Partition) (tenant : Nat) : Option Nat :=
  let e := s.mem.read (p.t0 + 0x100800 + 8 * tenant) 8
  if e.testBit 63 then some (e % 2 ^ 48) else none

/-- The nodes that frames taken for a host command count for: the tenant and the root. -/
def State.hostNodes (s : State) (p : Partition) (tenant : Nat) : List (Option Nat × Nat) :=
  match (s.tenantRcb p tenant).bind (fun a => (s.rcb p tenant a).map (fun r => (a, r))) with
  | some (a, r) => [(some a, effective 3 [(some a, r), (none, p.root)]), (none, rcbField p.root 3)]
  | none => [(none, rcbField p.root 3)]

/-- The nodes and ceilings of a portion: of the gang that asked, or of the host's tenant. -/
def State.frameNodes (s : State) (p : Partition) (m : PageMove) : List (Option Nat × Nat) :=
  if m.cmd.isSome then s.hostNodes p m.tenant else m.nodes

/-- A counter's decrement for a portion that is dealt with, or the progress of a host command (R296, R381). -/
def State.portionDone (s : State) (m : PageMove) : State :=
  let s := match m.link with
    | some t => s.decTask t
    | none => s
  match m.cmd with
  | none => s
  | some (ep, seq) =>
    let left := s.ops.any (fun o => match o.kind with
      | .move q | .moveReq q => q.part == m.part && q.cmd == m.cmd
      | _ => false)
    if left then s
    else match s.running? m.part ep seq with
      | some msg => s.respond msg 0 0 []
      | none => s

/-- An operation of the S9's own page mover, for a gang or (0) the host. -/
def State.moveOp (s : State) (g at_ : Nat) (waits : List Nat) (k : OpKind) : State :=
  (s.addOp (fun id => { id := id, gang := g, tk := 0, slot := 0, core := none, at_ := at_, waits := waits, kind := k })).1

/-- Judges a portion: done or declined at once, waiting for a move in progress, or its move begins with step 1 of
R404 (R296, R405). -/
def State.judgePortion (s : State) (m : PageMove) (g : Nat) : State :=
  match s.part? m.part with
  | none => s
  | some p =>
    let d := s.delay
    let frames := s.frameNodes p m
    match walk s.mem p m.tenant m.va .host true with
    | .moving _ => d.2.moveOp g (s.now + 1 + d.1) [] (.moveReq m)
    | .pa _ frame page entry .. =>
      let isNear := decide (frame < 6 * 2 ^ 30)
      let full := m.near && frames.any (fun f => decide (f.2 < p.framesOf m.tenant f.1 + 1))
      if page != 65536 || isNear == m.near || full then s.portionDone m
      else match s.takeFrame p m.near with
      | none => s.portionDone m
      | some (f, s) =>
        let old := s.mem.read entry 8
        let mark := (old / 2 * 2) ||| 0x20
        let w := s.homeWrite entry 8 mark
        let s := if m.near then w.1.modPart m.part (fun q => q.addFrame m.tenant (frames.filterMap (·.1)) f) else w.1
        s.moveOp g (s.now + 256 + d.1) w.2 (.move { m with
          entry := entry, mark := BitVec.ofNat 64 mark, old := BitVec.ofNat 64 old, src := frame, dst := f })
    | _ => s.portionDone m

/-- MIGR (R296). -/
def execMigr (t : Tail) (a b ctl : USrc) (s : State) : Out :=
  tileIssue true t s (fun c s =>
    let base := c.tk.uval a
    let n := ((c.tk.uval b).extractLsb' 0 32).toNat
    let go := fun (task : Nat) =>
      let d := s.delay
      .next (c.globalOp d.2 (s.now + 1 + d.1) (.migrQueued base.toNat n task c.x.frameNodes) none).1 true
    if n == 0 || 4096 < n then c.trap .qerr
    else match c.handle s (c.tk.uval ctl) with
    | .bad .prot => c.trap .prot
    | .bad code => c.trap code
    | .remote .. => c.trap .qerr
    | h =>
      if base.toNat % 65536 != 0 then c.trap .align base.toNat
      else go (match h with
        | .here x => x.id
        | _ => 0))

/-- The portions of a MIGR come to their judgement, whether or not the gang that asked has ended (R196, R296). -/
def State.migrPortions (s : State) (part tenant base n task : Nat) (nodes : List (Option Nat × Nat)) : State :=
  (List.range n).foldl (fun s i =>
    s.judgePortion { va := base + 65536 * i, entry := 0, mark := 0, old := 0, src := 0, dst := 0, part := part, tenant := tenant,
                     near := true, link := some task, cmd := none, nodes := nodes } 0) s

/-- Copies a 64 KiB frame. -/
def Memory.copyFrame (m : Memory) (src dst : Nat) : Memory :=
  (m.filter (fun c => src ≤ c.1 && c.1 < src + 65536)).foldl (fun m c => m.set (c.1 - src + dst) c.2) (m.clear dst (dst + 65536))

/-- MIGRATION_COPY_DONE (R404, R405): the page is copied and the entry written, or the move is abandoned; or a portion
that waited for another move is judged again. -/
def execMigrationCopyDone (op : Nat) (s : State) : Out :=
  match s.op? op with
  | none => .next s
  | some o =>
    if s.now < o.at_ || o.waits.any (fun w => !s.settled w) then .next s
    else match o.kind with
    | .moveReq m =>
      (match s.part? m.part with
      | none => .next (s.dropOp op)
      | some p =>
        match walk s.mem p m.tenant m.va .host true with
        | .moving _ => .next s
        | _ =>
          .next ((s.dropOp op).judgePortion m o.gang))
    | .move m =>
      let s := s.dropOp op
      if s.mem.read m.entry 8 != m.mark.toNat then
        .next (((s.freeFrame m.part m.tenant m.va m.dst).modPart m.part (fun q => q.dropFrame m.dst)).portionDone m)
      else
        let s : State := { s with mem := s.mem.copyFrame m.src m.dst }
        let new := m.old.toNat % 32 + m.old.toNat / 64 % 4 * 64 + m.dst + m.old.toNat / 2 ^ 53 * 2 ^ 53
        let s := (s.homeWrite m.entry 8 new).1
        let s := s.modPart m.part (fun q => q.dropFrame m.src)
        .next ((s.freeFrame m.part m.tenant m.va m.src).portionDone m)
    | _ => .next s

end Sys2Proof.Machine
end

