-- ==== Sys2Proof/Machine/Accept.lean ====
section
/-! DEFINITION. What an endpoint makes of a message: authorisation, sequence numbers, the checks before a command runs
(R376 to R381, R387, R434). -/

namespace Sys2Proof.Machine

open Sys2Proof

/-- Whether an address is authorised in a list, in which 0 is unused (R377). -/
def authorised (l : List (BitVec 64)) (src : BitVec 64) : Bool := src != 0 && l.contains src

/-- Whether a sender is authorised at an endpoint (R377). -/
def State.knows (s : State) (p ep : Nat) (src : BitVec 64) : Bool :=
  if p == 63 then authorised s.dev.mgmtAddrs src
  else ((s.part? p).map (fun x => authorised ((x.fabric.drop (8 * ep)).take 8) src)).getD false

/-- The bits that a command lists in its four arguments (R381). -/
def argMasks (op : Nat) (h : BitVec 512) : List (BitVec 64) :=
  let all := BitVec.allOnes 64
  match op with
  | 0x01 => [0xFFFFFFFFFFFF#64, 0x1FFFFFFFF#64, 0, 0]
  | 0x03 => [all, 1, 0, 0]
  | 0x04 => [all, 1, all, 0]
  | 0x05 => [all, 0, 0, 0]
  | 0x06 | 0x07 | 0x10 => [1, 0, 0, 0]
  | 0x08 | 0x0F => [all, 0, 0, 0]
  | 0x0A => [all, all, 1, 0]
  | 0x0B | 0x0C => [all, all, 0, 0]
  | 0x0E => [all, 1, if (hdrArg h 1).getLsbD 0 then 0xFFFF#64 else 0, 0]
  | _ => [0, 0, 0, 0]

/-- The most payload bytes of a command. -/
def maxPayload (op : Nat) : Nat :=
  match op with
  | 0x01 => 448
  | 0x03 | 0x0D | 0x0E => 2 ^ 22
  | 0x09 => 2 ^ 14
  | _ => 0

/-- Whether an argument or a length is outside its range. -/
def badArgs (m : JcpMsg) : Bool :=
  let h := m.hdr
  let a := fun (k : Nat) => (hdrArg h k).toNat
  match hdrOp h with
  | 0x01 => m.payload.length != 448
  | 0x03 => a 1 == 1 && hdrTenant h != 0
  | 0x04 => (a 1 == 1 && hdrTenant h != 0) || a 2 == 0 || decide (2 ^ 22 < a 2)
  | 0x08 => a 0 == 0 || decide (4096 < a 0)
  | 0x09 => m.payload.length % 4 != 0
  | 0x0A => a 0 % 65536 != 0 || a 1 == 0 || decide (4096 < a 1)
  | 0x0B => a 0 % 65536 != 0
  | 0x0F => decide (3 < a 0)
  | _ => false

/-- Whether a command goes to the management endpoint (R381). -/
def forMgmt (h : BitVec 512) : Bool :=
  hdrOp h == 0x01 || hdrOp h == 0x0E || (hdrOp h == 0x10 && (hdrArg h 0).getLsbD 0)

/-- Whether a command names a tenant (R387). -/
def namesTenant (m : JcpMsg) : Bool :=
  let bit := fun (k : Nat) => (hdrArg m.hdr k).getLsbD 0
  match hdrOp m.hdr with
  | 0x03 | 0x04 => !bit 1
  | 0x06 | 0x07 => !bit 0
  | 0x05 | 0x0A | 0x0B | 0x0C => true
  | 0x0D => hdrPart m.hdr != 63 && Config.vendorRequest m.payload != 0
  | _ => false

/-- The status that refuses a command before it runs (R380, R381, R387, R434). -/
def State.refusal (s : State) (m : JcpMsg) : Option Nat :=
  let h := m.hdr
  let op := hdrOp h
  let mgmt := hdrPart h == 63
  let extra := (argMasks op h).zipIdx.any (fun e => hdrArg h e.2 &&& ~~~e.1 != 0)
  if hdrVer h != 1 || hdrType h != 0 || hdrStatus h != 0 || !hdrReserved h || op == 0 || 0x10 < op ||
      hdrLen h != m.payload.length || maxPayload op < hdrLen h then some 2
  else if mgmt && s.dev.boot != .ready && !([0x0D, 0x0E, 0x0F, 0x10] : List Nat).contains op then some 2
  else if !mgmt && forMgmt h then some 2
  else if mgmt && !forMgmt h && op != 0x0D && op != 0x0F then some 3
  else if op == 0x0E && s.dev.boot != .waitfw then some 2
  else if extra || badArgs m then some 2
  else if namesTenant m && ((s.part? (hdrPart h)).bind (fun p => s.tenantRcb p (hdrTenant h))).isNone then some 4
  else none

/-- What an endpoint makes of a command: it is dealt with, or it runs from now on, or it is the one that runs. -/
inductive Accept where
  | over (s : State)
  | start (s : State)
  | again
  deriving Repr, Inhabited

/-- Whether a partition is being destroyed or reset: the command that does it still runs. -/
def Partition.closing (p : Partition) : Bool :=
  p.eps.any (fun e => e.busy.any (fun m => hdrOp m.hdr == 0x02 || hdrOp m.hdr == 0x10))

/-- Acceptance of a command (R379): unauthorised senders are dropped, an answered SEQ gets its stored response, a command
waits while another runs or its partition ends, a wrong SEQ is refused. A message for a partition that does not exist is judged at the
management endpoint. -/
def State.accept (s : State) (m : JcpMsg) : Accept :=
  let h := m.hdr
  let p := hdrPart h
  let ep := if p == 63 then 0 else hdrEp h
  let say := fun (st : Nat) => ({ s with outbox := s.outbox ++ [answer m st 0 []] } : State)
  match s.endpoint? p ep with
  | none => .over (if s.knows 63 0 m.src && s.dev.boot != .locked then say (if p ≤ 47 then 3 else 2) else s)
  | some e =>
    if e.busy == some m then .again
    else if !s.knows p ep m.src || s.dev.boot == .locked then .over s
    else match e.stored.find? (fun x => x.1 == hdrSeq h) with
    | some x => .over { s with outbox := s.outbox ++ [{ part := p, dest := x.2.src, hdr := x.2.hdr, payload := x.2.payload }] }
    | none =>
      if e.busy.isSome || (s.part? p).any Partition.closing then .over (s.modEndpoint p ep (fun e => { e with queue := e.queue ++ [m] }))
      else if hdrSeq h != e.seq then .over (say 1)
      else
        let s := s.modEndpoint p ep (fun e => { e with busy := some m, seq := e.seq + 1 })
        match s.refusal m with
        | some st => .over (s.respond m st 0 [])
        | none => .start s

/-- Runs a command: `go` makes its effect when it begins, `more` goes on with it later. -/
def State.command (s : State) (m : JcpMsg) (go : State → Partition → State) (more : State → Partition → State) : Out :=
  match s.accept m with
  | .over s => .next s
  | .start s => .next (match s.part? (hdrPart m.hdr) with
    | some p => go s p
    | none => s.respond m 3 0 [])
  | .again => .next (match s.part? (hdrPart m.hdr) with
    | some p => more s p
    | none => s)

/-- Runs a command that ends at once, at the device. -/
def State.mgmtCommand (s : State) (m : JcpMsg) (go : State → State) : Out :=
  match s.accept m with
  | .over s => .next s
  | .start s => .next (go s)
  | .again => .next s

/-- Argument k of a command as a number. -/
def argOf (m : JcpMsg) (k : Nat) : Nat := (hdrArg m.hdr k).toNat

end Sys2Proof.Machine
end

