-- ==== Sys2Proof/Machine/Crypto.lean ====
section
/-! DEFINITION. The cryptographic functions that the S9 computes: SHA-512, HMAC and HKDF, MGF1, RSASSA-PSS and
RSA-OAEP of PKCS #1 v2.2 (RFC 8017), AES-256-GCM (R22, R417, R420, R421, R434). -/

namespace Sys2Proof.Machine

open Sys2Proof

/-! ### Big-endian numbers -/

/-- The number that bytes spell, most significant first. -/
def beNat (bs : List Byte) : Nat := natOfBytes bs.reverse

/-- The low n bytes of a number, most significant first. -/
def beBytes (n v : Nat) : List Byte := (bytesOfNat n v).reverse

/-- Cuts bytes into blocks of n; `fuel` is at least their count. -/
def blocksOf (n : Nat) : Nat → List Byte → List (List Byte)
  | 0, _ => []
  | fuel + 1, bs => if bs.isEmpty then [] else bs.take n :: blocksOf n fuel (bs.drop n)

/-- Bytes of one list inverted by those of another. -/
def xorBytes (a b : List Byte) : List Byte := List.zipWith (· ^^^ ·) a b

/-! ### SHA-512 -/

/-- Round constants 0 to 19. -/
def sha512K0 : List (BitVec 64) :=
  [0x428A2F98D728AE22#64, 0x7137449123EF65CD#64, 0xB5C0FBCFEC4D3B2F#64, 0xE9B5DBA58189DBBC#64,
   0x3956C25BF348B538#64, 0x59F111F1B605D019#64, 0x923F82A4AF194F9B#64, 0xAB1C5ED5DA6D8118#64,
   0xD807AA98A3030242#64, 0x12835B0145706FBE#64, 0x243185BE4EE4B28C#64, 0x550C7DC3D5FFB4E2#64,
   0x72BE5D74F27B896F#64, 0x80DEB1FE3B1696B1#64, 0x9BDC06A725C71235#64, 0xC19BF174CF692694#64,
   0xE49B69C19EF14AD2#64, 0xEFBE4786384F25E3#64, 0x0FC19DC68B8CD5B5#64, 0x240CA1CC77AC9C65#64]

/-- Round constants 20 to 39. -/
def sha512K1 : List (BitVec 64) :=
  [0x2DE92C6F592B0275#64, 0x4A7484AA6EA6E483#64, 0x5CB0A9DCBD41FBD4#64, 0x76F988DA831153B5#64,
   0x983E5152EE66DFAB#64, 0xA831C66D2DB43210#64, 0xB00327C898FB213F#64, 0xBF597FC7BEEF0EE4#64,
   0xC6E00BF33DA88FC2#64, 0xD5A79147930AA725#64, 0x06CA6351E003826F#64, 0x142929670A0E6E70#64,
   0x27B70A8546D22FFC#64, 0x2E1B21385C26C926#64, 0x4D2C6DFC5AC42AED#64, 0x53380D139D95B3DF#64,
   0x650A73548BAF63DE#64, 0x766A0ABB3C77B2A8#64, 0x81C2C92E47EDAEE6#64, 0x92722C851482353B#64]

/-- Round constants 40 to 59. -/
def sha512K2 : List (BitVec 64) :=
  [0xA2BFE8A14CF10364#64, 0xA81A664BBC423001#64, 0xC24B8B70D0F89791#64, 0xC76C51A30654BE30#64,
   0xD192E819D6EF5218#64, 0xD69906245565A910#64, 0xF40E35855771202A#64, 0x106AA07032BBD1B8#64,
   0x19A4C116B8D2D0C8#64, 0x1E376C085141AB53#64, 0x2748774CDF8EEB99#64, 0x34B0BCB5E19B48A8#64,
   0x391C0CB3C5C95A63#64, 0x4ED8AA4AE3418ACB#64, 0x5B9CCA4F7763E373#64, 0x682E6FF3D6B2B8A3#64,
   0x748F82EE5DEFB2FC#64, 0x78A5636F43172F60#64, 0x84C87814A1F0AB72#64, 0x8CC702081A6439EC#64]

/-- Round constants 60 to 79. -/
def sha512K3 : List (BitVec 64) :=
  [0x90BEFFFA23631E28#64, 0xA4506CEBDE82BDE9#64, 0xBEF9A3F7B2C67915#64, 0xC67178F2E372532B#64,
   0xCA273ECEEA26619C#64, 0xD186B8C721C0C207#64, 0xEADA7DD6CDE0EB1E#64, 0xF57D4F7FEE6ED178#64,
   0x06F067AA72176FBA#64, 0x0A637DC5A2C898A6#64, 0x113F9804BEF90DAE#64, 0x1B710B35131C471B#64,
   0x28DB77F523047D84#64, 0x32CAAB7B40C72493#64, 0x3C9EBE0A15C9BEBC#64, 0x431D67C49C100D4C#64,
   0x4CC5D4BECB3E42B6#64, 0x597F299CFC657E2A#64, 0x5FCB6FAB3AD6FAEC#64, 0x6C44198C4A475817#64]

/-- The eighty round constants. -/
def sha512K : List (BitVec 64) := sha512K0 ++ sha512K1 ++ sha512K2 ++ sha512K3

/-- The eight working variables. -/
structure Sha where
  a : BitVec 64
  b : BitVec 64
  c : BitVec 64
  d : BitVec 64
  e : BitVec 64
  f : BitVec 64
  g : BitVec 64
  h : BitVec 64
  deriving DecidableEq, Repr, Inhabited

/-- The initial hash value. -/
def Sha.init : Sha where
  a := 0x6A09E667F3BCC908#64
  b := 0xBB67AE8584CAA73B#64
  c := 0x3C6EF372FE94F82B#64
  d := 0xA54FF53A5F1D36F1#64
  e := 0x510E527FADE682D1#64
  f := 0x9B05688C2B3E6C1F#64
  g := 0x1F83D9ABFB41BD6B#64
  h := 0x5BE0CD19137E2179#64

/-- The sum of two values, word by word. -/
def Sha.add (x y : Sha) : Sha :=
  { a := x.a + y.a, b := x.b + y.b, c := x.c + y.c, d := x.d + y.d, e := x.e + y.e, f := x.f + y.f, g := x.g + y.g, h := x.h + y.h }

/-- The digest: the eight words, most significant byte first. -/
def Sha.bytes (x : Sha) : List Byte := [x.a, x.b, x.c, x.d, x.e, x.f, x.g, x.h].flatMap (fun w => beBytes 8 w.toNat)

/-- One round, with its message word and its constant. -/
def Sha.round (x : Sha) (w k : BitVec 64) : Sha :=
  let s1 := x.e.rotateRight 14 ^^^ x.e.rotateRight 18 ^^^ x.e.rotateRight 41
  let ch := (x.e &&& x.f) ^^^ (~~~x.e &&& x.g)
  let t1 := x.h + s1 + ch + k + w
  let s0 := x.a.rotateRight 28 ^^^ x.a.rotateRight 34 ^^^ x.a.rotateRight 39
  let maj := (x.a &&& x.b) ^^^ (x.a &&& x.c) ^^^ (x.b &&& x.c)
  { a := t1 + (s0 + maj), b := x.a, c := x.b, d := x.c, e := x.d + t1, f := x.e, g := x.f, h := x.g }

/-- The message word sixteen rounds on, from the sixteen words that a round sees. -/
def shaNext (w : List (BitVec 64)) : BitVec 64 :=
  let x := w.getD 14 0
  let y := w.getD 1 0
  (x.rotateRight 19 ^^^ x.rotateRight 61 ^^^ (x >>> 6)) + w.getD 9 0 +
    (y.rotateRight 1 ^^^ y.rotateRight 8 ^^^ (y >>> 7)) + w.getD 0 0

/-- The rounds of a block over the remaining constants. -/
def shaRounds : List (BitVec 64) → List (BitVec 64) → Sha → Sha
  | [], _, x => x
  | k :: ks, w, x => shaRounds ks (w.drop 1 ++ [shaNext w]) (x.round (w.getD 0 0) k)

/-- A message with its padding. -/
def shaPad (m : List Byte) : List Byte :=
  m ++ [0x80#8] ++ List.replicate ((239 - m.length % 128) % 128) 0 ++ beBytes 16 (8 * m.length)

/-- The 64 bytes of the SHA-512 digest of a message. -/
def sha512 (m : List Byte) : List Byte :=
  ((blocksOf 128 (m.length / 128 + 2) (shaPad m)).foldl (fun x b =>
    x.add (shaRounds sha512K ((blocksOf 8 16 b).map (fun w => BitVec.ofNat 64 (beNat w))) x)) Sha.init).bytes

/-- A digest as a measurement holds it: byte 0 lowest. -/
def digest (m : List Byte) : BitVec 512 := BitVec.ofNat 512 (natOfBytes (sha512 m))

/-! ### HMAC, HKDF and MGF1 -/

/-- HMAC-SHA-512 under a key of at most 128 bytes. -/
def hmac (key m : List Byte) : List Byte :=
  let k := key ++ List.replicate (128 - key.length) 0
  sha512 (k.map (· ^^^ 0x5C#8) ++ sha512 (k.map (· ^^^ 0x36#8) ++ m))

/-- HKDF-SHA-512 to at most 64 bytes. -/
def hkdf (ikm salt info : List Byte) (n : Nat) : List Byte := (hmac (hmac salt ikm) (info ++ [1#8])).take n

/-- MGF1 with SHA-512. -/
def mgf1 (seed : List Byte) (n : Nat) : List Byte :=
  ((List.range ((n + 63) / 64)).flatMap (fun i => sha512 (seed ++ beBytes 4 i))).take n

/-! ### RSA -/

/-- The power of a number modulo n, over the bits of the exponent from the lowest. -/
def powMod (n : Nat) : Nat → Nat → Nat → Nat
  | 0, _, _ => 1 % n
  | fuel + 1, b, e =>
    let r := powMod n fuel (b * b % n) (e / 2)
    if e % 2 == 1 then b * r % n else r

/-- RSASSA-PSS verification: modulus of 4,096 bits, exponent 65,537, SHA-512, MGF1 with SHA-512, a salt of 64 bytes
(R434). -/
def pssVerify (modulus m sig : List Byte) : Bool :=
  let n := beNat modulus
  let s := beNat sig
  let em := beBytes 512 (powMod n 17 s 65537)
  let masked := em.take 447
  let h := (em.drop 447).take 64
  let db := (xorBytes masked (mgf1 h 447)).modify 0 (· &&& 0x7F#8)
  modulus.length == 512 && sig.length == 512 && decide (2 ^ 4095 ≤ n) && decide (s < n) && em.getD 511 0 == 0xBC#8 &&
    !(masked.getD 0 0).getLsbD 7 && db.take 383 == List.replicate 382 0 ++ [1#8] &&
    sha512 (List.replicate 8 0 ++ sha512 m ++ db.drop 383) == h

/-- RSA-OAEP-SHA-512 encryption with a seed of 64 bytes under a key: 512 bytes of modulus, then the exponent (R421). -/
def oaepWrap (key label seed m : List Byte) : List Byte :=
  let db := sha512 label ++ List.replicate (382 - m.length) 0 ++ [1#8] ++ m
  let masked := xorBytes db (mgf1 seed 447)
  let em := [0#8] ++ xorBytes seed (mgf1 masked 64) ++ masked
  beBytes 512 (powMod (beNat (key.take 512)) 4096 (beNat em) (beNat (key.drop 512)))

/-- RSA-OAEP-SHA-512 decryption with a private exponent; none where it fails. -/
def oaepUnwrap (n d : Nat) (label c : List Byte) : Option (List Byte) :=
  let em := beBytes 512 (powMod n 4096 (beNat c) d)
  let masked := em.drop 65
  let seed := xorBytes ((em.drop 1).take 64) (mgf1 masked 64)
  let db := xorBytes masked (mgf1 seed 447)
  let rest := (db.drop 64).dropWhile (· == 0#8)
  if beNat c < n && em.getD 0 0 == 0#8 && db.take 64 == sha512 label && rest.getD 0 0 == 1#8 then some (rest.drop 1) else none

/-! ### AES-256 -/

/-- The substitution box, sixteen entries a row, the first lowest. -/
def sboxRows : List (BitVec 128) :=
  [0x76ABD7FE2B670130C56F6BF27B777C63#128, 0xC072A49CAFA2D4ADF04759FA7DC982CA#128,
   0x1531D871F1E5A534CCF73F362693FDB7#128, 0x75B227EBE28012079A059618C323C704#128,
   0x842FE329B3D63B52A05A6E1B1A2C8309#128, 0xCF584C4A39BECB6A5BB1FC20ED00D153#128,
   0xA89F3C507F02F94585334D43FBAAEFD0#128, 0xD2F3FF1021DAB6BCF5389D928F40A351#128,
   0x73195D643D7EA7C41744975FEC130CCD#128, 0xDB0B5EDE14B8EE4688902A22DC4F8160#128,
   0x79E4959162ACD3C25C2406490A3A32E0#128, 0x08AE7A65EAF4566CA94ED58D6D37C8E7#128,
   0x8A8BBD4B1F74DDE8C6B4A61C2E2578BA#128, 0x9E1DC186B95735610EF6034866B53E70#128,
   0xDF2855CEE9871E9B948ED9691198F8E1#128, 0x16BB54B00F2D99416842E6BF0D89A18C#128]

/-- The substitution of a byte. -/
def subByte (b : Byte) : Byte := (sboxRows.getD (b.toNat / 16) 0).extractLsb' (8 * (b.toNat % 16)) 8

/-- A byte times x in the field of AES. -/
def xtime (b : Byte) : Byte := (b <<< 1) ^^^ (if b.getLsbD 7 then 0x1B#8 else 0)

/-- The words of the key schedule, newest first: word i from the eight before it; `rcon` is the round constant. -/
def keyWords : Nat → Nat → Byte → List (List Byte) → List (List Byte)
  | 0, _, _, ws => ws
  | fuel + 1, i, rcon, ws =>
    let last := ws.getD 0 []
    let t := if i % 8 == 0 then xorBytes ((last.drop 1 ++ last.take 1).map subByte) [rcon, 0, 0, 0]
      else if i % 8 == 4 then last.map subByte else last
    keyWords fuel (i + 1) (if i % 8 == 0 then xtime rcon else rcon) (xorBytes (ws.getD 7 []) t :: ws)

/-- The fifteen round keys of a key of 32 bytes. -/
def roundKeys (key : List Byte) : List (List Byte) :=
  blocksOf 16 15 (keyWords 52 8 1 (blocksOf 4 8 key).reverse).reverse.flatten

/-- ShiftRows on a block by columns. -/
def shiftRows (b : List Byte) : List Byte := (List.range 16).map (fun i => b.getD ((i + 4 * (i % 4)) % 16) 0)

/-- MixColumns on a block by columns. -/
def mixColumns (b : List Byte) : List Byte :=
  (List.range 16).map (fun i =>
    let at_ := fun (k : Nat) => b.getD (i / 4 * 4 + (i + k) % 4) 0
    xtime (at_ 0) ^^^ (xtime (at_ 1) ^^^ at_ 1) ^^^ at_ 2 ^^^ at_ 3)

/-- The rounds after the first key; the last one mixes no columns. -/
def aesRounds : List (List Byte) → List Byte → List Byte
  | [], b => b
  | [k], b => xorBytes (shiftRows (b.map subByte)) k
  | k :: ks, b => aesRounds ks (xorBytes (mixColumns (shiftRows (b.map subByte))) k)

/-- AES-256 of a block. -/
def aes (key b : List Byte) : List Byte :=
  match roundKeys key with
  | [] => b
  | k :: ks => aesRounds ks (xorBytes b k)

/-! ### GCM -/

/-- A product in the field of GHASH: over the bits of x from the most significant. -/
def gmul (x y : BitVec 128) : BitVec 128 :=
  ((List.range 128).foldl (fun (a : BitVec 128 × BitVec 128) i =>
    (if x.getLsbD (127 - i) then a.1 ^^^ a.2 else a.1,
     (a.2 >>> 1) ^^^ (if a.2.getLsbD 0 then 0xE1000000000000000000000000000000#128 else 0))) (0, y)).1

/-- Bytes filled with 0 to a multiple of 16. -/
def fill16 (bs : List Byte) : List Byte := bs ++ List.replicate ((16 - bs.length % 16) % 16) 0

/-- GHASH of whole blocks. -/
def ghash (h : BitVec 128) (bs : List Byte) : BitVec 128 :=
  (blocksOf 16 (bs.length / 16 + 1) bs).foldl (fun y b => gmul (y ^^^ BitVec.ofNat 128 (beNat b)) h) 0

/-- The key stream of n bytes: counter blocks from 2 on. -/
def gcmStream (key iv : List Byte) (n : Nat) : List Byte :=
  ((List.range ((n + 15) / 16)).flatMap (fun i => aes key (iv ++ beBytes 4 (i + 2)))).take n

/-- The tag over additional data and ciphertext. -/
def gcmTag (key iv aad ct : List Byte) : List Byte :=
  let h := BitVec.ofNat 128 (beNat (aes key (List.replicate 16 0)))
  let s := ghash h (fill16 aad ++ fill16 ct ++ beBytes 8 (8 * aad.length) ++ beBytes 8 (8 * ct.length))
  xorBytes (beBytes 16 s.toNat) (aes key (iv ++ beBytes 4 1))

/-- AES-256-GCM encryption with an IV of 12 bytes: ciphertext and tag (R420). -/
def gcmSeal (key iv aad pt : List Byte) : List Byte × List Byte :=
  let ct := xorBytes pt (gcmStream key iv pt.length)
  (ct, gcmTag key iv aad ct)

/-- AES-256-GCM decryption; none where the tag does not verify. -/
def gcmOpen (key iv aad ct tag : List Byte) : Option (List Byte) :=
  if gcmTag key iv aad ct == tag then some (xorBytes ct (gcmStream key iv ct.length)) else none

/-- The content key of an image: measurement, counter, device identity (R420). -/
def sealKey (measure : BitVec 512) (counter dev : BitVec 64) : List Byte :=
  hkdf (bytesOfNat 64 Config.sealRoot.toNat) (bytesOfNat 64 measure.toNat)
    ([0x53#8, 0x39#8, 0x53#8, 0x45#8, 0x41#8, 0x4C#8] ++ bytesOfNat 8 counter.toNat ++ bytesOfNat 8 dev.toNat) 32

end Sys2Proof.Machine
end

