-- ==== Sys2Proof/Machine/Islands.lean ====
section
/-! DEFINITION. Scenes, contacts, joints, step boundaries, island gangs, and the requests of the task and island units
(R297 to R310, R326, R452). -/

namespace Sys2Proof.Machine

open Sys2Proof

/-! ### Scene descriptors (R297) -/

/-- The number of bodies. -/
def scBodies (d : BitVec 512) : Nat := (d.extractLsb' 0 24).toNat + 1
/-- BPB. -/
def scBpb (d : BitVec 512) : Nat := 64 * ((d.extractLsb' 32 3).toNat + 1)
/-- ITER. -/
def scIter (d : BitVec 512) : Nat := (d.extractLsb' 40 8).toNat
/-- EMAX. -/
def scEmax (d : BitVec 512) : Nat := (d.extractLsb' 48 16).toNat
/-- JMAX. -/
def scJmax (d : BitVec 512) : Nat := (d.extractLsb' 64 24).toNat
/-- CMAX. -/
def scCmax (d : BitVec 512) : Nat := (d.extractLsb' 96 24).toNat
/-- SLEEPTH. -/
def scSleep (d : BitVec 512) : Nat := (d.extractLsb' 128 32).toNat
/-- BODYBASE. -/
def scBase (d : BitVec 512) : Nat := (d.extractLsb' 192 48).toNat
/-- TEMPLATE. -/
def scTemplate (d : BitVec 512) : Nat := (d.extractLsb' 320 48).toNat

/-- Every field is within its range and reserved bits are 0. -/
def scOk (d : BitVec 512) : Bool :=
  d.extractLsb' 368 144 == 0 && d.extractLsb' 304 16 == 0 && d.extractLsb' 240 16 == 0 && d.extractLsb' 160 32 == 0 &&
  d.extractLsb' 120 8 == 0 && d.extractLsb' 88 8 == 0 && d.extractLsb' 35 5 == 0 && d.extractLsb' 24 8 == 0 &&
  scCmax d != 0 && scEmax d != 0 && scIter d != 0 && scBase d % 64 == 0 && (d.extractLsb' 256 48).toNat % 64 == 0

/-- The near frames of a scene (R298). -/
def scFrames (d : BitVec 512) : Nat := (8 * scBodies d + 16 * (scCmax d + scJmax d) + 65535) / 65536

/-- Where the records of a gang of T tussocks start (R300). -/
def recordsAt (t : Nat) : Nat := 0x40 + 128 * t
/-- Where its edges start. -/
def edgesAt (d : BitVec 512) (t : Nat) : Nat := recordsAt t + 32 * t * scBpb d

/-- The footprint of an island gang of T tussocks (R300). -/
def islandFoot (d : BitVec 512) (f : Foot) (t : Nat) : Foot :=
  { f with tus := t, sp := (edgesAt d t + 16 * scEmax d + f.sp + 255) / 256 * 256 }

/-! ### Islands (R306) -/

/-- A scene of a partition that instructions may name (R298). -/
def Partition.scene? (p : Partition) (n : Nat) : Option Scene := p.scenes.find? (fun sc => sc.num == n && !sc.deleting)

/-- Changes a scene. -/
def State.modScene (s : State) (p n : Nat) (f : Scene → Scene) : State :=
  s.modPart p (fun x => { x with scenes := x.scenes.map (fun sc => if sc.num == n then f sc else sc) })

/-- The island of a body: one that is listed, or a single sleeping one (R298). -/
def Scene.islandOf (sc : Scene) (b : Nat) : Island :=
  (sc.islands.find? (fun i => i.bodies.contains b)).getD { num := b, bodies := [b], state := .sleeping }

/-- An island by number. -/
def Scene.island? (sc : Scene) (n : Nat) : Option Island := sc.islands.find? (fun i => i.num == n)

/-- Puts an island into the list. -/
def Scene.put (sc : Scene) (i : Island) : Scene :=
  { sc with islands := sc.islands.filter (fun k => k.num != i.num) ++ [i] }

/-- Whether an island stands for another one or for none (R306). -/
def Island.stands (i : Island) : Bool :=
  match i.state with
  | .absorbed | .sleepingAbsorbed | .merged => false
  | _ => true

/-- The island that a union with an island is a union with: itself, its representative, or an IDLE one where it has
none (R306). -/
def Scene.standIn (sc : Scene) (i : Island) : Island :=
  if i.stands then i
  else match i.pendAt.bind sc.island? with
  | some r => r
  | none => { i with state := .idle }

/-- The islands pending at an island. -/
def Scene.pending (sc : Scene) (n : Nat) : List Island := sc.islands.filter (fun k => k.pendAt == some n)

/-- An island becomes ABSORBED at one of a lower number: the absorbs pending at it pass on (R306). -/
def Scene.absorb (sc : Scene) (lo hi : Island) : Scene :=
  let pass := fun (k : Island) => if k.pendAt == some hi.num then { k with pendAt := some lo.num } else k
  let passed : Scene := { sc with islands := sc.islands.map pass }
  (passed.put { hi with state := .absorbed, pendAt := some lo.num, rest := false }).put { lo with rest := false }

/-- The union of the islands of two bodies by the table of R306. -/
def Scene.union (sc : Scene) (a b : Nat) : Scene :=
  let x := sc.standIn (sc.islandOf a)
  let y := sc.standIn (sc.islandOf b)
  let take := fun (host slp : Island) =>
    (sc.put { slp with state := .sleepingAbsorbed, pendAt := some host.num }).put { host with rest := false }
  let wake := fun (slp : Island) => sc.put { slp with state := .awake }
  if x.num == y.num then sc
  else match x.state, y.state with
  | .running, .running => if x.num < y.num then sc.absorb x y else sc.absorb y x
  | .running, .sleeping | .growfail, .sleeping => take x y
  | .sleeping, .running | .sleeping, .growfail => take y x
  | .sleeping, .idle | .sleeping, .awake | .sleeping, .patched => wake x
  | .idle, .sleeping | .awake, .sleeping | .patched, .sleeping => wake y
  | _, _ => sc

/-- A contact: whether the lane reports it, and the scene (R304). -/
def Scene.contact (sc : Scene) (x y : Nat) (tag : BitVec 32) : Scene × Bool :=
  if scBodies sc.desc ≤ x || scBodies sc.desc ≤ y then (sc, false)
  else if x == y then (sc, true)
  else if scCmax sc.desc ≤ sc.contacts.length then (sc, false)
  else (({ sc with contacts := sc.contacts ++ [{ a := min x y, b := max x y, tag := tag, joint := false }] } : Scene).union x y, true)

/-- A joint added or removed (R305). -/
def Scene.joint (sc : Scene) (del : Bool) (x y : Nat) (tag : BitVec 32) : Scene × Bool :=
  let e : Edge := { a := min x y, b := max x y, tag := tag, joint := true }
  if scBodies sc.desc ≤ x || scBodies sc.desc ≤ y then (sc, false)
  else if del then (if sc.joints.contains e then ({ sc with joints := sc.joints.erase e }, true) else (sc, false))
  else if x == y then (sc, true)
  else if scJmax sc.desc ≤ sc.joints.length then (sc, false)
  else (({ sc with joints := sc.joints ++ [e] } : Scene).union x y, true)

/-- Applies the lanes of a request in ascending order; answers the lanes that succeed. -/
def State.applyLanes (s : State) (p : Nat) (cs : List (Nat × Nat × Nat × Nat × BitVec 32))
    (f : Scene → Nat → Nat → BitVec 32 → Scene × Bool) : State × Mask :=
  cs.foldl (fun (a : State × Mask) e =>
    match (a.1.part? p).bind (fun x => x.scenes.find? (fun sc => sc.num == e.2.1)) with
    | none => a
    | some sc =>
      let r := f sc e.2.2.1 e.2.2.2.1 e.2.2.2.2
      (a.1.modScene p e.2.1 (fun _ => r.1), if r.2 then a.2 ||| BitVec.ofNat 32 (2 ^ e.1) else a.2)) (s, 0)

/-! ### Components and patches (R299, R303) -/

/-- Merges the components of the two ends of an edge. -/
def mergeComps (cs : List (List Nat)) (e : Edge) : List (List Nat) :=
  let mine := cs.filter (fun c => c.contains e.a || c.contains e.b)
  (mine.flatten).dedup :: cs.filter (fun c => !(c.contains e.a || c.contains e.b))

/-- The components of bodies under edges, each ascending, in order of their lowest bodies. -/
def components (bodies : List Nat) (es : List Edge) : List (List Nat) :=
  ((es.foldl mergeComps (bodies.dedup.map (fun b => [b]))).map (fun c => c.mergeSort (· ≤ ·))).mergeSort
    (fun x y => x.headD 0 ≤ y.headD 0)

/-- Bodies by breadth-first distance, then by number (R303). -/
def bfsOrder (es : List Edge) (seen front : List Nat) : Nat → List Nat
  | 0 => []
  | fuel + 1 =>
    let next := ((front.flatMap (fun b => es.filterMap (fun e =>
      if e.a == b then some e.b else if e.b == b then some e.a else none))).dedup.filter (fun b => !seen.contains b)).mergeSort (· ≤ ·)
    if next.isEmpty then [] else next ++ bfsOrder es (seen ++ next) next fuel

/-- The edges with both ends among bodies. -/
def edgesIn (es : List Edge) (bodies : List Nat) : List Edge := es.filter (fun e => bodies.contains e.a && bodies.contains e.b)

/-- The bodies of a component in the order that its patches are cut from, by distance over its own edges (R303): ascending
where it is not split. -/
def patchOrder (bodies : List Nat) (es : List Edge) : List Nat :=
  if bodies.length ≤ 1024 then bodies
  else
    let first := bodies.take 1
    let reached := first ++ bfsOrder (edgesIn es bodies) first first bodies.length
    reached ++ bodies.filter (fun b => !reached.contains b)

/-- The bodies of a patch, ascending. -/
def Island.patchBodies (i : Island) (patch : Nat) : List Nat := ((i.bodies.drop (1024 * patch)).take 1024).mergeSort (· ≤ ·)

/-- The patches of an island; 1 where it is not split. -/
def Island.patches (i : Island) : Nat := (i.bodies.length + 1023) / 1024

/-- The sort key of an edge (R300). -/
def Edge.key (e : Edge) : Nat := ((e.a * 2 ^ 24 + e.b) * 2 + (if e.joint then 1 else 0)) * 2 ^ 32 + e.tag.toNat

/-- The edges with an end among bodies, sorted. -/
def edgesOf (es : List Edge) (bodies : List Nat) : List Edge :=
  (es.filter (fun e => bodies.contains e.a || bodies.contains e.b)).mergeSort (fun x y => x.key ≤ y.key)

/-- The 16 bytes of an edge in a gang whose slots hold bodies (R300). -/
def Edge.bytes (e : Edge) (slots : List Nat) : List Byte :=
  let ia := slots.idxOf? e.a
  let ib := slots.idxOf? e.b
  let v : BitVec 128 := e.tag ++ BitVec.ofNat 24 e.b ++ BitVec.ofNat 24 e.a ++ BitVec.ofNat 10 (ib.getD 0) ++
    BitVec.ofNat 10 (ia.getD 0) ++ 0#24 ++ BitVec.ofBool ib.isNone ++ BitVec.ofBool ia.isNone ++
    BitVec.ofBool (ia.isNone || ib.isNone) ++ BitVec.ofBool e.joint
  bytesOfNat 16 v.toNat

/-! ### Launching islands (R299, R302, R306) -/

/-- Launches the gangs of a component: their tasks exist from then on. A gang that can never be placed ends FAILED
at once, and its contacts are dropped (R302). Answers how many gangs were made. -/
def State.launchIsland (s : State) (p scene : Nat) (bodies : List Nat) (relaunch : Bool) : State × Nat :=
  match (s.part? p).bind (fun x => (x.scenes.find? (fun sc => sc.num == scene)).map (fun sc => (x, sc))) with
  | none => (s, 0)
  | some (x, sc) =>
    let order := patchOrder bodies (sc.joints ++ sc.old ++ sc.contacts)
    let num := bodies.headD 0
    let i : Island := { num := num, bodies := order, state := if bodies.length ≤ 1024 then .running else .patched,
                        edges := edgesIn (sc.joints ++ sc.old) bodies }
    let make := fun (a : State × List Nat) (k : Nat) =>
      let n := (i.patchBodies k).length
      let t : Task := { sc.proto with
        index := num, foot := islandFoot sc.desc sc.proto.foot ((n + 31) / 32), step := sc.step, relaunch := relaunch,
        isl := some { scene := scene, island := num, patch := k } }
      let r := (a.1.jobUp p sc.tenant sc.proto.job 1).addTask t
      (r.1, a.2 ++ [r.2])
    let r := (List.range i.patches).foldl make (s, [])
    let s := r.1.modScene p scene (fun q => { q.put { i with tasks := r.2 } with stepTasks := q.stepTasks ++ r.2 })
    let never := r.2.filter (fun t => match s.task? t, s.chain x sc.tenant sc.proto.launch with
      | some k, some ch => footNever ch k.foot
      | _, _ => false)
    let drop := fun (es : List Edge) => es.filter (fun e => !(bodies.contains e.a || bodies.contains e.b))
    let s := if never.isEmpty then s else s.modScene p scene (fun q => { q with old := drop q.old })
    (never.foldl (fun s t => s.endTask t 0xFE false) s, r.2.length)

/-- A step boundary of a scene (R299): the components of the joints and the contacts of the step, the awake ones
launched. Answers the gangs made. -/
def State.boundary (s : State) (p scene link : Nat) : State × Nat :=
  match (s.part? p).bind (fun x => x.scenes.find? (fun sc => sc.num == scene)) with
  | none => (s, 0)
  | some sc =>
    let es := sc.joints ++ sc.contacts
    let seeds := (sc.islands.filter (fun i => i.state != .sleeping)).flatMap (·.bodies)
    let touched := sc.contacts.flatMap (fun e => [e.a, e.b])
    let comps := components (seeds ++ es.flatMap (fun e => [e.a, e.b])) es
    let awake := fun (c : List Nat) => c.any (fun b => touched.contains b || seeds.contains b)
    let asleep := (comps.filter (fun c => !awake c && 2 ≤ c.length)).map (fun c =>
      ({ num := c.headD 0, bodies := c, state := .sleeping } : Island))
    let s := s.modScene p scene (fun q => { q with
      step := q.step + 1, old := q.contacts, contacts := [], islands := asleep, stepTasks := [], launched := 0,
      link := if link == 0 then none else some link })
    let r := (comps.filter awake).foldl (fun (a : State × Nat) c =>
      let q := a.1.launchIsland p scene c false
      (q.1, a.2 + q.2)) (s, 0)
    let s := r.1.modScene p scene (fun q => { q with launched := r.2 })
    ((s.stepCheck p scene).closeJobs p, r.2)

/-- ISLAND_STEP_BOUNDARY (R299): the ISTEP at the front of the island unit finds every gang of the scene's step ended. -/
def execIslandStepBoundary (part scene : Nat) (s : State) : Out :=
  let front := s.ops.find? (fun o => s.partOf o == some part && s.now ≥ o.at_ && s.atFront o && (match o.kind with
    | .task (.istep n _) _ => n == scene
    | _ => false))
  match front with
  | none => .next s
  | some o =>
    let link := match o.kind with
      | .task (.istep _ l) _ => l
      | _ => 0
    let sc := (s.part? part).bind (fun x => x.scenes.find? (fun sc => sc.num == scene))
    match sc with
    | none => .next ((s.nextRequest o).finishOp o)
    | some sc =>
      if !sc.stepOver then .next s
      else
        let r := s.boundary part scene link
        .next (r.1.modOp o.id (fun q => { q with at_ := s.now + 40 * r.2, kind := .task .made 0 }))

/-- ISLAND_RELAUNCH (R306): a survivor in GROWFAIL and every gang absorbed by it have ended. -/
def execIslandRelaunch (part scene island : Nat) (s : State) : Out :=
  match (s.part? part).bind (fun x => x.scenes.find? (fun sc => sc.num == scene)) with
  | none => .next s
  | some sc =>
    match sc.island? island with
    | none => .next s
    | some i =>
      let pend := sc.pending island
      if i.state != .growfail || !i.tasks.isEmpty || pend.any (fun k => k.state == .absorbed) then .next s
      else
        let gone := island :: pend.map (·.num)
        let bodies := (i.bodies ++ pend.flatMap (·.bodies)).mergeSort (· ≤ ·)
        let s := s.modScene part scene (fun q => { q with islands := q.islands.filter (fun k => !gone.contains k.num) })
        .next (((s.launchIsland part scene bodies true).1.stepCheck part scene).closeJobs part)

/-! ### The fill of an island gang (R300) -/

/-- Ends a placed gang without running it, with a status. -/
def State.killGang (s : State) (g status : Nat) : State :=
  (s.modGang g (fun x => { x with tks := x.tks.map (fun t => { t with ended := true, status := status }) })).endGang g

/-- The header of an island gang (R300). -/
def islandHeader (sc : Scene) (i : Island) (t : Task) (isl : IslGang) (tus bodies edges : Nat) (eovf : Bool) : BitVec 512 :=
  0#272 ++ BitVec.ofNat 16 (32 * tus) ++ BitVec.ofNat 32 (scSleep sc.desc) ++ 0#7 ++ BitVec.ofBool t.relaunch ++
  BitVec.ofNat 8 (scIter sc.desc) ++ BitVec.ofNat 32 t.step ++ BitVec.ofNat 16 i.patches ++ BitVec.ofNat 16 isl.patch ++
  0#8 ++ BitVec.ofNat 8 sc.num ++ BitVec.ofBool eovf ++ 0#15 ++ BitVec.ofNat 16 edges ++ 0#16 ++ BitVec.ofNat 16 bodies ++
  0#8 ++ BitVec.ofNat 24 i.num

/-- Reads body records through translations: the bytes, or the first translation that fails. -/
def State.readBodies (s : State) (core : Nat) (p : Partition) (tenant : Nat) (sup : Bool) (sc : Scene) (bodies : List Nat)
    (rd : Reader) : State × Except (Walk × Nat) (List (Nat × Nat × Nat)) :=
  s.engineWalk core p tenant sup .read (bodies.flatMap (fun b =>
    chunksOf ((scBase sc.desc + b * scBpb sc.desc : Nat) : Int) (scBpb sc.desc))) rd

/-- The fill of an island gang's scratchpad is performed, pauses, or fails (R300). -/
def State.islandFill (s : State) (o : Op) (x : Gang) (p : Partition) (t : Task) (isl : IslGang) (core : Nat) : State :=
  match p.scenes.find? (fun sc => sc.num == isl.scene) with
  | none => s
  | some sc =>
    let i := (sc.island? isl.island).getD default
    let slots := i.patchBodies isl.patch
    let tus := x.foot.tus
    let w := s.readBodies core p x.tenant false sc slots (s.readerOf x.id)
    let pause := fun (s : State) (k : Park) => s.modOp o.id (fun q => { q with kind := .fill (some k) })
    match w.2 with
    | .error (.moving e, _) => pause w.1 (.moving e)
    | .error (.absent lv, va) | .error (.first lv _, va) =>
      let r := w.1.faultRecord x.part (fun id => mkRecord id (BitVec.ofNat 48 va) 0 7 lv 0 x.tenant core (x.id % 2 ^ 24) 0)
      pause r.1 (.fault r.2)
    | .error (.mchk _, _) => w.1.abortDomain x.part x.tenant x.domain TrapCode.mchk.num 0
    | .error _ =>
      let drop := fun (es : List Edge) => es.filter (fun e => !(slots.contains e.a || slots.contains e.b))
      (w.1.modScene x.part isl.scene (fun q => { q with old := drop q.old })).killGang x.id 0xFD
    | .ok ls =>
      let r := w.1.engineGlobal p x ls
      if r.2.1 then r.1.abortDomain x.part x.tenant x.domain TrapCode.mchk.num 0
      else
        let all := edgesOf i.edges slots
        let es := all.take (scEmax sc.desc)
        let nums := slots.map (BitVec.ofNat 32) ++ List.replicate (32 * tus - slots.length) (BitVec.allOnes 32)
        let h := islandHeader sc i t isl tus slots.length es.length (decide (es.length < all.length))
        let put := fun (y : Gang) => ((((y.arrPut 0 (bytesOfNat 64 h.toNat)).arrPut 0x40 (nums.flatMap (fun v => bytesOfNat 4 v.toNat))).arrPut
          (recordsAt tus) r.2.2).arrPut (edgesAt sc.desc tus) (es.flatMap (fun e => e.bytes slots)))
        (r.1.modGang x.id (fun y => { put y with ready := true })).dropOp o.id

/-- ISLAND_FILL_DONE (R300): before the gang's first tussock starts. -/
def execIslandFillDone (task : Nat) (s : State) : Out :=
  let op := s.ops.find? (fun o => o.gang == task && (match o.kind with
    | .fill q => q.isNone
    | _ => false))
  match op, s.gang? task, s.task? task with
  | some o, some x, some t =>
    (match s.part? x.part, x.core, x.isl with
    | some p, some core, some isl => if s.now < o.at_ then .next s else .next (s.islandFill o x p t isl core)
    | _, _, _ => .next s)
  | _, _, _ => .next s

/-! ### The units' requests are done (R452) -/

/-- Writes p6 in the lanes of an operation. -/
def State.status6 (s : State) (o : Op) (m : Mask) : State :=
  s.writeP o.gang o.tk 6 o.mask (if o.p6 == some false then 0 else m)

/-- A data message to a rank of a job's PGT (R376, R390; log 13). -/
def State.toPeer (s : State) (part tenant job rank op : Nat) (a0 a1 a2 a3 : BitVec 64) (tag : Nat) : State :=
  match (s.job? part job tenant).bind (fun j => j.feps[rank]?) with
  | some d => s.sendData part tenant op d a0 a1 a2 a3 tag
  | none => s

/-- TASK_UNIT_REQUEST_DONE (R292 to R294, R298, R304, R305, R452): the request at the front of its unit is applied. -/
def execTaskUnitRequestDone (op : Nat) (s : State) : Out :=
  match s.op? op with
  | none => .next s
  | some o =>
    if s.now < o.at_ || !s.atFront o then .next s
    else
      let part := (s.partOf o).getD 0
      let tenant := (o.who.map (·.2)).getD 0
      let done := fun (s : State) => Host.Outcome.next ((s.nextRequest o).finishOp o)
      let sent := fun (s : State) (r : TaskReq) => Host.Outcome.next ((s.nextRequest o).modOp op (fun q => { q with kind := .task r 0 }))
      match o.kind with
      | .task r _ =>
        (match r with
        | .spawn d t =>
          let a := s.addTask t
          done (a.1.landLong o d (splat ((handleOf a.2).setWidth 128)))
        | .rspawn d rank node args ctl depth job =>
          let s := s.toPeer part tenant job rank 0x40 node args ctl (BitVec.ofNat 64 depth) op
          sent (s.modJob part tenant job (fun j => { j with sent := j.sent ++ [(op, rank)] })) (.remote d op rank true job)
        | .rsig rank x n job =>
          sent (s.toPeer part tenant job rank 0x41 (BitVec.ofNat 64 x) (BitVec.ofNat 64 n) 0 0 op) (.remote .none op rank false job)
        | .tdep x y =>
          let live := ((s.task? x).map (fun t => !t.ended)).getD false
          let room := ((s.task? y).map (fun t => decide (t.ctr < 65535))).getD true
          if live && room then
            done (((s.modTask y (fun t => { t with ctr := t.ctr + 1 })).modTask x (fun t => { t with links := t.links ++ [y] })).status6 o o.mask)
          else done (s.status6 o 0)
        | .tsig x n => done (s.decTaskN x n)
        | .icon cs => let a := s.applyLanes part cs Scene.contact; done (a.1.status6 o a.2)
        | .ijnt cs del => let a := s.applyLanes part cs (fun sc => sc.joint del); done (a.1.status6 o a.2)
        | .iscene d desc proto =>
          (match s.part? part with
          | none => done s
          | some p =>
            let free := (List.range 256).find? (fun n => p.scenes.all (fun sc => sc.num != n))
            match free with
            | some n =>
              if rcbField p.root 3 < p.framesOf tenant none + scFrames desc then done (s.status6 o 0)
              else
                let sc : Scene := { num := n, tenant := tenant, desc := desc, proto := proto }
                let s := s.modPart part (fun q => { q.addFrames tenant [] (scFrames desc) with scenes := q.scenes ++ [sc] })
                done ((s.landLong o d (splat (BitVec.ofNat 128 n))).status6 o o.mask)
            | none => done (s.status6 o 0))
        | .isceneDel n =>
          (match (s.part? part).bind (fun x => x.scenes.find? (fun sc => sc.num == n)) with
          | none => done s
          | some sc =>
            if !sc.stepOver then .next s
            else
              let less := fun (f : FrameUse) => if f.tenant == sc.tenant && f.nodes.isEmpty then { f with count := f.count - scFrames sc.desc } else f
              done (s.modPart part (fun q => { q with scenes := q.scenes.filter (fun z => z.num != n), frames := q.frames.map less })))
        | .made => done s
        | .istep .. | .remote .. => .next s)
      | _ => .next s

/-! ### Instructions (R298, R299, R304, R305) -/

/-- The 512 bits of a descriptor at translated addresses, read now. -/
def State.readDesc (s : State) (ls : List LanePa) : BitVec 512 :=
  ls.foldl (fun d e => d ||| (BitVec.ofNat 512 (s.mem.read e.2.2 8) <<< (64 * e.1))) 0

/-- ISCENE (R297, R298): the descriptor is read at issue; the scene exists from the completion point on. -/
def execIscene (t : Tail) (d : Dst) (a : USrc) (s : State) : Out :=
  tileIssue true t s (fun c s =>
    let va := (c.tk.uval a).toNat
    let p := c.part s
    if va % 8 != 0 then c.trap .align va
    else
      let w := c.descWalk s p va
      match w.2 with
      | .error e => (c.walkFault w.1 0 ((lanesOf c.act).map (fun l => (l, e.1, e.2)))).getD (c.trap .xlate e.2)
      | .ok ls =>
        match c.eccLanes w.1 p true (ls.map (·.2.2)) 8 with
        | .error r => r
        | .ok (s, _) =>
          let desc := s.readDesc ls
          if !scOk desc then c.trap .qerr
          else match s.spawnTask p c.x.tenant (scTemplate desc) 0 1 0 (some 0) with
          | none => c.trap .qerr
          | some (ch, proto) =>
            if proto.foot.team != 1 || footNever ch (islandFoot desc proto.foot 32) then c.trap .qerr
            else
              let r := s.delay
              .next (c.request r.2 (.iscene (ldest d 2) desc proto) (400 + 240 + r.1) none) true)

/-- ISCENE.del (R298). -/
def execIsceneDel (t : Tail) (a : USrc) (s : State) : Out :=
  tileIssue true t s (fun c s =>
    let n := ((c.tk.uval a).extractLsb' 0 8).toNat
    match (c.part s).scene? n with
    | none => c.trap .qerr
    | some _ => .next (c.request (s.modScene c.x.part n (fun sc => { sc with deleting := true })) (.isceneDel n) 0 none) true)

/-- A lane request to the island unit: the checks of R304, then the lanes' operands. -/
def edgeOp (t : Tail) (a b tag : Src) (s : State) (mk : List (Nat × Nat × Nat × Nat × BitVec 32) → TaskReq) : Out :=
  issueHeld t s (fun c s =>
    let p := c.part s
    let lane := fun (rd : Read) (l : Nat) =>
      (l, (arg32 rd.v 0 l).extractLsb' 24 8 |>.toNat, (arg32 rd.v 0 l).extractLsb' 0 24 |>.toNat,
       (arg32 rd.v 1 l).extractLsb' 0 24 |>.toNat, arg32 rd.v 2 l)
    let bad := fun (rd : Read) => (lanesOf c.act).filter (fun l =>
      (arg32 rd.v 1 l).extractLsb' 24 8 != 0 || (p.scene? ((arg32 rd.v 0 l).extractLsb' 24 8).toNat).isNone)
    c.checked s [(a, .int, 1), (b, .int, 1), (tag, .int, 1)]
      (fun rd s => match bad rd with
        | [] => .ok (s, ())
        | ls => .error (.trap { code := .qerr, lanes := maskOfList ls }))
      (fun rd s _ =>
        let cs := (lanesOf c.act).map (lane rd)
        .next (c.request s (mk cs) (20 + 4 * cs.length) rd.p6) true))

/-- ICON (R304). -/
def execIcon (t : Tail) (a b tag : Src) (s : State) : Out := edgeOp t a b tag s TaskReq.icon
/-- IJNT (R305). -/
def execIjnt (t : Tail) (a b tag : Src) (s : State) : Out := edgeOp t a b tag s (fun cs => .ijnt cs false)
/-- IJNT.del (R305). -/
def execIjntDel (t : Tail) (a b tag : Src) (s : State) : Out := edgeOp t a b tag s (fun cs => .ijnt cs true)

/-- ISTEP (R299). -/
def execIstep (t : Tail) (a b : USrc) (s : State) : Out :=
  tileIssue true t s (fun c s =>
    let n := ((c.tk.uval a).extractLsb' 0 8).toNat
    let h := c.tk.uval b
    let go := fun (link : Nat) => Res.next (c.request s (.istep n link) 0 none) true
    if ((c.part s).scene? n).isNone then c.trap .qerr
    else if h == 0 then go 0
    else match c.handle s h with
    | .bad code => c.trap code
    | .remote .. => c.trap .qerr
    | .gone => go 0
    | .here x => go x.id)

/-! ### Island gangs (R307 to R309) -/

/-- The scene and island of the issuing gang; none where it is no island gang. -/
def Ctx.isle (c : Ctx) (s : State) : Option (Scene × Island) :=
  match c.x.isl with
  | none => none
  | some g =>
    match (c.part s).scenes.find? (fun sc => sc.num == g.scene) with
    | none => none
    | some sc => (sc.island? g.island).map (fun i => (sc, i))

/-- IPOLL (R307). -/
def execIpoll (t : Tail) (d : Dst) (s : State) : Out :=
  tileIssue true t s (fun c s =>
    match c.isle s with
    | none => c.trap .qerr
    | some (sc, i) =>
      let n := (sc.pending i.num).length
      let code := if i.state == .absorbed then 2 else if n != 0 then 1 else 0
      let f := s.free
      let rep : BitVec 24 := if i.state == .absorbed then ((i.pendAt.map (BitVec.ofNat 24)).getD (f.1.extractLsb' 0 24)) else BitVec.ofNat 24 i.num
      let v : BitVec 64 := 0#16 ++ rep ++ 0#8 ++ BitVec.ofNat 8 (min n 255) ++ BitVec.ofNat 8 code
      .next (c.longOp f.2 20 (.values (ldest d 2) (splat (v.setWidth 128)) none none)) true)

/-- The value and status that IGROW delivers. -/
def Ctx.grown (c : Ctx) (s : State) (d : Dst) (n : Nat) (ok : Bool) : Res :=
  let r := s.delay
  .next (c.longOp r.2 (1 + r.1) (.values (ldest d 2) (splat (BitVec.ofNat 128 n)) (some (if ok then c.act else 0)) none)) true

/-- IGROW (R308, R326). It follows the slot's earlier accesses to scratchpad (R134). -/
def execIgrow (t : Tail) (d : Dst) (s : State) : Out :=
  tileIssue true t s (fun c s =>
    match c.isle s with
    | none => c.trap .qerr
    | some (sc, i) =>
      let bodies := c.x.sp.read 4 2
      let pend := sc.pending i.num
      let tus := c.x.foot.tus
      if i.state == .absorbed || i.state == .growfail then c.grown s d bodies false
      else if pend.isEmpty then c.grown s d bodies true
      else if pend.any (fun k => k.state == .absorbed) then .stall s .absorbed
      else if !(c.ownBanks s).isEmpty then .stall s (.drain (c.ownBanks s) 0)
      else
        let have_ := i.bodies.length
        let new := (pend.flatMap (·.bodies)).mergeSort (· ≤ ·)
        let total := have_ + new.length
        if 32 * tus < total then
          c.grown (s.modScene c.x.part sc.num (fun q => q.put { i with state := .growfail })) d total false
        else
          let p := c.part s
          let w := s.readBodies c.core p c.x.tenant c.sup sc new (c.reader s)
          match w.2 with
          | .error e => (c.walkFault w.1 0 ((lanesOf c.act).map (fun l => (l, e.1, e.2)))).getD (c.trap .xlate e.2)
          | .ok ls =>
            let r := w.1.engineGlobal p c.x ls
            if r.2.1 then .out (.next (r.1.takeTrap c.g c.t c.k { code := .mchk, lanes := c.sl.mask }))
            else
              let slots := i.bodies ++ new
              let all := edgesOf (edgesIn (sc.joints ++ sc.old ++ sc.contacts) slots) slots
              let es := all.take (scEmax sc.desc)
              let eovf : Byte := if es.length < all.length then 0x80 else 0
              let put := fun (y : Gang) =>
                let y := y.arrPut (0x40 + 4 * have_) (new.flatMap (fun b => bytesOfNat 4 b))
                let y := y.arrPut (recordsAt tus + have_ * scBpb sc.desc) r.2.2
                let y := y.arrPut (edgesAt sc.desc tus) (es.flatMap (fun e => e.bytes slots))
                (y.arrPut 4 (bytesOfNat 2 total)).arrPut 8 (bytesOfNat 2 es.length ++ [0, eovf])
              let gone := pend.map (·.num)
              let s := r.1.modGang c.g put
              let s := s.modScene c.x.part sc.num (fun q =>
                { q with islands := (q.islands.filter (fun k => !gone.contains k.num)).map (fun k =>
                    if k.num == i.num then { k with bodies := slots } else k) })
              c.grown s d total true)

/-- IREST (R309). -/
def execIrest (t : Tail) (s : State) : Out :=
  tileIssue true t s (fun c s =>
    match c.isle s with
    | none => c.trap .qerr
    | some (sc, i) =>
      let ok := i.state == .running && (sc.pending i.num).isEmpty
      let s := if ok then s.modScene c.x.part sc.num (fun q => q.put { i with rest := true }) else s
      .next (c.longOp s 1 (.values .none (splat 0) (some (if ok then c.act else 0)) none)) true)

/-- The code of an island's state (R310). -/
def IState.code : IState → Nat
  | .awake => 0
  | .running => 1
  | .patched => 2
  | .idle => 3
  | .sleeping => 4
  | .absorbed => 5
  | .sleepingAbsorbed => 6
  | .merged => 7
  | .growfail => 8

/-- The answer of IINFO about a body of a scene (R310). -/
def Scene.info (sc : Scene) (b sel : Nat) : Nat :=
  let i := sc.islandOf b
  if scBodies sc.desc ≤ b then 2 ^ 32 - 1
  else match sel with
  | 0 => i.num
  | 1 => i.bodies.length
  | 2 => i.state.code
  | 3 => sc.step % 2 ^ 32
  | 4 => sc.launched
  | _ => sc.contacts.length

/-- IINFO (R310). -/
def execIinfo (t : Tail) (sel : BitVec 3) (d : Dst) (a : Src) (s : State) : Out :=
  issueHeld t s (fun c s =>
    let p := c.part s
    c.checked s [(a, .int, 1)] (fun _ s => .ok (s, ()))
      (fun rd s _ =>
        let one := fun (l : Nat) =>
          let v := arg32 rd.v 0 l
          match p.scene? (v.extractLsb' 24 8).toNat with
          | some sc => sc.info (v.extractLsb' 0 24).toNat sel.toNat
          | none => 2 ^ 32 - 1
        let vals : Lanes 128 := laneNums.map (fun l => if c.act.getLsbD l then BitVec.ofNat 128 (one l) else 0)
        .next (c.longOp s 40 (.values (ldest d 1) vals none none) rd.p6) true))

end Sys2Proof.Machine
end

