-- ==== Sys2Proof/WellFormed.lean ====
section
/-! DEFINITION. Which instruction terms are Kreud instructions: the operand rules of R172 to R180 and of the
encoding tables of R188, R210, R231, R232, R256, R280 and R313. A word that breaks one raises #ILLOP. -/

namespace Sys2Proof

/-- GP = 7 with GN = 1 is not an instruction (R163). -/
def Tail.ok (t : Tail) : Bool := !(t.gp == 7 && t.gn)

/-- No guard: GP = 7, GN = 0 (R162). -/
def Tail.noGuard (t : Tail) : Bool := t.gp == 7 && !t.gn

/-- A 64-bit operand: an even n register, no high half (R52). -/
def Src.ok64 : Src → Bool
  | .n r _ => r.toNat % 2 == 0
  | .g _ hi => !hi
  | _ => true

/-- A 128-bit operand: n4k only (R169). -/
def Src.ok128 : Src → Bool
  | .n r _ => r.toNat % 4 == 0
  | _ => false

/-- A source of a uniform operation (R177). -/
def Src.uniform : Src → Bool
  | .g _ hi => !hi
  | .const _ => true
  | _ => false

/-- Store data of a size code (R169). -/
def Src.dataOk (s : Src) (size : BitVec 3) : Bool :=
  if size == 4 then s.ok128 else if size == 3 then s.ok64 else true

/-- The B operand of a cas (R179). -/
def Src.casOk (s : Src) (w64 : Bool) : Bool := if w64 then s.ok128 else s.ok64

/-- The specifier of an R/I operand, if it has one. -/
def SrcI.srcs : SrcI → List Src
  | .src s => [s]
  | .imm _ => []

/-- The specifiers of LEA's second part. -/
def LeaI.srcs : LeaI → List Src
  | .src b c => [b, c]
  | .imm _ => []

/-- A "u" operand is read as 64 bits, so it names no high half (R52, R226; log 9). -/
def USrc.ok : USrc → Bool
  | .g _ hi => !hi
  | .const _ => true

/-- Destinations n, q0 and _ (R209). -/
def Dst.lane : Dst → Bool
  | .push | .discard | .n _ => true
  | .g _ _ | .wq _ _ | .p _ => false

/-- Destinations of a 64-bit lane result (R52). -/
def Dst.lane64 : Dst → Bool
  | .push | .discard => true
  | .n r => r.toNat % 2 == 0
  | .g _ _ | .wq _ _ | .p _ => false

/-- A g destination without a high half. -/
def Dst.isG : Dst → Bool
  | .g _ hi => !hi
  | _ => false

/-- Destinations n and _. -/
def Dst.nOrNone : Dst → Bool
  | .n _ | .discard => true
  | _ => false

/-- Destinations n4k and _ (R232). -/
def Dst.n4OrNone : Dst → Bool
  | .n r => r.toNat % 4 == 0
  | .discard => true
  | _ => false

/-- Destinations g and _. -/
def Dst.gOrNone : Dst → Bool
  | .g _ hi => !hi
  | .discard => true
  | _ => false

/-- Destinations n, g and _. -/
def Dst.nGOrNone : Dst → Bool
  | .n _ | .discard => true
  | .g _ hi => !hi
  | _ => false

/-- Destinations n even, g and _ (R232). -/
def Dst.pairOrG : Dst → Bool
  | .n r => r.toNat % 2 == 0
  | .discard => true
  | .g _ hi => !hi
  | _ => false

/-- Destinations of a load of a size code (R169, R234). -/
def Dst.loadOk (d : Dst) (size : BitVec 3) : Bool :=
  match d with
  | .n r => if size == 4 then r.toNat % 4 == 0 else if size == 3 then r.toNat % 2 == 0 else true
  | .discard => true
  | .g _ hi => !hi && size != 4
  | _ => false

/-- The destination of ATOM; the discard destination is RED (R239). -/
def Dst.atomOk (d : Dst) (w64 : Bool) : Bool :=
  match d with
  | .n r => !w64 || r.toNat % 2 == 0
  | _ => false

/-- The destination of MOVI (R188); a g destination is a uniform operation without guard (R177). -/
def Dst.moviOk (d : Dst) (t : Tail) : Bool :=
  match d with
  | .g _ hi => !hi && t.noGuard
  | _ => d.lane

/-- The destination of MOVW (R199). -/
def Dst.movwOk (d : Dst) (t : Tail) : Bool :=
  match d with
  | .g _ _ => t.noGuard
  | _ => d.lane

/-- An integer or logic opcode: a lane operation, whose result may be pushed to a w queue (R176, log 10), or a
uniform operation (R177). -/
def intOk (t : Tail) (d : Dst) (xs ys : List Src) : Bool :=
  match d with
  | .g _ hi => !hi && t.noGuard && xs.all Src.uniform && ys.all Src.uniform
  | .wq _ _ => true
  | _ => d.lane

/-- The memory modifier of a load or store apart from SX (R169). -/
def MemMod.ok (m : MemMod) : Bool :=
  decide (m.size.toNat ≤ 4) && m.kind != 3 && (m.kind != 0 || m.scope == 0) && decide (m.scope.toNat < 6)

/-- A load's modifier: SX only at 8 and 16 bits (R169). -/
def MemMod.loadOk (m : MemMod) : Bool := m.ok && (!m.sx || decide (m.size.toNat ≤ 1))

/-- A store's modifier (R169). -/
def MemMod.storeOk (m : MemMod) : Bool := m.ok && !m.sx

/-- The modifier of ST.N4 (R236). -/
def N4Mod.ok (m : N4Mod) : Bool :=
  m.kind != 3 && (m.kind != 0 || m.scope == 0) && decide (m.scope.toNat < 6)

/-- The fields of ATOM (R129, R179). -/
def AtomMod.ok (m : AtomMod) : Bool := decide (m.scope.toNat < 6) && (!m.sp || m.treg == 0)

/-- P, N and ABS name no register beyond g63 (R171). -/
def EFields.ok (e : EFields) (n : Nat) : Bool := decide (e.p.toNat + n - 1 + e.abs.toNat ≤ 63)

/-- The fields of MLOOP (R266). -/
def LoopFields.ok (f : LoopFields) : Bool :=
  f.x.toNat % 4 == 0 && decide (f.x.toNat ≤ 28) && f.var != 3 && decide (f.pair.toNat < 6)

/-- Elements that a source type of CVT packs (R179, R217). -/
def cvtCount (src : BitVec 3) : Nat :=
  match src.toNat with
  | 1 | 2 => 2
  | 6 => 4
  | 7 => 8
  | _ => 1

/-- The operand rules of CVT (R219). -/
def cvtOk (rm : BitVec 2) (dst src e : BitVec 3) (d : Dst) (a : Src) : Bool :=
  decide (e.toNat < cvtCount src) && (rm == 0 || decide (dst.toNat < 6)) &&
  (if dst == 3 then d.lane64 else d.lane) && (src != 3 || a.ok64)

/-- The special registers of R319. -/
def srListed (k : BitVec 12) : Bool :=
  [0x000, 0x001, 0x002, 0x003, 0x004, 0x005, 0x008, 0x009, 0x00A, 0x00B, 0x00C, 0x00D,
   0x010, 0x011, 0x012, 0x013, 0x018, 0x019, 0x01A, 0x01B].contains k.toNat

/-- The RW registers of R319 (R318). -/
def srWritable (k : BitVec 12) : Bool := [0x000, 0x018, 0x019, 0x01A, 0x01B].contains k.toNat

/-- A term that stands for an instruction word; the operations and events of the machine have no word. -/
def Instr.wellFormed : Instr → Bool
  | .nop t => t.ok
  | .exit t => t.ok
  | .pbt t _ _ => t.ok
  | .pbtr t _ _ => t.ok
  | .xfer t _ j _ sp => t.ok && (sp || j == 0)
  | .btinv t _ => t.ok
  | .btmov t _ _ => t.ok
  | .icinv t _ _ => t.ok
  | .yield t _ _ => t.ok
  | .movi t d _ => t.ok && d.moviOk t
  | .movw t d _ => t.ok && t.sba == 0 && d.movwOk t
  | .spill t n _ c => t.ok && decide (n.toNat + c.toNat < 32)
  | .stage t n c m => t.ok && decide (n.toNat + c.toNat < 32) && decide (m.toNat + c.toNat < 256)
  | .iadd t d a b => t.ok && intOk t d [a] b.srcs
  | .isub t d a b => t.ok && intOk t d [a] b.srcs
  | .imul t d a b => t.ok && intOk t d [a] b.srcs
  | .imulh t _ d a b => t.ok && intOk t d [a] b.srcs
  | .imad t d a b c => t.ok && intOk t d [a, b, c] []
  | .imin t _ d a b => t.ok && intOk t d [a] b.srcs
  | .imax t _ d a b => t.ok && intOk t d [a] b.srcs
  | .iabs t d a => t.ok && intOk t d [a] []
  | .and t d a b => t.ok && intOk t d [a] b.srcs
  | .or t d a b => t.ok && intOk t d [a] b.srcs
  | .xor t d a b => t.ok && intOk t d [a] b.srcs
  | .not t d a => t.ok && intOk t d [a] []
  | .icmp t _ w _ a b => t.ok && (!w || (a.ok64 && b.ok64))
  | .fcmp t _ ty _ _ a b => t.ok && (ty != 1 || (a.ok64 && b.ok64))
  | .plog t _ _ _ _ _ _ => t.ok
  | .pmovR t d => t.ok && d.lane
  | .pmovW t _ => t.ok
  | .shl t d a b => t.ok && intOk t d [a] b.srcs
  | .shr t d a b => t.ok && intOk t d [a] b.srcs
  | .sar t d a b => t.ok && intOk t d [a] b.srcs
  | .rot t d a b => t.ok && intOk t d [a] b.srcs
  | .bfx t _ d a c => t.ok && intOk t d [a, c] []
  | .bfi t d a b c => t.ok && intOk t d [a, b, c] []
  | .popc t d a => t.ok && intOk t d [a] []
  | .clz t d a => t.ok && intOk t d [a] []
  | .brev t d a => t.ok && intOk t d [a] []
  | .sel t d a b c => t.ok && intOk t d [a, b, c] []
  | .mov t d a => t.ok && intOk t d [a] []
  | .lea t d a bc => t.ok && intOk t d [a] bc.srcs
  | .voteAnd t _ _ _ => t.ok
  | .voteOr t _ _ _ => t.ok
  | .votePar t _ _ _ => t.ok
  | .voteMask t d _ _ => t.ok && (d.lane || d.isG)
  | .voteCnt t d _ _ => t.ok && (d.lane || d.isG)
  | .voteLead t d _ _ => t.ok && (d.lane || d.isG)
  | .shflSel t _ d _ _ k => t.ok && d.lane && decide (k.toNat ≤ 5)
  | .shflRot t _ d _ _ k => t.ok && d.lane && decide (k.toNat ≤ 5)
  | .shflRev t _ d _ _ k => t.ok && d.lane && decide (k.toNat ≤ 5)
  | .shflXor t _ d _ _ k => t.ok && d.lane && decide (k.toNat ≤ 5)
  | .bcast t d _ _ => t.ok && (d.lane || d.isG)
  | .faddF32 t rm dyn d _ _ => t.ok && d.lane && (!dyn || rm == 0)
  | .fsubF32 t rm dyn d _ _ => t.ok && d.lane && (!dyn || rm == 0)
  | .fmulF32 t rm dyn d _ _ => t.ok && d.lane && (!dyn || rm == 0)
  | .ffmaF32 t _ d _ _ _ => t.ok && d.lane
  | .fminF32 t d _ _ => t.ok && d.lane
  | .fmaxF32 t d _ _ => t.ok && d.lane
  | .frcpF32 t _ d _ => t.ok && d.lane
  | .frsqF32 t _ d _ => t.ok && d.lane
  | .fsqrtF32 t _ d _ => t.ok && d.lane
  | .fexp2F32 t _ d _ => t.ok && d.lane
  | .flog2F32 t _ d _ => t.ok && d.lane
  | .fsinF32 t _ d _ => t.ok && d.lane
  | .fcosF32 t _ d _ => t.ok && d.lane
  | .fclassF32 t d _ => t.ok && d.lane
  | .faddF16X2 t rm dyn d _ _ => t.ok && d.lane && (!dyn || rm == 0)
  | .fsubF16X2 t rm dyn d _ _ => t.ok && d.lane && (!dyn || rm == 0)
  | .fmulF16X2 t rm dyn d _ _ => t.ok && d.lane && (!dyn || rm == 0)
  | .ffmaF16X2 t _ d _ _ _ => t.ok && d.lane
  | .fminF16X2 t d _ _ => t.ok && d.lane
  | .fmaxF16X2 t d _ _ => t.ok && d.lane
  | .frcpF16X2 t _ d _ => t.ok && d.lane
  | .frsqF16X2 t _ d _ => t.ok && d.lane
  | .fsqrtF16X2 t _ d _ => t.ok && d.lane
  | .fexp2F16X2 t _ d _ => t.ok && d.lane
  | .flog2F16X2 t _ d _ => t.ok && d.lane
  | .fsinF16X2 t _ d _ => t.ok && d.lane
  | .fcosF16X2 t _ d _ => t.ok && d.lane
  | .fclassF16X2 t d _ => t.ok && d.lane
  | .faddBF16X2 t rm dyn d _ _ => t.ok && d.lane && (!dyn || rm == 0)
  | .fsubBF16X2 t rm dyn d _ _ => t.ok && d.lane && (!dyn || rm == 0)
  | .fmulBF16X2 t rm dyn d _ _ => t.ok && d.lane && (!dyn || rm == 0)
  | .ffmaBF16X2 t _ d _ _ _ => t.ok && d.lane
  | .fminBF16X2 t d _ _ => t.ok && d.lane
  | .fmaxBF16X2 t d _ _ => t.ok && d.lane
  | .frcpBF16X2 t _ d _ => t.ok && d.lane
  | .frsqBF16X2 t _ d _ => t.ok && d.lane
  | .fsqrtBF16X2 t _ d _ => t.ok && d.lane
  | .fexp2BF16X2 t _ d _ => t.ok && d.lane
  | .flog2BF16X2 t _ d _ => t.ok && d.lane
  | .fsinBF16X2 t _ d _ => t.ok && d.lane
  | .fcosBF16X2 t _ d _ => t.ok && d.lane
  | .fclassBF16X2 t d _ => t.ok && d.lane
  | .flagsRd t d => t.ok && d.lane
  | .flagsClr t _ => t.ok
  | .dadd t rm dyn d a b => t.ok && d.lane64 && a.ok64 && b.ok64 && (!dyn || rm == 0)
  | .dmul t rm dyn d a b => t.ok && d.lane64 && a.ok64 && b.ok64 && (!dyn || rm == 0)
  | .dfma t _ d a b c => t.ok && d.lane64 && a.ok64 && b.ok64 && c.ok64
  | .dmin t d a b => t.ok && d.lane64 && a.ok64 && b.ok64
  | .dmax t d a b => t.ok && d.lane64 && a.ok64 && b.ok64
  | .cvt t rm dst src e d a => t.ok && cvtOk rm dst src e d a
  | .pack4N4 t d _ _ => t.ok && d.lane
  | .pack4B8 t d _ _ => t.ok && d.lane
  | .pack4H16 t d _ _ => t.ok && d.lane
  | .unpk4N4 t _ d _ => t.ok && d.lane
  | .unpk4B8 t _ d _ => t.ok && d.lane
  | .unpk4H16 t _ d _ => t.ok && d.lane
  | .rngCb t _ d _ b => t.ok && d.lane && b.ok64
  | .vtopk t _ w _ _ d _ => t.ok && d.lane && w != 3
  | .ldg t md d _ _ _ => t.ok && md.loadOk && d.loadOk md.size
  | .stg t md _ _ b _ => t.ok && md.storeOk && b.dataOk md.size
  | .ldp t md d _ _ => t.ok && md.loadOk && d.loadOk md.size
  | .stp t md _ b _ => t.ok && md.storeOk && b.dataOk md.size
  | .stN4 t md tr _ _ _ => t.ok && md.ok && (!md.sp || tr == 0)
  | .pref t _ _ _ _ => t.ok
  | .tbind t _ _ => t.ok
  | .tinv t _ => t.ok
  | .ptag t d k => t.ok && d.nOrNone && k.ok64
  | .ptset t d k => t.ok && d.n4OrNone && k.ok64
  | .ptinv t d k => t.ok && d.nOrNone && k.ok64
  | .rbind t a b c => t.ok && a.ok && b.ok && c.ok
  | .atomAdd t md d _ b => t.ok && md.ok && d.atomOk md.w64 && (!md.w64 || b.ok64)
  | .atomMin t md d _ b => t.ok && md.ok && d.atomOk md.w64 && (!md.w64 || b.ok64)
  | .atomMax t md d _ b => t.ok && md.ok && d.atomOk md.w64 && (!md.w64 || b.ok64)
  | .atomAnd t md d _ b => t.ok && md.ok && d.atomOk md.w64 && (!md.w64 || b.ok64)
  | .atomOr t md d _ b => t.ok && md.ok && d.atomOk md.w64 && (!md.w64 || b.ok64)
  | .atomXor t md d _ b => t.ok && md.ok && d.atomOk md.w64 && (!md.w64 || b.ok64)
  | .atomXchg t md d _ b => t.ok && md.ok && d.atomOk md.w64 && (!md.w64 || b.ok64)
  | .atomCas t md d _ b => t.ok && md.ok && d.atomOk md.w64 && b.casOk md.w64
  | .red t md op _ b => t.ok && md.ok && (md.kind == 0 || md.kind == 2) && (if op == 7 then b.casOk md.w64 else !md.w64 || b.ok64)
  | .fence t s => t.ok && decide (s.toNat < 6)
  | .fenceSc t s => t.ok && decide (s.toNat < 6)
  | .pfenceSp t => t.ok
  | .pfenceGl t => t.ok
  | .pfenceAll t => t.ok
  | .acqE t d u => t.ok && d.pairOrG && u.ok
  | .relE t u => t.ok && u.ok
  | .barg t => t.ok
  | .abinit t a b c => t.ok && a.ok && b.ok && c.ok
  | .abexp t a b => t.ok && a.ok && b.ok
  | .abarr t a b => t.ok && a.ok && b.ok
  | .abwait t a b => t.ok && a.ok && b.ok
  | .subl t _ _ _ _ => t.ok
  | .unsub t _ => t.ok
  | .slwait t d _ _ => t.ok && d.nOrNone
  | .fset t _ _ a b => t.ok && a.ok && b.ok
  | .fget t _ _ d u => t.ok && d.pairOrG && u.ok
  | .qcfg t _ a b => t.ok && a.ok && b.ok
  | .xshape t _ u => t.ok && u.ok
  | .xld t _ _ => t.ok
  | .xst t _ _ => t.ok
  | .xzero t _ => t.ok
  | .xmov t _ _ _ => t.ok
  | .yzero t _ => t.ok
  | .yld t _ _ _ => t.ok
  | .yst t _ _ _ => t.ok
  | .mma t pr _ _ _ _ _ => t.ok && decide (pr.toNat < 6)
  | .mloop t e f => t.ok && e.ok 4 && f.ok
  | .ycvt t _ _ _ _ => t.ok
  | .ysca t yd ys _ _ => t.ok && yd != ys
  | .yred t _ _ _ => t.ok
  | .mwait t _ => t.ok
  | .yevtRd t d _ => t.ok && d.nGOrNone
  | .yevtClr t _ _ => t.ok
  | .leave t u => t.ok && u.ok
  | .sdef t _ a b c => t.ok && a.ok && b.ok && c.ok
  | .sstart t _ u => t.ok && u.ok
  | .sstop t d _ => t.ok && d.gOrNone
  | .isect t _ d _ _ _ => t.ok && d.nOrNone
  | .mrgk t e _ => t.ok && e.ok 5
  | .cpyt t e => t.ok && e.ok 1
  | .shuf t e => t.ok && e.ok 2
  | .rtset t _ a b => t.ok && a.ok && b.ok
  | .rtstate t _ d => t.ok && d.nGOrNone
  | .rtdrop t _ => t.ok
  | .spawn t d a b c => t.ok && d.gOrNone && a.ok && b.ok && c.ok
  | .tdep t a b => t.ok && a.ok && b.ok
  | .tsig t a b => t.ok && a.ok && b.ok
  | .tend t u => t.ok && u.ok
  | .migr t a b c => t.ok && a.ok && b.ok && c.ok
  | .iscene t d u => t.ok && d.gOrNone && u.ok
  | .isceneDel t u => t.ok && u.ok
  | .icon t _ _ _ => t.ok
  | .ijnt t _ _ _ => t.ok
  | .ijntDel t _ _ _ => t.ok
  | .istep t a b => t.ok && a.ok && b.ok
  | .ipoll t d => t.ok && d.gOrNone
  | .igrow t d => t.ok && d.gOrNone
  | .irest t => t.ok
  | .iinfo t x d _ => t.ok && decide (x.toNat < 6) && d.nGOrNone
  | .trap t _ => t.ok
  | .sret t => t.ok
  | .sretSkip t => t.ok
  | .rdsr t d k => t.ok && d.nGOrNone && srListed k
  | .wrsr t k u => t.ok && u.ok && srWritable k
  | .ckpt t d a b c => t.ok && d.gOrNone && a.ok && b.ok && c.ok
  | .errinj t a b c => t.ok && a.ok && b.ok && c.ok
  | .swapf t a b => t.ok && a.ok && b.ok
  | .halt t u => t.ok && u.ok
  | .issueSelect _ _ => false
  | .resultLand _ => false
  | .loadComplete _ => false
  | .storePerformed _ _ => false
  | .stageComplete _ => false
  | .btLineLand _ => false
  | .longWaitSatisfied _ _ _ => false
  | .placeGang _ => false
  | .activateTussock _ _ => false
  | .stagingDone _ _ => false
  | .parkTussock _ _ => false
  | .deadwait _ _ _ => false
  | .orderedUnload _ => false
  | .windowFillDone _ => false
  | .engineStart _ => false
  | .leaveGrant _ => false
  | .enginePieceCredit _ => false
  | .shufComplete _ => false
  | .mrgkComplete _ => false
  | .mloopStepEnd _ => false
  | .tileOpComplete _ => false
  | .pushLand _ => false
  | .streamFetch _ _ _ => false
  | .faultRecordEnter _ => false
  | .migrationCopyDone _ => false
  | .swapDone _ => false
  | .islandStepBoundary _ _ => false
  | .islandFillDone _ => false
  | .igrowProceed _ _ _ => false
  | .islandRelaunch _ _ _ => false
  | .sliceEnd _ => false
  | .drainDeadline _ => false
  | .tenantRestore _ => false
  | .intervalStart => false
  | .bucketSweep => false
  | .thermalStepDown _ => false
  | .thermalStepUp _ => false
  | .arbiterServe _ => false
  | .patrolScrub _ => false
  | .portLinkDown _ => false
  | .peerUnreachable _ _ => false
  | .remoteSpawnReceive _ => false
  | .remoteTsigReceive _ => false
  | .remoteAckReceive _ => false
  | .remoteCompletion _ => false
  | .partCreate _ => false
  | .partDestroy _ => false
  | .memWrite _ => false
  | .memRead _ => false
  | .launch _ => false
  | .preempt _ => false
  | .resume _ => false
  | .faultFetch _ => false
  | .replay _ => false
  | .migrate _ => false
  | .ckptCommand _ => false
  | .restore _ => false
  | .attest _ => false
  | .peerNonce _ => false
  | .peerAdd _ => false
  | .fwLoad _ => false
  | .telemCoreMask _ => false
  | .telemJobRecords _ => false
  | .telemServiceUnits _ => false
  | .telemErrorLog _ => false
  | .resetPartition _ => false
  | .resetDevice _ => false
  | .powerOnReset => false
  | .bootRomLoad _ => false
  | .mctpAddressList _ => false
  | .taskUnitRequestDone _ => false
  | .longLatencyCompletion _ => false
  | .jtagInjCtlWrite _ => false

end Sys2Proof
end

