-- ==== Sys2Proof/Decode.lean ====
section
/-! DEFINITION. The instruction word: decoder and encoder (R161 to R186 and the encoding tables of R188, R210,
R231, R232, R256, R280 and R313). -/

namespace Sys2Proof

/-! ### Fields -/

/-- Bits [lo + len − 1 : lo] of a word. -/
abbrev fld (w : Word) (lo len : Nat) : BitVec len := w.extractLsb' lo len

/-- Bit k of a word. -/
abbrev bitF (w : Word) (k : Nat) : Bool := w.getLsbD k

/-- OP (R161). -/
abbrev opF (w : Word) : BitVec 8 := fld w 56 8
/-- D of formats R, I, L and M (R164). -/
abbrev dF (w : Word) : BitVec 9 := fld w 47 9
/-- A of formats R and I. -/
abbrev aF (w : Word) : BitVec 9 := fld w 38 9
/-- B of format R. -/
abbrev bF (w : Word) : BitVec 9 := fld w 29 9
/-- C of format R. -/
abbrev cF (w : Word) : BitVec 9 := fld w 20 9
/-- IMM18 of formats I and E (R165, R171). -/
abbrev immF (w : Word) : BitVec 18 := fld w 20 18
/-- RM (R162). -/
abbrev rmF (w : Word) : BitVec 2 := fld w 0 2

/-- The common tail (R162). -/
def tailF (w : Word) : Tail where
  gn  := bitF w 19
  gp  := fld w 16 3
  sba := fld w 13 3
  sbw := fld w 6 7
  gap := fld w 3 3
  yld := bitF w 2

/-- The tail of format L, which has no SBA (R166). -/
def tailLF (w : Word) : Tail where
  gn  := bitF w 14
  gp  := fld w 11 3
  sba := 0
  sbw := fld w 4 7
  gap := fld w 1 3
  yld := bitF w 0

/-! ### Specifiers -/

/-- The special of an index 48 to 57 (R173). -/
def decSpecial (i : BitVec 7) : Option Special :=
  match i.toNat with
  | 48 => some .lane
  | 49 => some .tk
  | 50 => some .gang
  | 51 => some .octant
  | 52 => some .core
  | 53 => some .grove
  | 54 => some .clk
  | 55 => some .clkh
  | 56 => some .slot
  | 57 => some .mask
  | _ => none

/-- The index of a special (R173). -/
def encSpecial : Special → BitVec 7
  | .lane => 48
  | .tk => 49
  | .gang => 50
  | .octant => 51
  | .core => 52
  | .grove => 53
  | .clk => 54
  | .clkh => 55
  | .slot => 56
  | .mask => 57

/-- A source specifier (R172, R173). -/
def decSrc (s : BitVec 9) : Option Src :=
  let lvl := s.extractLsb' 7 2
  if lvl == 0 then
    if s.extractLsb' 4 3 == 0 then some (.q (s.extractLsb' 0 4)) else none
  else if lvl == 1 then
    if s.getLsbD 5 then none else some (.n (s.extractLsb' 0 5) (s.getLsbD 6))
  else if lvl == 2 then some (.g (s.extractLsb' 0 6) (s.getLsbD 6))
  else if s.extractLsb' 5 2 == 0 then some (.const (s.extractLsb' 0 5))
  else if s.extractLsb' 3 4 == 4 then some (.fifo (s.extractLsb' 0 2) (s.getLsbD 2))
  else if s.extractLsb' 3 4 == 5 then some (.wq (s.extractLsb' 0 2) (s.getLsbD 2))
  else (decSpecial (s.extractLsb' 0 7)).map .special

/-- The specifier of a source. -/
def encSrc : Src → BitVec 9
  | .q a => 0#2 ++ 0#3 ++ a
  | .n r l => 1#2 ++ BitVec.ofBool l ++ 0#1 ++ r
  | .g r h => 2#2 ++ BitVec.ofBool h ++ r
  | .const i => 3#2 ++ 0#2 ++ i
  | .fifo k nb => 3#2 ++ 4#4 ++ BitVec.ofBool nb ++ k
  | .wq k nb => 3#2 ++ 5#4 ++ BitVec.ofBool nb ++ k
  | .special x => 3#2 ++ encSpecial x

/-- A destination specifier (R176). -/
def decDst (s : BitVec 9) : Option Dst :=
  let lvl := s.extractLsb' 7 2
  if lvl == 0 then
    if s.extractLsb' 0 7 == 0 then some .push
    else if s.extractLsb' 0 7 == 1 then some .discard else none
  else if lvl == 1 then
    if s.extractLsb' 5 2 == 0 then some (.n (s.extractLsb' 0 5)) else none
  else if lvl == 2 then some (.g (s.extractLsb' 0 6) (s.getLsbD 6))
  else if s.extractLsb' 3 4 == 5 then some (.wq (s.extractLsb' 0 2) (s.getLsbD 2))
  else if s.extractLsb' 3 4 == 14 then some (.p (s.extractLsb' 0 3))
  else none

/-- The specifier of a destination. -/
def encDst : Dst → BitVec 9
  | .push => 0
  | .discard => 1
  | .n r => 1#2 ++ 0#2 ++ r
  | .g r h => 2#2 ++ BitVec.ofBool h ++ r
  | .wq k nb => 3#2 ++ 5#4 ++ BitVec.ofBool nb ++ k
  | .p r => 3#2 ++ 14#4 ++ r

/-- A predicate destination (R176). -/
def decP (s : BitVec 9) : Option (BitVec 3) :=
  if s.extractLsb' 3 6 == 62 then some (s.extractLsb' 0 3) else none

/-- The specifier of a predicate destination. -/
def encP (r : BitVec 3) : BitVec 9 := 62#6 ++ r

/-- A g register without the high half. -/
def decG (s : BitVec 9) : Option (BitVec 6) :=
  if s.extractLsb' 6 3 == 4 then some (s.extractLsb' 0 6) else none

/-- The specifier of a g register. -/
def encG (r : BitVec 6) : BitVec 9 := 4#3 ++ r

/-- A "u" operand (R226). -/
def decU (s : BitVec 9) : Option USrc :=
  if s.extractLsb' 7 2 == 2 then some (.g (s.extractLsb' 0 6) (s.getLsbD 6))
  else if s.extractLsb' 5 4 == 12 then some (.const (s.extractLsb' 0 5))
  else none

/-- The specifier of a "u" operand. -/
def encU : USrc → BitVec 9
  | .g r h => 2#2 ++ BitVec.ofBool h ++ r
  | .const i => 12#4 ++ i

/-- The memory modifier (R169). -/
def decMod (s : BitVec 9) : MemMod where
  sx    := s.getLsbD 8
  scope := s.extractLsb' 5 3
  kind  := s.extractLsb' 3 2
  size  := s.extractLsb' 0 3

/-- The bits of a memory modifier. -/
def encMod (m : MemMod) : BitVec 9 := BitVec.ofBool m.sx ++ m.scope ++ m.kind ++ m.size

/-- The fields of ATOM beside the operation (R179, R239). -/
def atomF (w : Word) : AtomMod where
  sp    := bitF w 57
  w64   := bitF w 56
  kind  := rmF w
  treg  := fld w 23 3
  scope := fld w 26 3

/-- The opcode of ATOM (R185). -/
def encAtomOp (m : AtomMod) : BitVec 8 := 32#6 ++ BitVec.ofBool m.sp ++ BitVec.ofBool m.w64

/-! ### Words from fields -/

/-- Two RM bits. -/
def bits2 (hi lo : Bool) : BitVec 2 := BitVec.ofBool hi ++ BitVec.ofBool lo

/-- The common tail with RM (R162). -/
def encTail (t : Tail) (rm : BitVec 2) : BitVec 20 :=
  BitVec.ofBool t.gn ++ t.gp ++ t.sba ++ t.sbw ++ t.gap ++ BitVec.ofBool t.yld ++ rm

/-- Format R (R164). -/
def packR (op : BitVec 8) (d a b c : BitVec 9) (t : Tail) (rm : BitVec 2) : Word :=
  op ++ d ++ a ++ b ++ c ++ encTail t rm

/-- Format I (R165). -/
def packI (op : BitVec 8) (d a : BitVec 9) (imm : BitVec 18) (t : Tail) (rm : BitVec 2) : Word :=
  op ++ d ++ a ++ imm ++ encTail t rm

/-- Format L (R166). -/
def packL (op : BitVec 8) (d : BitVec 9) (imm : BitVec 32) (t : Tail) : Word :=
  op ++ d ++ imm ++ BitVec.ofBool t.gn ++ t.gp ++ t.sbw ++ t.gap ++ BitVec.ofBool t.yld

/-- Format X (R167). -/
def packX (op : BitVec 8) (bt jb : BitVec 3) (off : BitVec 30) (t : Tail) (rm : BitVec 2) : Word :=
  op ++ bt ++ jb ++ off ++ encTail t rm

/-- Format M (R168). -/
def packM (op : BitVec 8) (d : BitVec 9) (tr : BitVec 3) (a b : BitVec 9) (off : BitVec 6) (t : Tail) : Word :=
  op ++ d ++ tr ++ a ++ b ++ off ++ encTail t 0

/-- Format T (R170). -/
def packT (op : BitVec 8) (td ta tb : BitVec 6) (xa xb : BitVec 1) (imm : BitVec 16) (t : Tail) : Word :=
  op ++ td ++ ta ++ tb ++ xa ++ xb ++ imm ++ encTail t 0

/-- Format E (R171). -/
def packE (op : BitVec 8) (p q : BitVec 6) (sg ab : BitVec 3) (imm : BitVec 18) (t : Tail) : Word :=
  op ++ p ++ q ++ sg ++ ab ++ imm ++ encTail t 0

/-- An R/I opcode: format R with a B specifier, or format I (R165). -/
def packRI (op : BitVec 8) (d : Dst) (a : Src) (b : SrcI) (t : Tail) (u : Bool) : Word :=
  match b with
  | .src s => packR op (encDst d) (encSrc a) (encSrc s) 0 t (bits2 u false)
  | .imm v => packI op (encDst d) (encSrc a) v t (bits2 u true)

/-! ### The shapes of the encoding tables -/

/-- No operand: D, A, B, C and RM are 0. -/
def armT (w : Word) (k : Tail → Instr) : Option Instr :=
  if dF w == 0 && aF w == 0 && bF w == 0 && cF w == 0 && rmF w == 0 then some (k (tailF w)) else none

/-- An 8-bit mask in D. -/
def armMask (w : Word) (k : Tail → BitVec 8 → Instr) : Option Instr :=
  if !bitF w 55 && aF w == 0 && bF w == 0 && cF w == 0 && rmF w == 0 then some (k (tailF w) (fld w 47 8)) else none

/-- A destination only. -/
def armD (w : Word) (k : Tail → Dst → Instr) : Option Instr :=
  if aF w == 0 && bF w == 0 && cF w == 0 && rmF w == 0 then do
    let d ← decDst (dF w)
    some (k (tailF w) d)
  else none

/-- One "u" operand in A. -/
def armU (w : Word) (k : Tail → USrc → Instr) : Option Instr :=
  if dF w == 0 && bF w == 0 && cF w == 0 && rmF w == 0 then do
    let a ← decU (aF w)
    some (k (tailF w) a)
  else none

/-- Two "u" operands. -/
def armUU (w : Word) (k : Tail → USrc → USrc → Instr) : Option Instr :=
  if dF w == 0 && cF w == 0 && rmF w == 0 then do
    let a ← decU (aF w)
    let b ← decU (bF w)
    some (k (tailF w) a b)
  else none

/-- Three "u" operands. -/
def armUUU (w : Word) (k : Tail → USrc → USrc → USrc → Instr) : Option Instr :=
  if dF w == 0 && rmF w == 0 then do
    let a ← decU (aF w)
    let b ← decU (bF w)
    let c ← decU (cF w)
    some (k (tailF w) a b c)
  else none

/-- A destination and a "u" operand. -/
def armDU (w : Word) (k : Tail → Dst → USrc → Instr) : Option Instr :=
  if bF w == 0 && cF w == 0 && rmF w == 0 then do
    let d ← decDst (dF w)
    let a ← decU (aF w)
    some (k (tailF w) d a)
  else none

/-- One source. -/
def arm1 (w : Word) (k : Tail → Dst → Src → Instr) : Option Instr :=
  if bF w == 0 && cF w == 0 && rmF w == 0 then do
    let d ← decDst (dF w)
    let a ← decSrc (aF w)
    some (k (tailF w) d a)
  else none

/-- Two sources. -/
def arm2 (w : Word) (k : Tail → Dst → Src → Src → Instr) : Option Instr :=
  if cF w == 0 && rmF w == 0 then do
    let d ← decDst (dF w)
    let a ← decSrc (aF w)
    let b ← decSrc (bF w)
    some (k (tailF w) d a b)
  else none

/-- Three sources. -/
def arm3 (w : Word) (k : Tail → Dst → Src → Src → Src → Instr) : Option Instr :=
  if rmF w == 0 then do
    let d ← decDst (dF w)
    let a ← decSrc (aF w)
    let b ← decSrc (bF w)
    let c ← decSrc (cF w)
    some (k (tailF w) d a b c)
  else none

/-- Three sources and a rounding mode. -/
def arm3rm (w : Word) (k : Tail → BitVec 2 → Dst → Src → Src → Src → Instr) : Option Instr := do
  let d ← decDst (dF w)
  let a ← decSrc (aF w)
  let b ← decSrc (bF w)
  let c ← decSrc (cF w)
  some (k (tailF w) (rmF w) d a b c)

/-- Two sources, a rounding mode and the dyn bit (R210). -/
def armDyn (w : Word) (k : Tail → BitVec 2 → Bool → Dst → Src → Src → Instr) : Option Instr :=
  if fld w 21 8 == 0 then do
    let d ← decDst (dF w)
    let a ← decSrc (aF w)
    let b ← decSrc (bF w)
    some (k (tailF w) (rmF w) (bitF w 20) d a b)
  else none

/-- The second operand of an R/I opcode (R165). -/
def decSrcI (w : Word) : Option SrcI :=
  if bitF w 0 then some (.imm (immF w))
  else if cF w == 0 then (decSrc (bF w)).map .src else none

/-- An R/I opcode with the unsigned bit (R178). -/
def armRIU (w : Word) (k : Tail → Bool → Dst → Src → SrcI → Instr) : Option Instr := do
  let d ← decDst (dF w)
  let a ← decSrc (aF w)
  let b ← decSrcI w
  some (k (tailF w) (bitF w 1) d a b)

/-- An R/I opcode without the unsigned bit. -/
def armRI (w : Word) (k : Tail → Dst → Src → SrcI → Instr) : Option Instr :=
  if bitF w 1 then none else do
    let d ← decDst (dF w)
    let a ← decSrc (aF w)
    let b ← decSrcI w
    some (k (tailF w) d a b)

/-- The amount of SHFL with its must-be-0 bits (R188). -/
def decAmt (w : Word) : Option ShflAmt :=
  if bitF w 0 then (if fld w 30 8 == 0 then some (.imm (fld w 25 5)) else none)
  else if fld w 25 4 == 0 then (decSrc (bF w)).map .src else none

/-- ATOM and RED: the opcode gives space and width, C the operation (R239). -/
def armAtom (w : Word) : Option Instr :=
  do let a ← decSrc (aF w); let b ← decSrc (bF w); if dF w == 1 then some (.red (tailF w) (atomF w) (fld w 20 3) a b) else do let d ← decDst (dF w); some (match (fld w 20 3).toNat with
    | 0 => .atomAdd (tailF w) (atomF w) d a b
    | 1 => .atomMin (tailF w) (atomF w) d a b
    | 2 => .atomMax (tailF w) (atomF w) d a b
    | 3 => .atomAnd (tailF w) (atomF w) d a b
    | 4 => .atomOr (tailF w) (atomF w) d a b
    | 5 => .atomXor (tailF w) (atomF w) d a b
    | 6 => .atomXchg (tailF w) (atomF w) d a b
    | _ => .atomCas (tailF w) (atomF w) d a b)

/-- The opcodes 0x00 to 0x0f (R188). -/
def decControl (w : Word) : Option Instr :=
  match (opF w).toNat with
  | 0x00 => armT w .nop
  | 0x01 => armT w .exit
  | 0x02 => if fld w 50 3 == 0 && rmF w == 0 then some (.pbt (tailF w) (fld w 53 3) (fld w 20 30)) else none
  | 0x03 => if fld w 50 6 == 0 && bF w == 0 && cF w == 0 && rmF w == 0 then do let g ← decG (aF w); some (.pbtr (tailF w) (fld w 47 3) g) else none
  | 0x04 => if fld w 20 30 == 0 then some (.xfer (tailF w) (fld w 53 3) (fld w 50 3) (bitF w 1) (bitF w 0)) else none
  | 0x05 => armMask w .btinv
  | 0x06 => if fld w 50 6 == 0 && fld w 41 6 == 0 && bF w == 0 && cF w == 0 && rmF w == 0 then some (.btmov (tailF w) (fld w 47 3) (fld w 38 3)) else none
  | 0x07 => if dF w == 0 && cF w == 0 && rmF w == 0 then do let a ← decG (aF w); let b ← decG (bF w); some (.icinv (tailF w) a b) else none
  | 0x08 => if dF w == 0 && !bitF w 1 then (if bitF w 0 then do let g ← decG (aF w); some (.yield (tailF w) (.barrier g) (immF w)) else if aF w == 0 then some (.yield (tailF w) .none (immF w)) else none) else none
  | 0x0B => if aF w == 0 && rmF w == 0 then do let d ← decDst (dF w); some (.movi (tailF w) d (immF w)) else none
  | 0x0C => do let d ← decDst (dF w); some (.movw (tailLF w) d (fld w 15 32))
  | 0x0D => if aF w == 0 && fld w 34 4 == 0 && fld w 20 8 == 0 && rmF w == 0 && fld w 52 4 == 4 then some (.spill (tailF w) (fld w 47 5) (bitF w 33) (fld w 28 5)) else none
  | 0x0E => if aF w == 0 && fld w 33 5 == 0 && rmF w == 0 && fld w 52 4 == 4 then some (.stage (tailF w) (fld w 47 5) (fld w 28 5) (fld w 20 8)) else none
  | _ => none

/-- The opcodes 0x10 to 0x2f (R188). -/
def decInt (w : Word) : Option Instr :=
  match (opF w).toNat with
  | 0x10 => armRI w .iadd
  | 0x11 => armRI w .isub
  | 0x12 => armRI w .imul
  | 0x13 => armRIU w .imulh
  | 0x14 => arm3 w .imad
  | 0x15 => armRIU w .imin
  | 0x16 => armRIU w .imax
  | 0x17 => arm1 w .iabs
  | 0x18 => armRI w .and
  | 0x19 => armRI w .or
  | 0x1A => armRI w .xor
  | 0x1B => arm1 w .not
  | 0x1C => if fld w 24 5 == 0 && rmF w == 0 then do let p ← decP (dF w); let a ← decSrc (aF w); let b ← decSrc (bF w); some (.icmp (tailF w) (fld w 20 3) (bitF w 23) p a b) else none
  | 0x1D => if fld w 26 3 == 0 && rmF w == 0 then do let p ← decP (dF w); let a ← decSrc (aF w); let b ← decSrc (bF w); some (.fcmp (tailF w) (fld w 20 3) (fld w 23 2) (bitF w 25) p a b) else none
  | 0x1E => if fld w 42 5 == 0 && fld w 33 5 == 0 && fld w 24 5 == 0 && rmF w == 0 then do let p ← decP (dF w); some (.plog (tailF w) (fld w 20 4) p (bitF w 41) (fld w 38 3) (bitF w 32) (fld w 29 3)) else none
  | 0x1F => if bF w == 0 && fld w 21 8 == 0 && rmF w == 0 then (if bitF w 20 then (if dF w == 1 then do let a ← decSrc (aF w); some (.pmovW (tailF w) a) else none) else if aF w == 0 then do let d ← decDst (dF w); some (.pmovR (tailF w) d) else none) else none
  | 0x20 => armRI w .shl
  | 0x21 => armRI w .shr
  | 0x22 => armRI w .sar
  | 0x23 => armRI w .rot
  | 0x24 => if bF w == 0 && !bitF w 0 then do let d ← decDst (dF w); let a ← decSrc (aF w); let c ← decSrc (cF w); some (.bfx (tailF w) (bitF w 1) d a c) else none
  | 0x25 => arm3 w .bfi
  | 0x26 => arm1 w .popc
  | 0x27 => arm1 w .clz
  | 0x28 => arm1 w .brev
  | 0x29 => arm3 w .sel
  | 0x2A => arm1 w .mov
  | 0x2B => if bitF w 1 then none else do let d ← decDst (dF w); let a ← decSrc (aF w); if bitF w 0 then some (.lea (tailF w) d a (.imm (immF w))) else do let b ← decSrc (bF w); let c ← decSrc (cF w); some (.lea (tailF w) d a (.src b c))
  | 0x2C => if fld w 42 5 == 0 && bF w == 0 && fld w 23 6 == 0 && rmF w == 0 then (match (fld w 20 3).toNat with
    | 0 => do let p ← decP (dF w); some (.voteAnd (tailF w) p (bitF w 41) (fld w 38 3))
    | 1 => do let p ← decP (dF w); some (.voteOr (tailF w) p (bitF w 41) (fld w 38 3))
    | 2 => do let p ← decP (dF w); some (.votePar (tailF w) p (bitF w 41) (fld w 38 3))
    | 3 => do let d ← decDst (dF w); some (.voteMask (tailF w) d (bitF w 41) (fld w 38 3))
    | 4 => do let d ← decDst (dF w); some (.voteCnt (tailF w) d (bitF w 41) (fld w 38 3))
    | 5 => do let d ← decDst (dF w); some (.voteLead (tailF w) d (bitF w 41) (fld w 38 3))
    | _ => none) else none
  | 0x2D => do let d ← decDst (dF w); let a ← decSrc (aF w); let v ← decAmt w; some (match (fld w 20 2).toNat with
    | 0 => .shflSel (tailF w) (bitF w 1) d a v (fld w 22 3)
    | 1 => .shflRot (tailF w) (bitF w 1) d a v (fld w 22 3)
    | 2 => .shflRev (tailF w) (bitF w 1) d a v (fld w 22 3)
    | _ => .shflXor (tailF w) (bitF w 1) d a v (fld w 22 3))
  | 0x2E => if cF w == 0 && rmF w == 0 then do let d ← decDst (dF w); let a ← decSrc (aF w); let b ← decU (bF w); some (.bcast (tailF w) d a b) else none
  | _ => none

/-- The opcodes 0x30 to 0x5f (R210). -/
def decFp (w : Word) : Option Instr :=
  match (opF w).toNat with
  | 0x30 => armDyn w .faddF32
  | 0x31 => armDyn w .fsubF32
  | 0x32 => armDyn w .fmulF32
  | 0x33 => arm3rm w .ffmaF32
  | 0x34 => arm2 w .fminF32
  | 0x35 => arm2 w .fmaxF32
  | 0x36 => if bF w == 0 && fld w 23 6 == 0 then do let d ← decDst (dF w); let a ← decSrc (aF w); (match (fld w 20 3).toNat with
    | 0 => some (.frcpF32 (tailF w) (rmF w) d a)
    | 1 => some (.frsqF32 (tailF w) (rmF w) d a)
    | 2 => some (.fsqrtF32 (tailF w) (rmF w) d a)
    | 3 => some (.fexp2F32 (tailF w) (rmF w) d a)
    | 4 => some (.flog2F32 (tailF w) (rmF w) d a)
    | 5 => some (.fsinF32 (tailF w) (rmF w) d a)
    | 6 => some (.fcosF32 (tailF w) (rmF w) d a)
    | _ => none) else none
  | 0x37 => arm1 w .fclassF32
  | 0x3E => armD w .flagsRd
  | 0x3F => if dF w == 0 && aF w == 0 && bF w == 0 && fld w 25 4 == 0 && rmF w == 0 then some (.flagsClr (tailF w) (fld w 20 5)) else none
  | 0x40 => armDyn w .faddF16X2
  | 0x41 => armDyn w .fsubF16X2
  | 0x42 => armDyn w .fmulF16X2
  | 0x43 => arm3rm w .ffmaF16X2
  | 0x44 => arm2 w .fminF16X2
  | 0x45 => arm2 w .fmaxF16X2
  | 0x46 => if bF w == 0 && fld w 23 6 == 0 then do let d ← decDst (dF w); let a ← decSrc (aF w); (match (fld w 20 3).toNat with
    | 0 => some (.frcpF16X2 (tailF w) (rmF w) d a)
    | 1 => some (.frsqF16X2 (tailF w) (rmF w) d a)
    | 2 => some (.fsqrtF16X2 (tailF w) (rmF w) d a)
    | 3 => some (.fexp2F16X2 (tailF w) (rmF w) d a)
    | 4 => some (.flog2F16X2 (tailF w) (rmF w) d a)
    | 5 => some (.fsinF16X2 (tailF w) (rmF w) d a)
    | 6 => some (.fcosF16X2 (tailF w) (rmF w) d a)
    | _ => none) else none
  | 0x47 => arm1 w .fclassF16X2
  | 0x48 => armDyn w .faddBF16X2
  | 0x49 => armDyn w .fsubBF16X2
  | 0x4A => armDyn w .fmulBF16X2
  | 0x4B => arm3rm w .ffmaBF16X2
  | 0x4C => arm2 w .fminBF16X2
  | 0x4D => arm2 w .fmaxBF16X2
  | 0x4E => if bF w == 0 && fld w 23 6 == 0 then do let d ← decDst (dF w); let a ← decSrc (aF w); (match (fld w 20 3).toNat with
    | 0 => some (.frcpBF16X2 (tailF w) (rmF w) d a)
    | 1 => some (.frsqBF16X2 (tailF w) (rmF w) d a)
    | 2 => some (.fsqrtBF16X2 (tailF w) (rmF w) d a)
    | 3 => some (.fexp2BF16X2 (tailF w) (rmF w) d a)
    | 4 => some (.flog2BF16X2 (tailF w) (rmF w) d a)
    | 5 => some (.fsinBF16X2 (tailF w) (rmF w) d a)
    | 6 => some (.fcosBF16X2 (tailF w) (rmF w) d a)
    | _ => none) else none
  | 0x4F => arm1 w .fclassBF16X2
  | 0x50 => armDyn w .dadd
  | 0x51 => armDyn w .dmul
  | 0x52 => arm3rm w .dfma
  | 0x53 => arm2 w .dmin
  | 0x54 => arm2 w .dmax
  | 0x58 => if bF w == 0 then do let d ← decDst (dF w); let a ← decSrc (aF w); some (.cvt (tailF w) (rmF w) (fld w 20 3) (fld w 23 3) (fld w 26 3) d a) else none
  | 0x59 => if fld w 22 7 == 0 && rmF w == 0 then do let d ← decDst (dF w); let a ← decSrc (aF w); let b ← decSrc (bF w); (match (fld w 20 2).toNat with
    | 0 => some (.pack4N4 (tailF w) d a b)
    | 1 => some (.pack4B8 (tailF w) d a b)
    | 2 => some (.pack4H16 (tailF w) d a b)
    | _ => none) else none
  | 0x5A => if bF w == 0 && fld w 23 6 == 0 && rmF w == 0 then do let d ← decDst (dF w); let a ← decSrc (aF w); (match (fld w 20 2).toNat with
    | 0 => some (.unpk4N4 (tailF w) (bitF w 22) d a)
    | 1 => some (.unpk4B8 (tailF w) (bitF w 22) d a)
    | 2 => some (.unpk4H16 (tailF w) (bitF w 22) d a)
    | _ => none) else none
  | 0x5B => if cF w == 0 then do let d ← decDst (dF w); let a ← decSrc (aF w); let b ← decSrc (bF w); some (.rngCb (tailF w) (rmF w) d a b) else none
  | 0x5C => if bF w == 0 && fld w 20 2 == 0 && rmF w == 0 then do let d ← decDst (dF w); let a ← decSrc (aF w); some (.vtopk (tailF w) (fld w 26 3) (fld w 24 2) (bitF w 23) (bitF w 22) d a) else none
  | _ => none

/-- The opcodes 0x60 to 0x8f (R231, R232). -/
def decMem (w : Word) : Option Instr :=
  match (opF w).toNat with
  | 0x60 => if rmF w == 0 then do let d ← decDst (dF w); let a ← decSrc (fld w 35 9); some (.ldg (tailF w) (decMod (fld w 26 9)) d (fld w 44 3) a (fld w 20 6)) else none
  | 0x61 => if rmF w == 0 then do let a ← decSrc (fld w 35 9); let b ← decSrc (fld w 26 9); some (.stg (tailF w) (decMod (dF w)) (fld w 44 3) a b (fld w 20 6)) else none
  | 0x62 => if rmF w == 0 && fld w 44 3 == 0 then do let d ← decDst (dF w); let a ← decSrc (fld w 35 9); some (.ldp (tailF w) (decMod (fld w 26 9)) d a (fld w 20 6)) else none
  | 0x63 => if rmF w == 0 && fld w 44 3 == 0 then do let a ← decSrc (fld w 35 9); let b ← decSrc (fld w 26 9); some (.stp (tailF w) (decMod (dF w)) a b (fld w 20 6)) else none
  | 0x64 => if rmF w == 0 && fld w 47 3 == 0 then do let a ← decSrc (fld w 35 9); let b ← decSrc (fld w 26 9); some (.stN4 (tailF w) ⟨bitF w 55, fld w 52 3, fld w 50 2⟩ (fld w 44 3) a b (fld w 20 6)) else none
  | 0x65 => if rmF w == 0 && fld w 48 8 == 0 && fld w 26 9 == 0 then do let a ← decSrc (fld w 35 9); some (.pref (tailF w) (bitF w 47) (fld w 44 3) a (fld w 20 6)) else none
  | 0x66 => if fld w 50 6 == 0 && bF w == 0 && cF w == 0 && rmF w == 0 then do let g ← decG (aF w); some (.tbind (tailF w) (fld w 47 3) g) else none
  | 0x67 => armMask w .tinv
  | 0x68 => arm1 w .ptag
  | 0x69 => arm1 w .ptset
  | 0x6A => arm1 w .ptinv
  | 0x6B => armUUU w .rbind
  | 0x80 => armAtom w
  | 0x81 => armAtom w
  | 0x82 => armAtom w
  | 0x83 => armAtom w
  | 0x84 => if dF w == 0 && aF w == 0 && bF w == 0 && fld w 24 5 == 0 && rmF w == 0 then some (if bitF w 23 then .fenceSc (tailF w) (fld w 20 3) else .fence (tailF w) (fld w 20 3)) else none
  | 0x85 => if dF w == 0 && aF w == 0 && bF w == 0 && fld w 22 7 == 0 && rmF w == 0 then (match (fld w 20 2).toNat with
    | 1 => some (.pfenceSp (tailF w))
    | 2 => some (.pfenceGl (tailF w))
    | 3 => some (.pfenceAll (tailF w))
    | _ => none) else none
  | 0x86 => armDU w .acqE
  | 0x87 => armU w .relE
  | 0x88 => armT w .barg
  | 0x89 => armUUU w .abinit
  | 0x8A => armUU w .abexp
  | 0x8B => armUU w .abarr
  | 0x8C => armUU w .abwait
  | 0x8D => if rmF w == 0 && dF w == 0 then do let a ← decSrc (fld w 35 9); let b ← decSrc (fld w 26 9); some (.subl (tailF w) (fld w 44 3) a b (fld w 20 6)) else none
  | 0x8E => if dF w == 0 && bF w == 0 && cF w == 0 && rmF w == 0 then do let a ← decSrc (aF w); some (.unsub (tailF w) a) else none
  | 0x8F => arm2 w .slwait
  | _ => none

/-- The opcodes 0x90 to 0x9f (R232, R280). -/
def decTask (w : Word) : Option Instr :=
  match (opF w).toNat with
  | 0x90 => if rmF w == 0 then do let d ← decDst (dF w); let a ← decU (aF w); let b ← decU (bF w); let c ← decU (cF w); some (.spawn (tailF w) d a b c) else none
  | 0x91 => armUU w .tdep
  | 0x92 => armUU w .tsig
  | 0x93 => armU w .tend
  | 0x94 => armUUU w .migr
  | 0x95 => if dF w == 0 && fld w 22 7 == 0 && rmF w == 0 then do let a ← decU (aF w); let b ← decU (bF w); some (.fset (tailF w) (bitF w 21) (bitF w 20) a b) else none
  | 0x96 => if bF w == 0 && fld w 22 7 == 0 && rmF w == 0 then do let d ← decDst (dF w); let a ← decU (aF w); some (.fget (tailF w) (bitF w 21) (bitF w 20) d a) else none
  | 0x97 => if fld w 49 7 == 0 && cF w == 0 && rmF w == 0 then do let a ← decU (aF w); let b ← decU (bF w); some (.qcfg (tailF w) (fld w 47 2) a b) else none
  | _ => none

/-- The opcodes 0xa0 to 0xaf (R256). -/
def decTile (w : Word) : Option Instr :=
  match (opF w).toNat with
  | 0xA0 => if fld w 52 4 == 0 && bF w == 0 && cF w == 0 && rmF w == 0 then do let a ← decU (aF w); some (.xshape (tailF w) (fld w 47 5) a) else none
  | 0xA1 => if fld w 55 1 == 0 && fld w 44 6 == 0 && fld w 38 6 == 0 && fld w 36 2 == 0 && fld w 20 10 == 0 && rmF w == 0 then some (.xld (tailF w) (fld w 50 5) (fld w 30 6)) else none
  | 0xA2 => if fld w 49 1 == 0 && fld w 50 6 == 0 && fld w 38 6 == 0 && fld w 36 2 == 0 && fld w 20 10 == 0 && rmF w == 0 then some (.xst (tailF w) (fld w 44 5) (fld w 30 6)) else none
  | 0xA3 => if fld w 55 1 == 0 && fld w 44 6 == 0 && fld w 38 6 == 0 && fld w 36 2 == 0 && fld w 20 16 == 0 && rmF w == 0 then some (.xzero (tailF w) (fld w 50 5)) else none
  | 0xA4 => if fld w 55 1 == 0 && fld w 49 1 == 0 && fld w 38 6 == 0 && !bitF w 36 && fld w 20 16 == 0 && rmF w == 0 then some (.xmov (tailF w) (fld w 50 5) (fld w 44 5) (bitF w 37)) else none
  | 0xA5 => if fld w 54 2 == 2 && fld w 44 6 == 0 && fld w 38 6 == 0 && fld w 36 2 == 0 && fld w 20 16 == 0 && rmF w == 0 then some (.yzero (tailF w) (fld w 50 4)) else none
  | 0xA6 => if fld w 54 2 == 2 && fld w 44 6 == 0 && fld w 38 6 == 0 && fld w 36 2 == 0 && fld w 21 9 == 0 && rmF w == 0 then some (.yld (tailF w) (fld w 50 4) (fld w 30 6) (bitF w 20)) else none
  | 0xA7 => if fld w 48 2 == 2 && fld w 50 6 == 0 && fld w 38 6 == 0 && fld w 36 2 == 0 && fld w 21 9 == 0 && rmF w == 0 then some (.yst (tailF w) (fld w 44 4) (fld w 30 6) (bitF w 20)) else none
  | 0xA8 => if fld w 54 2 == 2 && fld w 49 1 == 0 && fld w 43 1 == 0 && fld w 20 13 == 0 && rmF w == 0 then some (.mma (tailF w) (fld w 33 3) (fld w 50 4) (fld w 44 5) (fld w 38 5) (bitF w 37) (bitF w 36)) else none
  | 0xA9 => if fld w 20 7 == 0 && rmF w == 0 then some (.mloop (tailF w) ⟨fld w 50 6, fld w 38 3⟩ ⟨fld w 44 6, fld w 41 3, fld w 34 4, fld w 32 2, fld w 29 3, bitF w 28, bitF w 27⟩) else none
  | 0xAA => if fld w 54 2 == 2 && fld w 48 2 == 2 && fld w 43 1 == 0 && fld w 36 2 == 0 && fld w 21 15 == 0 && rmF w == 0 then some (.ycvt (tailF w) (fld w 50 4) (fld w 44 4) (fld w 38 5) (bitF w 20)) else none
  | 0xAB => if fld w 54 2 == 2 && fld w 48 2 == 2 && fld w 43 1 == 0 && fld w 36 2 == 0 && fld w 21 15 == 0 && rmF w == 0 then some (.ysca (tailF w) (fld w 50 4) (fld w 44 4) (fld w 38 5) (bitF w 20)) else none
  | 0xAC => if fld w 54 2 == 2 && fld w 48 2 == 2 && fld w 38 6 == 0 && fld w 36 2 == 0 && fld w 21 15 == 0 && rmF w == 0 then some (.yred (tailF w) (fld w 50 4) (fld w 44 4) (bitF w 20)) else none
  | 0xAD => if fld w 48 2 == 2 && fld w 50 6 == 0 && fld w 38 6 == 0 && fld w 36 2 == 0 && fld w 20 16 == 0 && rmF w == 0 then some (.mwait (tailF w) (fld w 44 4)) else none
  | 0xAE => if fld w 48 2 == 2 && fld w 50 6 == 0 && fld w 38 6 == 0 && fld w 36 2 == 0 && !bitF w 29 && rmF w == 0 then (if bitF w 35 then (if fld w 20 9 == 0 then some (.yevtClr (tailF w) (fld w 44 4) (fld w 30 5)) else none) else if fld w 30 5 == 0 then do let d ← decDst (fld w 20 9); some (.yevtRd (tailF w) d (fld w 44 4)) else none) else none
  | 0xAF => armU w .leave
  | _ => none

/-- The opcodes 0xc0 to 0xcf (R280). -/
def decStream (w : Word) : Option Instr :=
  match (opF w).toNat with
  | 0xC0 => if fld w 49 7 == 0 && rmF w == 0 then do let a ← decU (aF w); let b ← decU (bF w); let c ← decU (cF w); some (.sdef (tailF w) (fld w 47 2) a b c) else none
  | 0xC1 => if fld w 49 7 == 0 && bF w == 0 && cF w == 0 && rmF w == 0 then do let a ← decU (aF w); some (.sstart (tailF w) (fld w 47 2) a) else none
  | 0xC2 => if fld w 40 7 == 0 && bF w == 0 && cF w == 0 && rmF w == 0 then do let d ← decDst (dF w); some (.sstop (tailF w) d (fld w 38 2)) else none
  | 0xC3 => if bitF w 1 then none else do let d ← decDst (dF w); let a ← decSrc (aF w); let b ← decSrc (bF w); let g ← decG (cF w); some (.isect (tailF w) (bitF w 0) d a b g)
  | 0xC4 => if fld w 44 6 == 0 && fld w 41 3 == 0 && fld w 21 17 == 0 && rmF w == 0 then some (.mrgk (tailF w) ⟨fld w 50 6, fld w 38 3⟩ (bitF w 20)) else none
  | _ => none

/-- The opcodes 0xd0 to 0xdf (R280). -/
def decIsland (w : Word) : Option Instr :=
  match (opF w).toNat with
  | 0xD0 => if bF w == 0 && fld w 21 8 == 0 && rmF w == 0 then do let a ← decU (aF w); (if bitF w 20 then (if dF w == 0 then some (.isceneDel (tailF w) a) else none) else do let d ← decDst (dF w); some (.iscene (tailF w) d a)) else none
  | 0xD1 => if dF w == 0 && rmF w == 0 then do let a ← decSrc (aF w); let b ← decSrc (bF w); let c ← decSrc (cF w); some (.icon (tailF w) a b c) else none
  | 0xD2 => if dF w == 0 && !bitF w 1 then do let a ← decSrc (aF w); let b ← decSrc (bF w); let c ← decSrc (cF w); some (if bitF w 0 then .ijntDel (tailF w) a b c else .ijnt (tailF w) a b c) else none
  | 0xD3 => armUU w .istep
  | 0xD4 => armD w .ipoll
  | 0xD5 => armD w .igrow
  | 0xD6 => armT w .irest
  | 0xD7 => if bF w == 0 && fld w 23 6 == 0 && rmF w == 0 then do let d ← decDst (dF w); let a ← decSrc (aF w); some (.iinfo (tailF w) (fld w 20 3) d a) else none
  | _ => none

/-- The opcodes 0xe0 to 0xef (R280). -/
def decEngine (w : Word) : Option Instr :=
  match (opF w).toNat with
  | 0xE0 => if fld w 44 6 == 0 && fld w 41 3 == 0 && immF w == 0 && rmF w == 0 then some (.cpyt (tailF w) ⟨fld w 50 6, fld w 38 3⟩) else none
  | 0xE1 => if fld w 44 6 == 0 && fld w 41 3 == 0 && immF w == 0 && rmF w == 0 then some (.shuf (tailF w) ⟨fld w 50 6, fld w 38 3⟩) else none
  | 0xE2 => if dF w == 0 && fld w 24 5 == 0 && rmF w == 0 then do let a ← decU (aF w); let b ← decU (bF w); some (.rtset (tailF w) (fld w 20 4) a b) else none
  | 0xE3 => if aF w == 0 && bF w == 0 && fld w 24 5 == 0 && rmF w == 0 then do let d ← decDst (dF w); some (.rtstate (tailF w) (fld w 20 4) d) else none
  | 0xE4 => if dF w == 0 && aF w == 0 && bF w == 0 && fld w 24 5 == 0 && rmF w == 0 then some (.rtdrop (tailF w) (fld w 20 4)) else none
  | _ => none

/-- The opcodes 0xf0 to 0xff (R313). -/
def decSystem (w : Word) : Option Instr :=
  match (opF w).toNat with
  | 0xF0 => if dF w == 0 && aF w == 0 && fld w 36 2 == 0 && rmF w == 0 then some (.trap (tailF w) (fld w 20 16)) else none
  | 0xF1 => if dF w == 0 && aF w == 0 && bF w == 0 && cF w == 0 && !bitF w 1 then some (if bitF w 0 then .sretSkip (tailF w) else .sret (tailF w)) else none
  | 0xF2 => if aF w == 0 && fld w 32 6 == 0 && rmF w == 0 then do let d ← decDst (dF w); some (.rdsr (tailF w) d (fld w 20 12)) else none
  | 0xF3 => if dF w == 0 && fld w 32 6 == 0 && rmF w == 0 then do let a ← decU (aF w); some (.wrsr (tailF w) (fld w 20 12) a) else none
  | 0xF4 => if rmF w == 0 then do let d ← decDst (dF w); let a ← decU (aF w); let b ← decU (bF w); let c ← decU (cF w); some (.ckpt (tailF w) d a b c) else none
  | 0xF5 => armUUU w .errinj
  | 0xF6 => armUU w .swapf
  | 0xF7 => armU w .halt
  | _ => none

/-- The opcodes that the map assigns (R185). -/
def assigned (op : Nat) : Bool :=
  decide (op ≤ 0x08) || (decide (0x0B ≤ op) && decide (op ≤ 0x0E)) || (decide (0x10 ≤ op) && decide (op ≤ 0x2E)) ||
  (decide (0x30 ≤ op) && decide (op ≤ 0x37)) || (decide (0x3E ≤ op) && decide (op ≤ 0x54)) ||
  (decide (0x58 ≤ op) && decide (op ≤ 0x5C)) || (decide (0x60 ≤ op) && decide (op ≤ 0x6B)) ||
  (decide (0x80 ≤ op) && decide (op ≤ 0x97)) || (decide (0xA0 ≤ op) && decide (op ≤ 0xAF)) ||
  (decide (0xC0 ≤ op) && decide (op ≤ 0xC4)) || (decide (0xD0 ≤ op) && decide (op ≤ 0xD7)) ||
  (decide (0xE0 ≤ op) && decide (op ≤ 0xE4)) || (decide (0xF0 ≤ op) && decide (op ≤ 0xF7))

/-- The fields of a word as a term, without the checks of the operand rules; none where the opcode is not
assigned or a field holds a reserved or must-be-0 value (R180). -/
def rawDecode (w : Word) : Option Instr :=
  let op := (opF w).toNat
  if op ≤ 0x0F then decControl w
  else if op ≤ 0x2F then decInt w
  else if op ≤ 0x5F then decFp w
  else if op ≤ 0x8F then decMem w
  else if op ≤ 0x9F then decTask w
  else if op ≤ 0xAF then decTile w
  else if op ≤ 0xCF then decStream w
  else if op ≤ 0xDF then decIsland w
  else if op ≤ 0xEF then decEngine w
  else if op ≤ 0xFF then decSystem w
  else none

/-- Why a word is not an instruction. -/
inductive Reject where
  /-- fewer than eight bytes -/
  | short
  /-- an opcode marked — in the map (R185) -/
  | unassigned
  /-- a reserved or must-be-0 field, or a reserved specifier (R180) -/
  | field
  /-- GP = 7 with GN = 1 (R163) -/
  | guardP7
  /-- an operand at a level or alignment the opcode does not accept (R180) -/
  | operand
  deriving DecidableEq, Repr, Inhabited

/-- The GN and GP fields of a word, which format L holds elsewhere (R162, R166). -/
def guardBad (w : Word) : Bool :=
  if opF w == 0x0C then bitF w 14 && fld w 11 3 == 7 else bitF w 19 && fld w 16 3 == 7

/-- The instruction that a word stands for (R161 to R186), or the reason it raises #ILLOP. -/
def decodeWord (w : Word) : Except Reject Instr :=
  if !assigned (opF w).toNat then .error .unassigned
  else if guardBad w then .error .guardP7
  else match rawDecode w with
    | none => .error .field
    | some i => if i.wellFormed then .ok i else .error .operand

/-- Eight bytes as a little-endian word (R161). -/
def wordOfBytes : List Byte → Option Word
  | b0 :: b1 :: b2 :: b3 :: b4 :: b5 :: b6 :: b7 :: _ => some (b7 ++ b6 ++ b5 ++ b4 ++ b3 ++ b2 ++ b1 ++ b0)
  | _ => none

/-- A word as its eight bytes, the lowest address first (R161). -/
def bytesOfWord (w : Word) : List Byte :=
  [fld w 0 8, fld w 8 8, fld w 16 8, fld w 24 8, fld w 32 8, fld w 40 8, fld w 48 8, fld w 56 8]

/-- The instruction at the front of a list of bytes and the bytes after it. -/
def decode (bs : List Byte) : Except Reject (Instr × List Byte) :=
  match wordOfBytes bs with
  | none => .error .short
  | some w => (decodeWord w).map (fun i => (i, bs.drop 8))

/-- The word of a well-formed instruction, from the same encoding tables; 0 for an operation or event, which
has no word. -/
def encode : Instr → Word
  | .nop t => packR 0x00#8 0#9 0#9 0#9 0#9 t 0#2
  | .exit t => packR 0x01#8 0#9 0#9 0#9 0#9 t 0#2
  | .pbt t n off => packX 0x02#8 n 0#3 off t 0#2
  | .pbtr t n g => packR 0x03#8 (0#6 ++ n) (encG g) 0#9 0#9 t 0#2
  | .xfer t n j l d => packX 0x04#8 n j 0#30 t (bits2 l d)
  | .btinv t m => packR 0x05#8 (0#1 ++ m) 0#9 0#9 0#9 t 0#2
  | .btmov t d s => packR 0x06#8 (0#6 ++ d) (0#6 ++ s) 0#9 0#9 t 0#2
  | .icinv t a b => packR 0x07#8 0#9 (encG a) (encG b) 0#9 t 0#2
  | .yield t .none off => packI 0x08#8 0#9 0#9 off t 0#2
  | .yield t (.barrier g) off => packI 0x08#8 0#9 (encG g) off t 1#2
  | .movi t d i => packI 0x0B#8 (encDst d) 0#9 i t 0#2
  | .movw t d i => packL 0x0C#8 (encDst d) i t
  | .spill t n rel c => packI 0x0D#8 (4#4 ++ n) 0#9 (0#4 ++ BitVec.ofBool rel ++ c ++ 0#8) t 0#2
  | .stage t n c m => packI 0x0E#8 (4#4 ++ n) 0#9 (0#5 ++ c ++ m) t 0#2
  | .iadd t d a b => packRI 0x10#8 d a b t false
  | .isub t d a b => packRI 0x11#8 d a b t false
  | .imul t d a b => packRI 0x12#8 d a b t false
  | .imulh t u d a b => packRI 0x13#8 d a b t u
  | .imad t d a b c => packR 0x14#8 (encDst d) (encSrc a) (encSrc b) (encSrc c) t 0#2
  | .imin t u d a b => packRI 0x15#8 d a b t u
  | .imax t u d a b => packRI 0x16#8 d a b t u
  | .iabs t d a => packR 0x17#8 (encDst d) (encSrc a) 0#9 0#9 t 0#2
  | .and t d a b => packRI 0x18#8 d a b t false
  | .or t d a b => packRI 0x19#8 d a b t false
  | .xor t d a b => packRI 0x1A#8 d a b t false
  | .not t d a => packR 0x1B#8 (encDst d) (encSrc a) 0#9 0#9 t 0#2
  | .icmp t c w p a b => packR 0x1C#8 (encP p) (encSrc a) (encSrc b) (0#5 ++ BitVec.ofBool w ++ c) t 0#2
  | .fcmp t c ty e p a b => packR 0x1D#8 (encP p) (encSrc a) (encSrc b) (0#3 ++ BitVec.ofBool e ++ ty ++ c) t 0#2
  | .plog t l p na pa nb pb => packR 0x1E#8 (encP p) (0#5 ++ BitVec.ofBool na ++ pa) (0#5 ++ BitVec.ofBool nb ++ pb) (0#5 ++ l) t 0#2
  | .pmovR t d => packR 0x1F#8 (encDst d) 0#9 0#9 0#9 t 0#2
  | .pmovW t a => packR 0x1F#8 1#9 (encSrc a) 0#9 1#9 t 0#2
  | .shl t d a b => packRI 0x20#8 d a b t false
  | .shr t d a b => packRI 0x21#8 d a b t false
  | .sar t d a b => packRI 0x22#8 d a b t false
  | .rot t d a b => packRI 0x23#8 d a b t false
  | .bfx t u d a c => packR 0x24#8 (encDst d) (encSrc a) 0#9 (encSrc c) t (bits2 u false)
  | .bfi t d a b c => packR 0x25#8 (encDst d) (encSrc a) (encSrc b) (encSrc c) t 0#2
  | .popc t d a => packR 0x26#8 (encDst d) (encSrc a) 0#9 0#9 t 0#2
  | .clz t d a => packR 0x27#8 (encDst d) (encSrc a) 0#9 0#9 t 0#2
  | .brev t d a => packR 0x28#8 (encDst d) (encSrc a) 0#9 0#9 t 0#2
  | .sel t d a b c => packR 0x29#8 (encDst d) (encSrc a) (encSrc b) (encSrc c) t 0#2
  | .mov t d a => packR 0x2A#8 (encDst d) (encSrc a) 0#9 0#9 t 0#2
  | .lea t d a (.src b c) => packR 0x2B#8 (encDst d) (encSrc a) (encSrc b) (encSrc c) t 0#2
  | .lea t d a (.imm v) => packI 0x2B#8 (encDst d) (encSrc a) v t 1#2
  | .voteAnd t p na pa => packR 0x2C#8 (encP p) (0#5 ++ BitVec.ofBool na ++ pa) 0#9 0#9 t 0#2
  | .voteOr t p na pa => packR 0x2C#8 (encP p) (0#5 ++ BitVec.ofBool na ++ pa) 0#9 1#9 t 0#2
  | .votePar t p na pa => packR 0x2C#8 (encP p) (0#5 ++ BitVec.ofBool na ++ pa) 0#9 2#9 t 0#2
  | .voteMask t d na pa => packR 0x2C#8 (encDst d) (0#5 ++ BitVec.ofBool na ++ pa) 0#9 3#9 t 0#2
  | .voteCnt t d na pa => packR 0x2C#8 (encDst d) (0#5 ++ BitVec.ofBool na ++ pa) 0#9 4#9 t 0#2
  | .voteLead t d na pa => packR 0x2C#8 (encDst d) (0#5 ++ BitVec.ofBool na ++ pa) 0#9 5#9 t 0#2
  | .shflSel t z d a (.src b) k => packR 0x2D#8 (encDst d) (encSrc a) (encSrc b) (0#4 ++ k ++ 0#2) t (bits2 z false)
  | .shflSel t z d a (.imm v) k => packI 0x2D#8 (encDst d) (encSrc a) (0#8 ++ v ++ k ++ 0#2) t (bits2 z true)
  | .shflRot t z d a (.src b) k => packR 0x2D#8 (encDst d) (encSrc a) (encSrc b) (0#4 ++ k ++ 1#2) t (bits2 z false)
  | .shflRot t z d a (.imm v) k => packI 0x2D#8 (encDst d) (encSrc a) (0#8 ++ v ++ k ++ 1#2) t (bits2 z true)
  | .shflRev t z d a (.src b) k => packR 0x2D#8 (encDst d) (encSrc a) (encSrc b) (0#4 ++ k ++ 2#2) t (bits2 z false)
  | .shflRev t z d a (.imm v) k => packI 0x2D#8 (encDst d) (encSrc a) (0#8 ++ v ++ k ++ 2#2) t (bits2 z true)
  | .shflXor t z d a (.src b) k => packR 0x2D#8 (encDst d) (encSrc a) (encSrc b) (0#4 ++ k ++ 3#2) t (bits2 z false)
  | .shflXor t z d a (.imm v) k => packI 0x2D#8 (encDst d) (encSrc a) (0#8 ++ v ++ k ++ 3#2) t (bits2 z true)
  | .bcast t d a b => packR 0x2E#8 (encDst d) (encSrc a) (encU b) 0#9 t 0#2
  | .faddF32 t rm dy d a b => packR 0x30#8 (encDst d) (encSrc a) (encSrc b) (0#8 ++ BitVec.ofBool dy) t rm
  | .fsubF32 t rm dy d a b => packR 0x31#8 (encDst d) (encSrc a) (encSrc b) (0#8 ++ BitVec.ofBool dy) t rm
  | .fmulF32 t rm dy d a b => packR 0x32#8 (encDst d) (encSrc a) (encSrc b) (0#8 ++ BitVec.ofBool dy) t rm
  | .ffmaF32 t rm d a b c => packR 0x33#8 (encDst d) (encSrc a) (encSrc b) (encSrc c) t rm
  | .fminF32 t d a b => packR 0x34#8 (encDst d) (encSrc a) (encSrc b) 0#9 t 0#2
  | .fmaxF32 t d a b => packR 0x35#8 (encDst d) (encSrc a) (encSrc b) 0#9 t 0#2
  | .frcpF32 t rm d a => packR 0x36#8 (encDst d) (encSrc a) 0#9 0#9 t rm
  | .frsqF32 t rm d a => packR 0x36#8 (encDst d) (encSrc a) 0#9 1#9 t rm
  | .fsqrtF32 t rm d a => packR 0x36#8 (encDst d) (encSrc a) 0#9 2#9 t rm
  | .fexp2F32 t rm d a => packR 0x36#8 (encDst d) (encSrc a) 0#9 3#9 t rm
  | .flog2F32 t rm d a => packR 0x36#8 (encDst d) (encSrc a) 0#9 4#9 t rm
  | .fsinF32 t rm d a => packR 0x36#8 (encDst d) (encSrc a) 0#9 5#9 t rm
  | .fcosF32 t rm d a => packR 0x36#8 (encDst d) (encSrc a) 0#9 6#9 t rm
  | .fclassF32 t d a => packR 0x37#8 (encDst d) (encSrc a) 0#9 0#9 t 0#2
  | .faddF16X2 t rm dy d a b => packR 0x40#8 (encDst d) (encSrc a) (encSrc b) (0#8 ++ BitVec.ofBool dy) t rm
  | .fsubF16X2 t rm dy d a b => packR 0x41#8 (encDst d) (encSrc a) (encSrc b) (0#8 ++ BitVec.ofBool dy) t rm
  | .fmulF16X2 t rm dy d a b => packR 0x42#8 (encDst d) (encSrc a) (encSrc b) (0#8 ++ BitVec.ofBool dy) t rm
  | .ffmaF16X2 t rm d a b c => packR 0x43#8 (encDst d) (encSrc a) (encSrc b) (encSrc c) t rm
  | .fminF16X2 t d a b => packR 0x44#8 (encDst d) (encSrc a) (encSrc b) 0#9 t 0#2
  | .fmaxF16X2 t d a b => packR 0x45#8 (encDst d) (encSrc a) (encSrc b) 0#9 t 0#2
  | .frcpF16X2 t rm d a => packR 0x46#8 (encDst d) (encSrc a) 0#9 0#9 t rm
  | .frsqF16X2 t rm d a => packR 0x46#8 (encDst d) (encSrc a) 0#9 1#9 t rm
  | .fsqrtF16X2 t rm d a => packR 0x46#8 (encDst d) (encSrc a) 0#9 2#9 t rm
  | .fexp2F16X2 t rm d a => packR 0x46#8 (encDst d) (encSrc a) 0#9 3#9 t rm
  | .flog2F16X2 t rm d a => packR 0x46#8 (encDst d) (encSrc a) 0#9 4#9 t rm
  | .fsinF16X2 t rm d a => packR 0x46#8 (encDst d) (encSrc a) 0#9 5#9 t rm
  | .fcosF16X2 t rm d a => packR 0x46#8 (encDst d) (encSrc a) 0#9 6#9 t rm
  | .fclassF16X2 t d a => packR 0x47#8 (encDst d) (encSrc a) 0#9 0#9 t 0#2
  | .faddBF16X2 t rm dy d a b => packR 0x48#8 (encDst d) (encSrc a) (encSrc b) (0#8 ++ BitVec.ofBool dy) t rm
  | .fsubBF16X2 t rm dy d a b => packR 0x49#8 (encDst d) (encSrc a) (encSrc b) (0#8 ++ BitVec.ofBool dy) t rm
  | .fmulBF16X2 t rm dy d a b => packR 0x4A#8 (encDst d) (encSrc a) (encSrc b) (0#8 ++ BitVec.ofBool dy) t rm
  | .ffmaBF16X2 t rm d a b c => packR 0x4B#8 (encDst d) (encSrc a) (encSrc b) (encSrc c) t rm
  | .fminBF16X2 t d a b => packR 0x4C#8 (encDst d) (encSrc a) (encSrc b) 0#9 t 0#2
  | .fmaxBF16X2 t d a b => packR 0x4D#8 (encDst d) (encSrc a) (encSrc b) 0#9 t 0#2
  | .frcpBF16X2 t rm d a => packR 0x4E#8 (encDst d) (encSrc a) 0#9 0#9 t rm
  | .frsqBF16X2 t rm d a => packR 0x4E#8 (encDst d) (encSrc a) 0#9 1#9 t rm
  | .fsqrtBF16X2 t rm d a => packR 0x4E#8 (encDst d) (encSrc a) 0#9 2#9 t rm
  | .fexp2BF16X2 t rm d a => packR 0x4E#8 (encDst d) (encSrc a) 0#9 3#9 t rm
  | .flog2BF16X2 t rm d a => packR 0x4E#8 (encDst d) (encSrc a) 0#9 4#9 t rm
  | .fsinBF16X2 t rm d a => packR 0x4E#8 (encDst d) (encSrc a) 0#9 5#9 t rm
  | .fcosBF16X2 t rm d a => packR 0x4E#8 (encDst d) (encSrc a) 0#9 6#9 t rm
  | .fclassBF16X2 t d a => packR 0x4F#8 (encDst d) (encSrc a) 0#9 0#9 t 0#2
  | .flagsRd t d => packR 0x3E#8 (encDst d) 0#9 0#9 0#9 t 0#2
  | .flagsClr t m => packR 0x3F#8 0#9 0#9 0#9 (0#4 ++ m) t 0#2
  | .dadd t rm dy d a b => packR 0x50#8 (encDst d) (encSrc a) (encSrc b) (0#8 ++ BitVec.ofBool dy) t rm
  | .dmul t rm dy d a b => packR 0x51#8 (encDst d) (encSrc a) (encSrc b) (0#8 ++ BitVec.ofBool dy) t rm
  | .dfma t rm d a b c => packR 0x52#8 (encDst d) (encSrc a) (encSrc b) (encSrc c) t rm
  | .dmin t d a b => packR 0x53#8 (encDst d) (encSrc a) (encSrc b) 0#9 t 0#2
  | .dmax t d a b => packR 0x54#8 (encDst d) (encSrc a) (encSrc b) 0#9 t 0#2
  | .cvt t rm ds sr e d a => packR 0x58#8 (encDst d) (encSrc a) 0#9 (e ++ sr ++ ds) t rm
  | .pack4N4 t d a b => packR 0x59#8 (encDst d) (encSrc a) (encSrc b) 0#9 t 0#2
  | .pack4B8 t d a b => packR 0x59#8 (encDst d) (encSrc a) (encSrc b) 1#9 t 0#2
  | .pack4H16 t d a b => packR 0x59#8 (encDst d) (encSrc a) (encSrc b) 2#9 t 0#2
  | .unpk4N4 t hi d a => packR 0x5A#8 (encDst d) (encSrc a) 0#9 (0#6 ++ BitVec.ofBool hi ++ 0#2) t 0#2
  | .unpk4B8 t hi d a => packR 0x5A#8 (encDst d) (encSrc a) 0#9 (0#6 ++ BitVec.ofBool hi ++ 1#2) t 0#2
  | .unpk4H16 t hi d a => packR 0x5A#8 (encDst d) (encSrc a) 0#9 (0#6 ++ BitVec.ofBool hi ++ 2#2) t 0#2
  | .rngCb t r d a b => packR 0x5B#8 (encDst d) (encSrc a) (encSrc b) 0#9 t r
  | .vtopk t k gw s r d a => packR 0x5C#8 (encDst d) (encSrc a) 0#9 (k ++ gw ++ BitVec.ofBool s ++ BitVec.ofBool r ++ 0#2) t 0#2
  | .ldg t md d tr a off => packM 0x60#8 (encDst d) tr (encSrc a) (encMod md) off t
  | .stg t md tr a b off => packM 0x61#8 (encMod md) tr (encSrc a) (encSrc b) off t
  | .ldp t md d a off => packM 0x62#8 (encDst d) 0#3 (encSrc a) (encMod md) off t
  | .stp t md a b off => packM 0x63#8 (encMod md) 0#3 (encSrc a) (encSrc b) off t
  | .stN4 t md tr a b off => packM 0x64#8 (BitVec.ofBool md.sp ++ md.scope ++ md.kind ++ 0#3) tr (encSrc a) (encSrc b) off t
  | .pref t far tr a off => packM 0x65#8 (0#8 ++ BitVec.ofBool far) tr (encSrc a) 0#9 off t
  | .tbind t n g => packR 0x66#8 (0#6 ++ n) (encG g) 0#9 0#9 t 0#2
  | .tinv t m => packR 0x67#8 (0#1 ++ m) 0#9 0#9 0#9 t 0#2
  | .ptag t d a => packR 0x68#8 (encDst d) (encSrc a) 0#9 0#9 t 0#2
  | .ptset t d a => packR 0x69#8 (encDst d) (encSrc a) 0#9 0#9 t 0#2
  | .ptinv t d a => packR 0x6A#8 (encDst d) (encSrc a) 0#9 0#9 t 0#2
  | .rbind t a b c => packR 0x6B#8 0#9 (encU a) (encU b) (encU c) t 0#2
  | .atomAdd t md d a b => packR (encAtomOp md) (encDst d) (encSrc a) (encSrc b) (md.scope ++ md.treg ++ 0#3) t md.kind
  | .atomMin t md d a b => packR (encAtomOp md) (encDst d) (encSrc a) (encSrc b) (md.scope ++ md.treg ++ 1#3) t md.kind
  | .atomMax t md d a b => packR (encAtomOp md) (encDst d) (encSrc a) (encSrc b) (md.scope ++ md.treg ++ 2#3) t md.kind
  | .atomAnd t md d a b => packR (encAtomOp md) (encDst d) (encSrc a) (encSrc b) (md.scope ++ md.treg ++ 3#3) t md.kind
  | .atomOr t md d a b => packR (encAtomOp md) (encDst d) (encSrc a) (encSrc b) (md.scope ++ md.treg ++ 4#3) t md.kind
  | .atomXor t md d a b => packR (encAtomOp md) (encDst d) (encSrc a) (encSrc b) (md.scope ++ md.treg ++ 5#3) t md.kind
  | .atomXchg t md d a b => packR (encAtomOp md) (encDst d) (encSrc a) (encSrc b) (md.scope ++ md.treg ++ 6#3) t md.kind
  | .atomCas t md d a b => packR (encAtomOp md) (encDst d) (encSrc a) (encSrc b) (md.scope ++ md.treg ++ 7#3) t md.kind
  | .red t md op a b => packR (encAtomOp md) 1#9 (encSrc a) (encSrc b) (md.scope ++ md.treg ++ op) t md.kind
  | .fence t s => packR 0x84#8 0#9 0#9 0#9 (0#6 ++ s) t 0#2
  | .fenceSc t s => packR 0x84#8 0#9 0#9 0#9 (1#6 ++ s) t 0#2
  | .pfenceSp t => packR 0x85#8 0#9 0#9 0#9 1#9 t 0#2
  | .pfenceGl t => packR 0x85#8 0#9 0#9 0#9 2#9 t 0#2
  | .pfenceAll t => packR 0x85#8 0#9 0#9 0#9 3#9 t 0#2
  | .acqE t d a => packR 0x86#8 (encDst d) (encU a) 0#9 0#9 t 0#2
  | .relE t a => packR 0x87#8 0#9 (encU a) 0#9 0#9 t 0#2
  | .barg t => packR 0x88#8 0#9 0#9 0#9 0#9 t 0#2
  | .abinit t a b c => packR 0x89#8 0#9 (encU a) (encU b) (encU c) t 0#2
  | .abexp t a b => packR 0x8A#8 0#9 (encU a) (encU b) 0#9 t 0#2
  | .abarr t a b => packR 0x8B#8 0#9 (encU a) (encU b) 0#9 t 0#2
  | .abwait t a b => packR 0x8C#8 0#9 (encU a) (encU b) 0#9 t 0#2
  | .subl t tr a b off => packM 0x8D#8 0#9 tr (encSrc a) (encSrc b) off t
  | .unsub t a => packR 0x8E#8 0#9 (encSrc a) 0#9 0#9 t 0#2
  | .slwait t d a b => packR 0x8F#8 (encDst d) (encSrc a) (encSrc b) 0#9 t 0#2
  | .fset t sp nb a b => packR 0x95#8 0#9 (encU a) (encU b) (0#7 ++ BitVec.ofBool sp ++ BitVec.ofBool nb) t 0#2
  | .fget t sp nb d a => packR 0x96#8 (encDst d) (encU a) 0#9 (0#7 ++ BitVec.ofBool sp ++ BitVec.ofBool nb) t 0#2
  | .qcfg t n a b => packR 0x97#8 (0#7 ++ n) (encU a) (encU b) 0#9 t 0#2
  | .xshape t x a => packR 0xA0#8 (0#4 ++ x) (encU a) 0#9 0#9 t 0#2
  | .xld t x g => packT 0xA1#8 (0#1 ++ x) 0#6 0#6 0#1 0#1 (g ++ 0#10) t
  | .xst t x g => packT 0xA2#8 0#6 (0#1 ++ x) 0#6 0#1 0#1 (g ++ 0#10) t
  | .xzero t x => packT 0xA3#8 (0#1 ++ x) 0#6 0#6 0#1 0#1 0#16 t
  | .xmov t d s tr => packT 0xA4#8 (0#1 ++ d) (0#1 ++ s) 0#6 (BitVec.ofBool tr) 0#1 0#16 t
  | .yzero t y => packT 0xA5#8 (2#2 ++ y) 0#6 0#6 0#1 0#1 0#16 t
  | .yld t y g cf => packT 0xA6#8 (2#2 ++ y) 0#6 0#6 0#1 0#1 (g ++ 0#9 ++ BitVec.ofBool cf) t
  | .yst t y g cf => packT 0xA7#8 0#6 (2#2 ++ y) 0#6 0#1 0#1 (g ++ 0#9 ++ BitVec.ofBool cf) t
  | .mma t p y a b ta tb => packT 0xA8#8 (2#2 ++ y) (0#1 ++ a) (0#1 ++ b) (BitVec.ofBool ta) (BitVec.ofBool tb) (p ++ 0#13) t
  | .mloop t e f => packE 0xA9#8 e.p f.x f.sg e.abs (f.yd ++ f.var ++ f.pair ++ BitVec.ofBool f.xa ++ BitVec.ofBool f.xb ++ 0#7) t
  | .ycvt t d s x sf => packT 0xAA#8 (2#2 ++ d) (2#2 ++ s) (0#1 ++ x) 0#1 0#1 (0#15 ++ BitVec.ofBool sf) t
  | .ysca t d s x sf => packT 0xAB#8 (2#2 ++ d) (2#2 ++ s) (0#1 ++ x) 0#1 0#1 (0#15 ++ BitVec.ofBool sf) t
  | .yred t d s rf => packT 0xAC#8 (2#2 ++ d) (2#2 ++ s) 0#6 0#1 0#1 (0#15 ++ BitVec.ofBool rf) t
  | .mwait t y => packT 0xAD#8 0#6 (2#2 ++ y) 0#6 0#1 0#1 0#16 t
  | .yevtRd t d y => packT 0xAE#8 0#6 (2#2 ++ y) 0#6 0#1 0#1 (0#7 ++ encDst d) t
  | .yevtClr t y m => packT 0xAE#8 0#6 (2#2 ++ y) 0#6 0#1 0#1 (1#1 ++ m ++ 0#10) t
  | .leave t a => packR 0xAF#8 0#9 (encU a) 0#9 0#9 t 0#2
  | .sdef t n a b c => packR 0xC0#8 (0#7 ++ n) (encU a) (encU b) (encU c) t 0#2
  | .sstart t n a => packR 0xC1#8 (0#7 ++ n) (encU a) 0#9 0#9 t 0#2
  | .sstop t d n => packR 0xC2#8 (encDst d) (0#7 ++ n) 0#9 0#9 t 0#2
  | .isect t tr d a b g => packR 0xC3#8 (encDst d) (encSrc a) (encSrc b) (encG g) t (bits2 false tr)
  | .mrgk t e s => packE 0xC4#8 e.p 0#6 0#3 e.abs (0#17 ++ BitVec.ofBool s) t
  | .cpyt t e => packE 0xE0#8 e.p 0#6 0#3 e.abs 0#18 t
  | .shuf t e => packE 0xE1#8 e.p 0#6 0#3 e.abs 0#18 t
  | .rtset t k a b => packR 0xE2#8 0#9 (encU a) (encU b) (0#5 ++ k) t 0#2
  | .rtstate t k d => packR 0xE3#8 (encDst d) 0#9 0#9 (0#5 ++ k) t 0#2
  | .rtdrop t k => packR 0xE4#8 0#9 0#9 0#9 (0#5 ++ k) t 0#2
  | .spawn t d a b c => packR 0x90#8 (encDst d) (encU a) (encU b) (encU c) t 0#2
  | .tdep t a b => packR 0x91#8 0#9 (encU a) (encU b) 0#9 t 0#2
  | .tsig t a b => packR 0x92#8 0#9 (encU a) (encU b) 0#9 t 0#2
  | .tend t a => packR 0x93#8 0#9 (encU a) 0#9 0#9 t 0#2
  | .migr t a b c => packR 0x94#8 0#9 (encU a) (encU b) (encU c) t 0#2
  | .iscene t d a => packR 0xD0#8 (encDst d) (encU a) 0#9 0#9 t 0#2
  | .isceneDel t a => packR 0xD0#8 0#9 (encU a) 0#9 1#9 t 0#2
  | .icon t a b c => packR 0xD1#8 0#9 (encSrc a) (encSrc b) (encSrc c) t 0#2
  | .ijnt t a b c => packR 0xD2#8 0#9 (encSrc a) (encSrc b) (encSrc c) t 0#2
  | .ijntDel t a b c => packR 0xD2#8 0#9 (encSrc a) (encSrc b) (encSrc c) t 1#2
  | .istep t a b => packR 0xD3#8 0#9 (encU a) (encU b) 0#9 t 0#2
  | .ipoll t d => packR 0xD4#8 (encDst d) 0#9 0#9 0#9 t 0#2
  | .igrow t d => packR 0xD5#8 (encDst d) 0#9 0#9 0#9 t 0#2
  | .irest t => packR 0xD6#8 0#9 0#9 0#9 0#9 t 0#2
  | .iinfo t x d a => packR 0xD7#8 (encDst d) (encSrc a) 0#9 (0#6 ++ x) t 0#2
  | .trap t i => packI 0xF0#8 0#9 0#9 (0#2 ++ i) t 0#2
  | .sret t => packR 0xF1#8 0#9 0#9 0#9 0#9 t 0#2
  | .sretSkip t => packR 0xF1#8 0#9 0#9 0#9 0#9 t 1#2
  | .rdsr t d k => packI 0xF2#8 (encDst d) 0#9 (0#6 ++ k) t 0#2
  | .wrsr t k a => packI 0xF3#8 0#9 (encU a) (0#6 ++ k) t 0#2
  | .ckpt t d a b c => packR 0xF4#8 (encDst d) (encU a) (encU b) (encU c) t 0#2
  | .errinj t a b c => packR 0xF5#8 0#9 (encU a) (encU b) (encU c) t 0#2
  | .swapf t a b => packR 0xF6#8 0#9 (encU a) (encU b) 0#9 t 0#2
  | .halt t a => packR 0xF7#8 0#9 (encU a) 0#9 0#9 t 0#2
  | .issueSelect _ _ => 0
  | .resultLand _ => 0
  | .loadComplete _ => 0
  | .storePerformed _ _ => 0
  | .stageComplete _ => 0
  | .btLineLand _ => 0
  | .longWaitSatisfied _ _ _ => 0
  | .placeGang _ => 0
  | .activateTussock _ _ => 0
  | .stagingDone _ _ => 0
  | .parkTussock _ _ => 0
  | .deadwait _ _ _ => 0
  | .orderedUnload _ => 0
  | .windowFillDone _ => 0
  | .engineStart _ => 0
  | .leaveGrant _ => 0
  | .enginePieceCredit _ => 0
  | .shufComplete _ => 0
  | .mrgkComplete _ => 0
  | .mloopStepEnd _ => 0
  | .tileOpComplete _ => 0
  | .pushLand _ => 0
  | .streamFetch _ _ _ => 0
  | .faultRecordEnter _ => 0
  | .migrationCopyDone _ => 0
  | .swapDone _ => 0
  | .islandStepBoundary _ _ => 0
  | .islandFillDone _ => 0
  | .igrowProceed _ _ _ => 0
  | .islandRelaunch _ _ _ => 0
  | .sliceEnd _ => 0
  | .drainDeadline _ => 0
  | .tenantRestore _ => 0
  | .intervalStart => 0
  | .bucketSweep => 0
  | .thermalStepDown _ => 0
  | .thermalStepUp _ => 0
  | .arbiterServe _ => 0
  | .patrolScrub _ => 0
  | .portLinkDown _ => 0
  | .peerUnreachable _ _ => 0
  | .remoteSpawnReceive _ => 0
  | .remoteTsigReceive _ => 0
  | .remoteAckReceive _ => 0
  | .remoteCompletion _ => 0
  | .partCreate _ => 0
  | .partDestroy _ => 0
  | .memWrite _ => 0
  | .memRead _ => 0
  | .launch _ => 0
  | .preempt _ => 0
  | .resume _ => 0
  | .faultFetch _ => 0
  | .replay _ => 0
  | .migrate _ => 0
  | .ckptCommand _ => 0
  | .restore _ => 0
  | .attest _ => 0
  | .peerNonce _ => 0
  | .peerAdd _ => 0
  | .fwLoad _ => 0
  | .telemCoreMask _ => 0
  | .telemJobRecords _ => 0
  | .telemServiceUnits _ => 0
  | .telemErrorLog _ => 0
  | .resetPartition _ => 0
  | .resetDevice _ => 0
  | .powerOnReset => 0
  | .bootRomLoad _ => 0
  | .mctpAddressList _ => 0
  | .taskUnitRequestDone _ => 0
  | .longLatencyCompletion _ => 0
  | .jtagInjCtlWrite _ => 0

/-- The instruction that the decoder reads from an instruction of `nbits` bits whose bits are `w`. -/
def decodeTableWord (nbits w : Nat) : Option Instr :=
  match decode (bytesOfWord (BitVec.ofNat 64 (w % 2 ^ nbits))) with
  | .ok (i, _) => some i
  | .error _ => none

end Sys2Proof
end

