-- ==== Sys2Proof/Machine/Fetch.lean ====
section
/-! DEFINITION. Instruction fetch: the word at a slot's PC, faults of a fetch, and illegal words (R62, R63, R181, R190,
R398). -/

namespace Sys2Proof.Machine

open Sys2Proof

/-- The line of code at a slot's PC that the slot holds or that its target buffers hold (R62, R63; log 8). -/
def Slot.buffered (sl : Slot) : Option (BitVec 512) :=
  let line := sl.pc.toNat / 64
  let own := (sl.fline.filter (fun l => l.1 == line)).map (·.2)
  own.orElse (fun _ => sl.bregs.findSome? (fun b =>
    if b.state == .prep then (b.lines.find? (fun l => l.1 == line)).map (·.2) else none))

/-- The word at an address of a line (R161). -/
def wordIn (bits : BitVec 512) (pc : Addr) : Word := bits.extractLsb' (8 * (pc.toNat % 64)) 64

/-- A 64-byte line of memory. -/
def State.codeLine (s : State) (pa : Nat) : BitVec 512 := BitVec.ofNat 512 (s.mem.read pa 64)

/-- The word that a slot would issue next, without an effect; none where its fetch would fault. -/
def State.peek (s : State) (x : Gang) (y : Tussock) (sl : Slot) (core : Nat) : Option Word :=
  match sl.buffered with
  | some bits => some (wordIn bits sl.pc)
  | none =>
    match s.part? x.part with
    | none => none
    | some p =>
      match (s.translate core p x.tenant (sl.pc.toNat / 64 * 64) .fetch y.sup (s.readerOf x.id)).2 with
      | .pa a .. => some (wordIn (s.codeLine a) sl.pc)
      | _ => none

/-- What fetching gives: a word, a translation result that stops it, or a lasting storage error at an address. -/
inductive Fetched where
  | word (w : Word)
  | fault (w : Walk)
  | lost (pa : Nat)
  deriving Repr, Inhabited

/-- Reads a line of code through ECC (R435, R438). -/
def State.readLine (s : State) (p : Partition) (pa : Nat) (r : Reader) : State × Option Nat × BitVec 512 :=
  if s.sound then (s, none, s.codeLine pa)
  else (List.range 8).foldl (fun (a : State × Option Nat × BitVec 512) i =>
    let e := a.1.eccGlobal p (pa + 8 * i) 8 r
    (e.s, if e.lasting then a.2.1.orElse (fun _ => some (pa + 8 * i)) else a.2.1,
     a.2.2 ^^^ ((e.flip.extractLsb' 0 64).setWidth 512 <<< (64 * i)))) (s, none, s.codeLine pa)

/-- Fetches the word at a slot's PC; the slot keeps the line (R63). -/
def State.fetch (s : State) (q : Cur) (x : Gang) (y : Tussock) (sl : Slot) (core : Nat) : State × Fetched :=
  let line := sl.pc.toNat / 64
  let keep := fun (s : State) (bits : BitVec 512) => s.modSlot q.gang q.tk q.slot (fun z => { z with fline := some (line, bits) })
  match sl.buffered with
  | some bits => (keep s bits, .word (wordIn bits sl.pc))
  | none =>
    match s.part? x.part with
    | none => (s, .fault .xlate)
    | some p =>
      match s.translate core p x.tenant (64 * line) .fetch y.sup (s.readerOf x.id) with
      | (s, .pa a ..) =>
        let r := s.readLine p a (s.readerOf x.id)
        match r.2.1 with
        | some pa => (r.1, .lost pa)
        | none => (keep r.1 r.2.2, .word (wordIn r.2.2 sl.pc))
      | (s, w) => (s, .fault w)

/-- The context of a slot whose word is not known, in every lane of its mask. -/
def blankCtx (s : State) (q : Cur) (x : Gang) (y : Tussock) (sl : Slot) (core : Nat) : Ctx where
  g := q.gang
  t := q.tk
  k := q.slot
  core := core
  clk := s.clk core
  x := x
  tk := y
  sl := sl
  act := sl.mask
  tag := 0

/-- A fetch fault, which belongs to the instruction at the PC (R190, R398). -/
def fetchFault (s : State) (q : Cur) (x : Gang) (y : Tussock) (sl : Slot) (core : Nat) (w : Walk) : Out :=
  let c := blankCtx s q x y sl core
  c.finish default s ((c.walkFault s 3 ((lanesOf sl.mask).map (fun l => (l, w, sl.pc.toNat)))).getD
    (.trap { code := .xlate, lanes := sl.mask, addr := sl.pc.toNat }))

/-- What the selected slot does next: an instruction in a state, or an outcome where the word is none. -/
inductive Next where
  | run (s : State) (i : Instr)
  | stop (o : Out)
  deriving Repr, Inhabited

/-- Fetches and decodes the word of the selected slot; an illegal word raises #ILLOP in every lane of the mask (R181). -/
def State.nextInstr (s : State) (q : Cur) : Next :=
  let s0 : State := { s with cur := none }
  match s.gang? q.gang with
  | none => .stop (.next s0)
  | some x =>
    match x.core, x.tks[q.tk]? with
    | some core, some y =>
      match y.slots[q.slot]? with
      | none => .stop (.next s0)
      | some sl =>
        if !sl.valid then .stop (.next s0)
        else match s.fetch q x y sl core with
        | (s, .word w) =>
          (match decode (bytesOfWord w) with
          | .ok (i, _) => .run s i
          | .error _ => .stop (.next (({ s with cur := none } : State).takeTrap q.gang q.tk q.slot { code := .illop, lanes := sl.mask })))
        | (s, .fault w) => .stop (fetchFault { s with cur := none } q x y sl core w)
        | (s, .lost pa) => .stop (.next (({ s with cur := none } : State).takeTrap q.gang q.tk q.slot
            { code := .mchk, lanes := sl.mask, addr := pa }))
    | _, _ => .stop (.next s0)

end Sys2Proof.Machine
end

