-- ==== Sys2Proof/Machine/Sched.lean ====
section
/-! DEFINITION. Selection and activation: ISSUE_SELECT, ACTIVATE_TUSSOCK, STAGING_DONE, PARK_TUSSOCK, DEADWAIT (R41 to
R50, R57, R59, R62, R367). -/

namespace Sys2Proof.Machine

open Sys2Proof

/-! ### Eligibility (R47) -/

/-- The tags that a word waits for, read from its tail; format L holds them elsewhere (R162, R166). -/
def sbwOf (w : Word) : BitVec 7 := if w.extractLsb' 56 8 == 0x0C then w.extractLsb' 4 7 else w.extractLsb' 6 7
/-- The tag that a word allocates. -/
def sbaOf (w : Word) : Nat := if w.extractLsb' 56 8 == 0x0C then 0 else (w.extractLsb' 13 3).toNat

/-- Whether an opcode is in the class that an acquire holds back (R230). -/
def heldClass (w : Word) : Bool :=
  let op := (w.extractLsb' 56 8).toNat
  (decide (0x60 ≤ op) && decide (op ≤ 0x64)) || op == 0x6B || (decide (0x80 ≤ op) && decide (op ≤ 0x97)) ||
  [0xA1, 0xA2, 0xA6, 0xA7, 0xA9, 0x07, 0xF4, 0xF5, 0xF6, 0xF7].contains op || (decide (0xC0 ≤ op) && decide (op ≤ 0xC4)) ||
  (decide (0xD0 ≤ op) && decide (op ≤ 0xD7)) || (decide (0xE0 ≤ op) && decide (op ≤ 0xE4))

/-- Whether an operation is gone; a stopped command in a gang's context is not (R65, R272, R289). -/
def State.opGone (s : State) (x : Gang) (o : Nat) : Bool :=
  (s.op? o).isNone && x.loops.all (fun l => l.id != o) && x.merges.all (fun m => m.id != o)

/-- Whether what a slot is stalled for has come about. -/
def State.stallOver (s : State) (x : Gang) (y : Tussock) (sl : Slot) (core : Nat) : Stall → Bool
  | .tagFull k => decide (sl.tags.getD (k - 1) 0 < 15)
  | .held => sl.hold.all (fun o => (s.op? o).isNone)
  | .clock a => decide (a ≤ s.clk core)
  | .drain ops a => decide (a ≤ s.now) && ops.all (s.opGone x)
  | .popEmpty w =>
    match (x.wqs[w]?).join with
    | some q => q.visible.contains q.head
    | none => true
  | .pushFull w =>
    match (x.wqs[w]?).join with
    | some q => decide (q.tail - q.head < q.entries)
    | none => true
  | .fifoEmpty f =>
    let st := y.s.getD f {}
    !st.bound || !st.fifo.isEmpty || st.faulted || decide (st.count ≤ st.next)
  | .engineFull e => !s.engineFull core e
  | .locks n => decide (n ≤ s.lockRoom core)
  | .leave _ => sl.phase.granted
  | .window ks => ks.all (fun k => ((x.windows[k]?).join).all (fun w => w.state == .present))
  | .frames a b => s.ops.all (fun o => match o.kind with
      | .swap i j => [i, j].all (fun f => f != a && f != b)
      | _ => true)
  | .loop _ => false
  | .absorbed => false

/-- Whether a gang's slots are stopped: its partition is halted, its tenant's drain deadline has passed, or it is being
unloaded (R46, R323, R415). -/
def State.frozen (s : State) (x : Gang) : Bool :=
  x.stop || (match s.part? x.part with
    | none => true
    | some p => p.halted || (p.running == some x.tenant && p.drain.any (fun d => decide (d ≤ s.now))))

/-- Whether the tail of a slot's next word lets it issue: its tag waits, a full tag, an acquire that holds it. A
word whose fetch faults takes the fault when it issues. -/
def State.wordReady (s : State) (x : Gang) (y : Tussock) (sl : Slot) (core : Nat) : Bool :=
  match s.peek x y sl core with
  | none => true
  | some w =>
    let sba := sbaOf w
    (List.range 7).all (fun i => !(sbwOf w).getLsbD i || sl.tags.getD i 0 == 0) &&
    (sba == 0 || decide (sl.tags.getD (sba - 1) 0 < 15)) &&
    (!heldClass w || sl.hold.all (fun o => (s.op? o).isNone))

/-- Whether slot k of an active tussock is eligible (R47, R410). -/
def State.eligible (s : State) (x : Gang) (y : Tussock) (k core : Nat) : Bool :=
  let sl := y.slots.getD k {}
  sl.valid && !sl.waitJoin && sl.wait.isNone && sl.park.isNone && !y.suspended k && y.staging.isNone && x.ready &&
  !s.frozen x && sl.lastIssue.all (fun c => decide (c + 1 + sl.gap ≤ s.clk core)) && decide (sl.fetchAt ≤ s.clk core) &&
  sl.fetchOp.all (fun o => (s.op? o).isNone) && sl.stall.all (s.stallOver x y sl core) && s.wordReady x y sl core

/-! ### Octants -/

/-- A resident tussock: its gang, its index, itself. -/
abbrev Resident := Gang × Nat × Tussock

/-- The tussocks resident in an octant that have not ended (R41). -/
def State.residents (s : State) (core oct : Nat) : List Resident :=
  (s.gangs.filter (fun x => x.core == some core)).flatMap (fun x =>
    (x.tks.zipIdx.filter (fun e => e.1.oct == oct && !e.1.ended)).map (fun e => (x, e.2, e.1)))

/-- The active ones with their positions, by position. -/
def State.actives (s : State) (core oct : Nat) : List (Nat × Resident) :=
  let rs := s.residents core oct
  (List.range 4).flatMap (fun a => (rs.filter (fun r => r.2.2.active == some a)).map (fun r => (a, r)))

/-- A slot among the eight candidates of an octant (R48). -/
structure Cand where
  num    : Nat
  id     : Nat × Nat × Nat
  actAt  : Nat
  urgent : Nat
  yld    : Bool
  deriving DecidableEq, Repr, Inhabited

/-- The eligible candidates in candidate order. -/
def State.candidates (s : State) (core oct : Nat) : List Cand :=
  (s.actives core oct).flatMap (fun e => (List.range 2).filterMap (fun k =>
    let r := e.2
    let sl := r.2.2.slots.getD k {}
    if s.eligible r.1 r.2.2 k core then
      some { num := 2 * e.1 + k, id := (r.1.id, r.2.1, k), actAt := r.2.2.actAt, urgent := sl.urgent, yld := sl.yld }
    else none))

/-- The candidate that a test puts before every other; the first of them where it decides nothing. -/
def bestBy (lt : Cand → Cand → Bool) : List Cand → Option Cand
  | [] => none
  | c :: cs => some (cs.foldl (fun m x => if lt x m then x else m) c)

/-- Earlier activation time, then the lower position, then slot 0 (R48, R367). -/
def older (a b : Cand) : Bool := decide (a.actAt < b.actAt) || (a.actAt == b.actAt && decide (a.num < b.num))

/-- The selection of R48: urgent, GTO or round-robin over the candidates that YLD does not pass over. -/
def choose (o : Octant) (rr : Bool) (cs : List Cand) : Option Cand :=
  let rest := cs.filter (fun c => !(o.prev == some c.id && c.yld))
  let pool := if rest.isEmpty then cs else rest
  let hot := pool.filter (fun c => 56 ≤ c.urgent)
  let far := fun (c : Cand) => (c.num + 15 - o.cand) % 8
  match bestBy (fun a b => decide (b.urgent < a.urgent) || (a.urgent == b.urgent && older a b)) hot with
  | some c => some c
  | none =>
    if rr then bestBy (fun a b => decide (far a < far b)) pool
    else match pool.find? (fun c => o.fresh && o.prev == some c.id && !c.yld) with
    | some c => some c
    | none => bestBy older pool

/-- Changes an octant. -/
def State.modOct (s : State) (core oct : Nat) (f : Octant → Octant) : State :=
  s.modCore core (fun c => { c with octs := c.octs.modify oct f })

/-- Sets the counts of clocks for which the slots of an octant were eligible and not selected (R48). -/
def State.setUrgent (s : State) (core oct : Nat) (cs : List Cand) (pick : Option Cand) : State :=
  let count := fun (g t k old : Nat) =>
    if cs.any (fun c => c.id == (g, t, k)) && pick.all (fun c => c.id != (g, t, k)) then old + 1 else 0
  (s.actives core oct).foldl (fun s e =>
    s.modTk e.2.1.id e.2.2.1 (fun y => { y with slots := y.slots.mapIdx (fun k (z : Slot) =>
      { z with urgent := count e.2.1.id e.2.2.1 k z.urgent }) })) s

/-- ISSUE_SELECT (R48): the octant's selection of this clock; the slot selected issues next. -/
def execIssueSelect (core oct : Nat) (s : State) : Out :=
  if s.cur.isSome then .next s
  else
    let s : State := { s with sweep := s.sweep.filter (fun e => e != (core, oct)) }
    let cs := s.candidates core oct
    let rr := (s.actives core oct).any (fun e => e.2.1.rr)
    let pick := choose ((s.core core).octs.getD oct {}) rr cs
    let s := s.setUrgent core oct cs pick
    match pick with
    | none => .next (s.modOct core oct (fun o => { o with fresh := false }))
    | some c =>
      let s := s.modOct core oct (fun o => { o with prev := some c.id, fresh := true, cand := c.num })
      let s := s.modSlot c.id.1 c.id.2.1 c.id.2.2 (fun z => { z with yld := false, stall := none })
      .next { s with cur := some { gang := c.id.1, tk := c.id.2.1, slot := c.id.2.2 } }

/-! ### Waiting tussocks (R43) -/

/-- Whether a slot is in a long wait whose age has not ended it. -/
def Slot.waits (sl : Slot) : Bool := sl.wait.any (fun w => w.cond != .dead)

/-- Whether a tussock is waiting (R43). -/
def Tussock.waiting (y : Tussock) : Bool :=
  let vs := y.slots.filter (·.valid)
  vs.all (fun k => k.waitJoin || k.waits) && vs.any (fun k => !k.waitJoin && k.waits)

/-- Whether a STAGE or SPILL of a tussock has not completed (R198). -/
def State.staging (s : State) (g t : Nat) : Bool :=
  s.ops.any (fun o => o.gang == g && o.tk == t && (match o.kind with
    | .stage _ | .spill _ => true
    | _ => false))

/-- Whether a wait is that of a YIELD that began at this clock (R43). One whose tussock has a STAGE or SPILL in flight is not
parked by it (DESIGN CHOICE, log 98). -/
def State.justYielded (s : State) (sl : Slot) : Bool :=
  sl.wait.any (fun w => w.start == s.now && (match w.cond with
    | .yieldReady | .yieldBarrier .. => true
    | _ => false))

/-- A resident tussock that stands before another for an active position (R44). -/
def readier (a b : Resident) : Bool :=
  decide (b.1.prio < a.1.prio) || (a.1.prio == b.1.prio && decide (a.2.2.readySeq < b.2.2.readySeq))

/-- The ready resident tussocks of an octant (R44). -/
def State.readyOnes (s : State) (core oct : Nat) : List Resident :=
  (s.residents core oct).filter (fun r => r.2.2.active.isNone && r.2.2.readySeq != 0 && r.1.ready && !s.frozen r.1)

/-- The ready resident tussock that an octant activates next; of two that became ready at one moment, the first of the
gang (R44; log 97). -/
def State.nextReady (s : State) (core oct : Nat) : Option Resident :=
  match s.readyOnes core oct with
  | [] => none
  | r :: more => some (more.foldl (fun m x => if readier x m then x else m) r)

/-- The lowest free active position of an octant. -/
def State.freePos (s : State) (core oct : Nat) : Option Nat :=
  let used := (s.actives core oct).map (·.1)
  (List.range 4).find? (fun a => !used.contains a)

/-- The waiting active tussock that gives up its position: the lowest PRIO, then the earliest wait, then the lower
position (R44). -/
def State.victim (s : State) (core oct : Nat) : Option Resident :=
  let vs := (s.actives core oct).filter (fun e => e.2.2.2.staging.isNone && e.2.2.2.waiting && !s.staging e.2.1.id e.2.2.1)
  let since := fun (e : Nat × Resident) => e.2.2.2.waitSince.getD (s.clk core)
  let before := fun (a b : Nat × Resident) => decide (a.2.1.prio < b.2.1.prio) ||
    (a.2.1.prio == b.2.1.prio && (decide (since a < since b) || (since a == since b && decide (a.1 < b.1))))
  match vs with
  | [] => none
  | e :: more => some (more.foldl (fun m x => if before x m then x else m) e).2

/-- Whether a tussock is to be parked now: a YIELD's wait leaves it waiting, it has waited 256 clocks, or a ready parked
one needs its position (R43, R44). -/
def State.parkNow (s : State) (x : Gang) (t : Nat) (y : Tussock) : Bool :=
  match x.core with
  | none => false
  | some core =>
    y.active.isSome && !y.ended && y.staging.isNone && y.waiting && !s.staging x.id t && !s.frozen x &&
    (y.slots.any s.justYielded || y.waitSince.any (fun c => decide (c + 256 ≤ s.clk core)) ||
     ((s.freePos core y.oct).isNone && (s.readyOnes core y.oct).any (fun r => r.2.2.parked) &&
      (s.victim core y.oct).any (fun r => r.1.id == x.id && r.2.1 == t)))

/-- The lines on their way to a tussock's target buffers are dropped with the buffers (R62). -/
def State.dropTkLines (s : State) (g t : Nat) : State :=
  { s with ops := s.ops.filter (fun o => !(o.gang == g && o.tk == t && (match o.kind with
      | .btLine .. => true
      | _ => false))) }

/-- A slot whose fetched lines are discarded: targets kept, PREP as STALE (R62, R70). -/
def Slot.unfetched (z : Slot) : Slot := { z with bregs := staleRegs z.bregs, fline := none, fetchOp := none, fetchAt := 0 }

/-- The m registers after the write-back of every homed n register (R59). -/
def Tussock.writtenBack (y : Tussock) : List (Lanes 32) :=
  y.home.zipIdx.foldl (fun m e => match e.1 with
    | some h => m.set h (y.nreg e.2)
    | none => m) y.m

/-- PARK_TUSSOCK (R43, R59). -/
def execParkTussock (g t : Nat) (s : State) : Out :=
  match s.gang? g, s.tk? g t with
  | some x, some y =>
    if !s.parkNow x t y then .next s
    else
      let park := fun (y : Tussock) => { y with
        m := y.writtenBack, active := none, parked := true, readySeq := 0, waitSince := none
        slots := y.slots.map Slot.unfetched }
      .next (((s.dropTkLines g t).modTk g t park).noteReady g t)
  | _, _ => .next s

/-! ### Activation (R42, R44, R367) -/

/-- The n registers that activation leaves: those with a home staged from it, the others free after parking (R59). -/
def Tussock.staged (y : Tussock) (seed : Nat) : List (Lanes 32) :=
  if !y.parked then y.n
  else y.home.zipIdx.map (fun e => match e.1 with
    | some h => y.m.getD h (splat 0)
    | none => laneNums.map (fun l => (Config.freeValue (seed + 32 * e.2 + l)).extractLsb' 0 32))

/-- Whether a tussock is the next to be activated, and where (R44). -/
def State.activateAt (s : State) (x : Gang) (t : Nat) (y : Tussock) : Option (Nat × Nat) :=
  match x.core with
  | none => none
  | some core =>
    if y.ended || !(s.nextReady core y.oct).any (fun r => r.1.id == x.id && r.2.1 == t) then none
    else (s.freePos core y.oct).map (fun a => (core, a))

/-- ACTIVATE_TUSSOCK (R42, R44, R367). A lasting error in the main file lies in the tussock's own context (R412). -/
def execActivateTussock (g t : Nat) (s : State) : Out :=
  match s.gang? g, s.tk? g t with
  | some x, some y =>
    match s.activateAt x t y with
    | none => .next s
    | some (core, a) =>
      let ms := y.home.filterMap id
      let r := s.mainRead core y ms Mask.all x.part (s.readerOf x.id)
      if r.2 then .next (r.1.abortDomain x.part x.tenant x.domain TrapCode.mchk.num ((y.slots.getD 0 {}).pc.setWidth 64))
      else
        let s := r.1
        let clk := s.clk core
        let s := if (s.actives core y.oct).isEmpty then s.modOct core y.oct (fun _ => {}) else s
        let up := fun (y : Tussock) => { y with
          n := y.staged s.seed, active := some a, actAt := clk, staging := some (clk + stageClocks ms.length), parked := false,
          readySeq := 0, waitSince := none }
        .next { s.modTk g t up with seed := s.seed + 1024 }
  | _, _ => .next s

/-- STAGING_DONE (R42). -/
def execStagingDone (g t : Nat) (s : State) : Out :=
  match s.gang? g, s.tk? g t with
  | some x, some y =>
    match x.core, y.staging with
    | some core, some c => if c ≤ s.clk core then .next (s.modTk g t (fun z => { z with staging := none })) else .next s
    | _, _ => .next s
  | _, _ => .next s

/-! ### The watchdog (R45) -/

/-- The limit of a gang's waits in clocks, from the RCBs as they stand; none without a limit (R24, R25). -/
def State.watchdog (s : State) (x : Gang) : Option Nat :=
  match s.part? x.part, s.task? x.id with
  | some p, some t =>
    let v := ((s.chain p x.tenant t.launch).map (effective 9)).getD 0
    if v == 0 then none else some (v * 65536)
  | _, _ => none

/-- Whether a wait's age has passed its limit. -/
def State.overdue (s : State) (x : Gang) (w : Wait) : Bool := (s.watchdog x).any (fun n => decide (n < s.now - w.start))

/-- Whether #DEADWAIT is due in a slot, or in a parked tussock whose activation comes first. -/
def State.deadDue (s : State) (x : Gang) (y : Tussock) (k : Nat) : Bool :=
  x.core.isSome && !y.ended && !s.frozen x && !y.suspended k &&
  (match (y.slots.getD k {}).wait with
  | none => false
  | some w => if w.cond == .dead then y.active.isSome && y.staging.isNone
      else s.overdue x w && (y.parked || (y.active.isSome && y.staging.isNone)))

/-- DEADWAIT (R45, R409): the wait ends and #DEADWAIT is raised in the slot's lanes; a parked tussock is activated
first. -/
def execDeadwait (g t k : Nat) (s : State) : Out :=
  match s.gang? g, s.tk? g t with
  | some x, some y =>
    if !s.deadDue x y k then .next s
    else if y.parked then
      let dead := fun (z : Slot) => { z with wait := z.wait.map (fun w => { w with cond := .dead }) }
      let s := (s.withdraw g t k).modSlot g t k dead
      .next (if y.readySeq != 0 then s
        else { s.modTk g t (fun z => { z with readySeq := s.nextSeq + 1 }) with nextSeq := s.nextSeq + 1 })
    else .next ((s.modTk g t (fun z => { z with waitSince := none })).takeTrap g t k
      { code := .deadwait, lanes := (y.slots.getD k {}).mask })
  | _, _ => .next s

end Sys2Proof.Machine
end

