-- ==== Sys2Proof/Machine/System.lean ====
section
/-! DEFINITION. The privileged instructions but CKPT, the special registers and the swap engine (R311 to R323). -/

namespace Sys2Proof.Machine

open Sys2Proof

/-! ### TRAP and SRET (R314, R315) -/

/-- TRAP (R314): #BRK in the active lanes, with the argument. -/
def execTrap (t : Tail) (arg : BitVec 16) (s : State) : Out :=
  issue t s (fun c s => if c.act == 0 then .next s false else .trap { code := .brk, lanes := c.act, arg := arg })

/-- Whether the handler of the issuing slot has merged its divergence: SRET issues in the slot that trapped, no other
slot that the handler made valid is valid, and no record that it pushed is left (R411). -/
def Ctx.handlerMerged (c : Ctx) (f : HFrame) : Bool :=
  c.k == f.slot && c.tk.stack.length == f.depth && (f.otherValid || !(c.tk.slots.getD (1 - f.slot) {}).valid)

/-- SRET with and without skip: whatever the guard holds (R315). -/
def sretOp (t : Tail) (skip : Bool) (s : State) : Out :=
  issue t s (fun c s =>
    let lanes := if c.act == 0 then c.sl.mask else c.act
    match c.sup, c.tk.frame with
    | true, some f =>
      if c.handlerMerged f then
        .out (.next ((s.retireTail c.g c.t c.k c.core t false).leaveTrap c.g c.t skip))
      else .trap { code := .sretdiv, lanes := lanes }
    | _, _ => .trap { code := .priv, lanes := lanes })

/-- SRET (R315). -/
def execSret (t : Tail) (s : State) : Out := sretOp t false s
/-- SRET.skip (R315). -/
def execSretSkip (t : Tail) (s : State) : Out := sretOp t true s

/-! ### Special registers (R316 to R319) -/

/-- Whether user level may read a special register. -/
def srUserReads (k : Nat) : Bool := decide (k < 0x00D)
/-- Whether user level may write a special register. -/
def srUserWrites (k : Nat) : Bool := k == 0

/-- A tenant's measurement (R417). -/
def Partition.measureOf (p : Partition) (tenant : Nat) : BitVec 512 :=
  ((p.measures.find? (fun e => e.1 == tenant)).map (·.2)).getD 0

/-- The counter of a measurement (R418). -/
def Device.counterOf (d : Device) (m : BitVec 512) : BitVec 64 :=
  ((d.counters.find? (fun e => e.1 == m)).map (·.2)).getD 0

/-- The value of a special register of a tussock (R319); the trap registers hold a free value while no trap is handled. -/
def State.srValue (s : State) (x : Gang) (y : Tussock) (k : Nat) : BitVec 64 :=
  let task := (s.task? x.id).getD default
  let p := (s.part? x.part).getD default
  let handled := fun (v : BitVec 64) => if y.frame.isSome then v else Config.freeValue s.seed
  match k with
  | 0x000 => y.fpctl
  | 0x001 => if y.sup then 1 else 0
  | 0x002 => handleOf x.id
  | 0x003 => BitVec.ofNat 64 task.job
  | 0x004 => BitVec.ofNat 64 task.launch
  | 0x005 => BitVec.ofNat 64 (x.part % 64 + x.tenant % 256 * 256 + task.depth % 16 * 65536)
  | 0x008 => s.dev.cores.extractLsb' 0 64
  | 0x009 => s.dev.cores.extractLsb' 64 64
  | 0x00A => s.dev.cores.extractLsb' 128 64
  | 0x00B => p.granules.setWidth 64
  | 0x00C => BitVec.ofNat 64 s.now
  | 0x00D => s.dev.counterOf (p.measureOf x.tenant)
  | 0x010 => handled y.trapPc
  | 0x011 => handled y.trapCode
  | 0x012 => handled y.trapMask
  | 0x013 => handled y.trapAddr
  | _ => y.sscr.getD (k - 0x018) 0

/-- What an RDSR has in flight: a register that WRSR writes is read at issue, so that the old value is used until a WRSR
retires (R317); every other one at the completion point (R316). -/
def Ctx.rdsrKind (c : Ctx) (s : State) (d : LDest) (k : Nat) : OpKind :=
  if k == 0 || decide (0x018 ≤ k) then .values d (splat ((s.srValue c.x c.tk k).setWidth 128)) none none else .rdsr d k

/-- RDSR (R316): the value is written 8 clocks after issue. -/
def execRdsr (t : Tail) (d : Dst) (k : BitVec 12) (s : State) : Out :=
  tileIssue false t s (fun c s =>
    if !c.sup && !srUserReads k.toNat then c.trap .priv
    else .next (c.longOp s 8 (c.rdsrKind s (ldest d (match d with
      | .g _ _ => 2
      | _ => 1)) k.toNat)) true)

/-- The bits of a special register that must be written 0 (R68, R319). -/
def srReserved (k : Nat) (v : BitVec 64) : Bool := k == 0 && v.extractLsb' 3 61 != 0

/-- WRSR (R317): the write takes effect 2 clocks after issue. -/
def execWrsr (t : Tail) (k : BitVec 12) (a : USrc) (s : State) : Out :=
  tileIssue false t s (fun c s =>
    let v := c.tk.uval a
    if !c.sup && !srUserWrites k.toNat then c.trap .priv
    else if srReserved k.toNat v then c.trap .qerr
    else .next (c.addResult s 2 { mask := c.act, inHandler := c.sup, wrsr := some (k.toNat, v) }) true)

/-- Writes a special register (R317). -/
def State.writeSr (s : State) (g t k : Nat) (v : BitVec 64) : State :=
  s.modTk g t (fun y => if k == 0 then { y with fpctl := v } else { y with sscr := y.sscr.set (k - 0x018) v })

/-! ### ERRINJ (R321, R440) -/

/-- Whether the issuing tussock has the privilege of ERRINJ, SWAPF and HALT (R311). -/
def Ctx.sysPriv (c : Ctx) (s : State) : Bool := c.sup && (c.part s).sys

/-- The bytes of a core's array by its number (R16, R321). -/
def coreArrayBytes (array : Nat) : Nat :=
  match array with
  | 1 => 2 ^ 21
  | 2 => 8 * 2 ^ 18
  | 3 => 8 * 16384
  | 4 => 32 * 8192
  | 5 => 16 * 20480
  | _ => 0

/-- The physical address that the 48 bits of an injection name: near memory, else far memory behind the lowest CXL port of
the partition's share (log 30). -/
def Partition.injected (p : Partition) (array : Nat) (a : BitVec 48) : Nat :=
  if array != 7 && decide (a.toNat < nearBytes) then a.toNat
  else 2 ^ 52 + ((List.range 16).find? (fun k => p.cxl.getLsbD k)).getD 0 * 2 ^ 48 + a.toNat

/-- Whether an address of an array lies in a partition's resources (R321). -/
def Partition.ownsArray (p : Partition) (array : Nat) (a : BitVec 48) : Bool :=
  let core := (a.extractLsb' 40 8).toNat
  match array with
  | 0 => decide (a.toNat < nearBytes) && p.owns a.toNat 1
  | 6 | 7 => p.owns (p.injected array a) 1
  | _ => decide (core < 192) && p.granules.getLsbD (granuleOf core) && decide ((a.extractLsb' 0 40).toNat < coreArrayBytes array)

/-- The core or slice whose array an injection's address names. -/
def Partition.arrayHome (p : Partition) (array : Nat) (a : BitVec 48) : Nat :=
  if homed array then homeOf p (p.injected array a) else (a.extractLsb' 40 8).toNat

/-- Arms an injection; a newer one at the same array instance takes the older one's place (R440). A mask of 0 arms
nothing. -/
def State.arm (s : State) (i : Inj) : State :=
  s.modDev (fun d => { d with injs := d.injs.filter (fun j => j.nat || j.array != i.array || j.home != i.home) ++
    (if i.mask == 0 then [] else [i]) })

/-- ERRINJ (R321). -/
def execErrinj (t : Tail) (a b ctl : USrc) (s : State) : Out :=
  tileIssue true t s (fun c s =>
    let v := c.tk.uval a
    let w := c.tk.uval ctl
    let array := (v.extractLsb' 60 4).toNat
    let at_ := v.extractLsb' 0 48
    let p := c.part s
    if !c.sysPriv s then c.trap .priv
    else if 8 ≤ array || v.extractLsb' 48 12 != 0 || w.extractLsb' 1 63 != 0 then c.trap .qerr
    else if !p.ownsArray array at_ then c.trap .prot at_.toNat
    else
      let r := s.delay
      .next (c.longOp r.2 (1 + r.1) (.inject array (p.arrayHome array at_) (w.getLsbD 0) at_ (c.tk.uval b))) true)

/-! ### SWAPF and the swap engine (R100, R322) -/

/-- Whether an operation has an access to a frame left to perform. -/
def Op.touches (o : Op) (f : Nat) : Bool :=
  let hit := fun (a : Acc) => a.glob && !a.done && overlap (a.addr, a.addr + a.size) (f, f + 65536)
  match o.kind with
  | .load _ _ accs _ | .store accs | .atom _ accs _ | .desc accs => accs.any hit
  | .acqE _ a | .relE a _ => hit a
  | _ => false

/-- The slot's own accesses to a frame that are not performed. -/
def State.reachesFrame (s : State) (g t k f : Nat) : List Nat :=
  (s.ops.filter (fun o => o.gang == g && o.tk == t && o.tagSlots.contains k && o.touches f)).map (·.id)

/-- SWAPF (R322). It follows the slot's earlier accesses to the two frames (R134). -/
def execSwapf (t : Tail) (a b : USrc) (s : State) : Out :=
  tileIssue true t s (fun c s =>
    let x := (c.tk.uval a).toNat
    let y := (c.tk.uval b).toNat
    let p := c.part s
    let mine := fun (f : Nat) => p.ownsNear f 65536
    let busy := s.ops.any (fun o => match o.kind with
      | .swap i j => [i, j].any (fun f => f == x || f == y)
      | _ => false)
    let own := s.reachesFrame c.g c.t c.k x ++ s.reachesFrame c.g c.t c.k y
    if !c.sysPriv s then c.trap .priv
    else if x % 65536 != 0 then c.trap .align x
    else if y % 65536 != 0 then c.trap .align y
    else if !mine x then c.trap .prot x
    else if !mine y then c.trap .prot y
    else if busy then .stall s (.frames x y)
    else if !own.isEmpty then .stall s (.drain own 0)
    else
      let r := s.delay
      .next (c.globalOp r.2 (s.now + 1 + r.1) (if x == y then .tagOnly else .swap x y) none).1 true)

/-- Exchanges two 64 KiB frames. -/
def Memory.swapFrames (m : Memory) (a b : Nat) : Memory :=
  let part := fun (f : Nat) => m.filter (fun c => f ≤ c.1 && c.1 < f + 65536)
  let rest := (m.clear a (a + 65536)).clear b (b + 65536)
  let put := fun (m : Memory) (cs : Memory) (src dst : Nat) => cs.foldl (fun m c => m.set (c.1 - src + dst) c.2) m
  put (put rest (part a) a b) (part b) b a

/-- SWAP_DONE (R322): the frames are exchanged in one step, and the tag falls. -/
def execSwapDone (op : Nat) (s : State) : Out :=
  match s.op? op with
  | none => .next s
  | some o =>
    match o.kind with
    | .swap a b => if s.now < o.at_ then .next s else .next (({ s with mem := s.mem.swapFrames a b } : State).finishOp o)
    | _ => .next s

/-! ### HALT (R323) -/

/-- A slice end whose deadline has passed, for tenants of a partition: they are held, and the running one is drained at
once (R323, R381, R415). -/
def State.holdTenants (s : State) (p : Nat) (ts : List Nat) : State :=
  s.modPart p (fun q => { q with
    held := (q.held ++ ts).dedup
    drain := match q.running with
      | some t => if ts.contains t then some (min s.now (q.drain.getD s.now)) else q.drain
      | none => q.drain })

/-- Every tenant index. -/
def allTenants : List Nat := List.range 256

/-- HALT (R323): it retires, and nothing more issues in the partition; the saves follow. -/
def execHalt (t : Tail) (a : USrc) (s : State) : Out :=
  tileIssue true t s (fun c s =>
    let v := c.tk.uval a
    let p := c.part s
    if !c.sysPriv s then c.trap .priv
    else if v.extractLsb' 16 48 != 0 then c.trap .qerr
    else if p.halting.isSome then .next s false
    else
      let s := (s.modPart p.num (fun q => { q with halted := true, halting := some (v.extractLsb' 0 16) })).holdTenants p.num allTenants
      .next s false)

end Sys2Proof.Machine
end

