-- ==== Sys2Proof/Machine/Land.lean ====
section
/-! DEFINITION. Operations reach their completion points: results, loads, writes, long waits, pushes, leave (R53, R64,
R69, R116 to R126, R136, R229, R402, R428). -/

namespace Sys2Proof.Machine

open Sys2Proof

/-- Whether an operation's clock has come and nothing that it waits for is left (R397). -/
def State.opDue (s : State) (o : Op) : Bool := decide (o.at_ ≤ s.opClk o) && o.waits.all s.settled

/-! ### RESULT_LAND (R53, R55, R60, R61, R69, R125, R317) -/

/-- Writes a result into its queue entry in a slot: the interrupted code's into the saved queue as well (R56). -/
def State.landQueue (s : State) (o : Op) (r : Result) (e k : Nat) : State :=
  let s := s.writeQ o.gang o.tk k e r.mask r.vals
  match (s.tk? o.gang o.tk).bind (·.frame) with
  | some f =>
    if r.inHandler || f.slot != k then s
    else s.modTk o.gang o.tk (fun y => { y with frame := some { f with queue := f.queue.modify e (fun old => blend r.mask r.vals old) } })
  | none => s

/-- Writes a reserved entry of a gang queue and makes it visible (R125). -/
def State.landPush (s : State) (o : Op) (r : Result) (k e : Nat) : State :=
  match ((s.gang? o.gang).bind (fun x => x.wqs[k]?)).join with
  | none => s
  | some q =>
    let base := q.base + 128 * (e % q.entries)
    let s := (lanesOf r.mask).foldl (fun s l => s.bankWrite o.gang (base + 4 * l) 4 ((r.vals.at_ l).toNat % 2 ^ 32)) s
    s.modGang o.gang (fun y => { y with wqs := y.wqs.modify k (fun z => z.map (fun w => { w with visible := w.visible ++ [e] })) })

/-- A fixed-latency result is written. -/
def State.landResult (s : State) (o : Op) (r : Result) : State :=
  let s : State := match r.entry with
    | some e => r.qslots.foldl (fun s k => s.landQueue o r e k) s
    | none => s
  let s : State := match r.nreg with
    | some (n, words) => s.writeNs o.gang o.tk n words r.mask (r.vals.map (fun v => v.setWidth 128))
    | none => s
  let s : State := match r.greg with
    | some (g, hi) =>
      let v := r.vals.at_ (lowLane r.mask)
      let old := ((s.tk? o.gang o.tk).map (fun y => Tussock.greg y g)).getD 0
      s.writeG o.gang o.tk g (if hi then v.extractLsb' 0 32 ++ old.extractLsb' 0 32 else v)
    | none => s
  let s : State := match r.wpush with
    | some (k, e) => s.landPush o r k e
    | none => s
  let s := r.preds.foldl (fun s p => s.writeP o.gang o.tk p.1 r.mask p.2) s
  let s : State := match r.wrsr with
    | some (k, v) => s.writeSr o.gang o.tk k v
    | none => s
  s.raise o.gang o.tk r.mask r.flags r.clear

/-- RESULT_LAND: at its clock a result is written, retires, and its tag falls (R53, R64). -/
def execResultLand (op : Nat) (s : State) : Out :=
  match s.op? op with
  | none => .next s
  | some o =>
    match o.kind with
    | .result r => if s.opDue o then .next ((s.landResult o r).finishOp o) else .next s
    | _ => .next s

/-! ### LOAD_COMPLETE (R229, R233, R234, R239, R119, R121, R139, R243) -/

/-- A loaded value extended to a destination: 8 and 16 bits to 32 bits, to 64 bits for a g register (R234). -/
def extendTo (d : LDest) (sx : Bool) (size : Nat) (v : BitVec 128) : BitVec 128 :=
  let w := match d with
    | .g _ => 64
    | _ => 32
  let n := v.toNat % 2 ^ (8 * size)
  if sx && decide (8 * size < w) && decide (2 ^ (8 * size - 1) ≤ n) then BitVec.ofNat 128 (n + 2 ^ w - 2 ^ (8 * size))
  else BitVec.ofNat 128 n

/-- The values of accesses by lane. -/
def accVals (accs : List Acc) (f : Acc → BitVec 128) : Lanes 128 := accs.foldl (fun v a => v.set a.lane (f a)) (splat 0)

/-- Whether every access has been performed. -/
def allDone (accs : List Acc) : Bool := accs.all (·.done)

/-- Registers one lane's subscription (R119): the entries of a home slice are counted, whichever partition's. Answers
whether it succeeded. -/
def State.subscribe (s : State) (g : Nat) (p : Partition) (l : Nat × Nat × Nat × Nat) : State × Bool :=
  let loc := l.2.1
  let slot := l.2.2.1
  let home := homeOf p loc
  let s := (s.subsAt loc).foldl (fun s e => s.tableRead e) s
  let entry := (s.subsAt loc).head?
  let used := (s.subs.filter (fun e => e.home == home)).length
  let taken := s.subs.any (fun e => e.subs.any (fun x => x.gang == g && x.slot == slot))
  let room := match entry with
    | some e => decide (e.subs.length < 16)
    | none => decide (used < 4096)
  if taken || !room then (s, false)
  else
    let me : Subscriber := { gang := g, slot := slot, leaf := l.2.2.2 }
    let subs := match entry with
      | some q => s.subs.map (fun e => if e == q then { e with subs := e.subs ++ [me] } else e)
      | none => s.subs ++ [{ addr := loc, home := home, subs := [me] }]
    let v := s.mem.read loc 8
    let s := s.demandOf g loc 8 true
    (({ s with subs := subs } : State).modGang g (fun x => x.arrPut slot (bytesOfNat 16 v)), true)

/-- Whether a binding may be installed (R243). -/
def Partition.bindable (p : Partition) (tenant lo n : Nat) : Bool :=
  decide (p.binds.length < 1024) && decide (lo + n ≤ 2 ^ 48) &&
  p.binds.all (fun b => b.tenant != tenant || !(decide (b.lo < lo + n) && decide (lo < b.lo + b.len)))

/-- Whether a push to one of a gang's slots is on its way. -/
def State.pushComing (s : State) (g : Nat) (slots : List Nat) : Bool :=
  s.ops.any (fun o => o.gang == g && (match o.kind with
    | .push a _ _ _ => slots.contains a
    | _ => false))

/-- Once a write is performed, the events that wait for it are sent, and the jobs of its partition may end (R383). -/
def State.jobsOf (s : State) (o : Op) : State :=
  match o.who with
  | some w => (s.sendEvents w.1).closeJobs w.1
  | none => s

/-- What a LOAD_COMPLETE does; none where the operation is not complete. -/
def State.loadDone (s : State) (o : Op) : Option State :=
  let who := o.who.getD (((s.gang? o.gang).map (fun x => (x.part, x.tenant))).getD (0, 0))
  let part := who.1
  let tenant := who.2
  match o.kind with
  | .tagOnly => some ((s.statusOf o).finishOp o)
  | .load d sx accs _ =>
    if !allDone accs then none
    else some (((s.landLong o d (accVals accs (fun a => extendTo d sx a.size a.val))).statusOf o).finishOp o)
  | .atom d accs _ =>
    if !allDone accs then none else some ((((s.landLong o d (accVals accs (·.val))).statusOf o).finishOp o).jobsOf o)
  | .tbind k t =>
    let p := (s.part? part).getD default
    let r := (bindReg s.mem p tenant t.base).getD t
    some ((s.modTk o.gang o.tk (fun y => { y with t := y.t.set k r })).finishOp o)
  | .subl ls =>
    let p := (s.part? part).getD default
    let r := ls.foldl (fun (a : State × Mask) l =>
      let q := if (s.gang? o.gang).isSome then a.1.subscribe o.gang p l else (a.1, false)
      (q.1, if q.2 then a.2 ||| BitVec.ofNat 32 (2 ^ l.1) else a.2)) (s, 0)
    some ((r.1.status6 o r.2).finishOp o)
  | .unsub slots =>
    if !(s.sublsBefore o.gang o.tk o.slot o.id slots).isEmpty then none
    else if s.subscribed o.gang slots then some (s.unsubscribe o.gang slots)
    else if s.pushComing o.gang slots then none
    else some ((s.statusOf o).finishOp o)
  | .acqE d a => if a.done && a.at_ ≤ s.now then some ((s.landLong o d (splat a.val)).finishOp o) else none
  | .rbind ok bind =>
    (match bind with
    | none => some ((s.writeP o.gang o.tk 6 o.mask (if ok then o.mask else 0)).finishOp o)
    | some (lo, n, obj) =>
      let p := (s.part? part).getD default
      if p.bindable tenant lo n then
        let b : Binding := { tenant := tenant, lo := lo, len := n, obj := obj, drain := 0 }
        let s := s.modPart part (fun q => { q with binds := q.binds ++ [b] })
        some ((s.writeP o.gang o.tk 6 o.mask o.mask).finishOp o)
      else some ((s.writeP o.gang o.tk 6 o.mask 0).finishOp o))
  | .migrQueued base n task nodes => some (((s.statusOf o).finishOp o).migrPortions part tenant base n task nodes)
  | _ => none

/-- LOAD_COMPLETE: the value is written, or the effect that the instruction's entry names has come about, and the tag
falls (R64, R229). -/
def execLoadComplete (op : Nat) (s : State) : Out :=
  match s.op? op with
  | none => .next s
  | some o => if s.opDue o then .next ((s.loadDone o).getD s) else .next s

/-! ### STORE_PERFORMED (R116, R117, R120, R124, R136, R139, R239, R245) -/

/-- A plain store to a future that has waiters leaves its contents free, and its waiters woken or not (R123). -/
def State.spoilFutures (s : State) (g : Nat) (a : Acc) : State :=
  let hit := fun (w : Waiter) => w.glob == a.glob && (w.glob || w.gang == g) && overlap (w.addr, w.addr + 16) (a.addr, a.addr + a.size)
  match s.waiters.find? hit with
  | none => s
  | some w =>
    let v := BitVec.append (Config.freeValue s.seed) (Config.freeValue (s.seed + 1))
    let woken := Config.freeChoice (s.seed + 2) 2 == 1
    let s : State := { s with seed := s.seed + 3 }
    let s := if w.glob then { s with mem := s.mem.write w.addr 16 v.toNat } else s.bankWrite g w.addr 16 v.toNat
    if woken then s.wakeFuture w.glob w.addr g (v.extractLsb' 0 64) else s

/-- The 8-byte words of [pa, pa + n) in global memory that are bound sync objects (R138). -/
def State.objectWords (s : State) (pa n : Nat) : List Nat :=
  (s.parts.flatMap (fun p => p.binds.filterMap (fun b => match walk s.mem p b.tenant b.obj .host true with
    | .pa a .. => if decide (a < pa + n) && decide (pa < a + 8) then some a else none
    | _ => none))).dedup

/-- A write other than REL.E's to global memory: a bound sync object that it reaches is undefined after it (R139). -/
def State.plainWrite (s : State) (pa n v : Nat) : State × List Nat :=
  match s.objectWords pa n with
  | [] => s.homeWrite pa n v
  | os =>
    let lo := pa / 8 * 8
    let m := (pa + n + 7) / 8 * 8 - lo
    let wild := os.zipIdx.foldl (fun (m : Memory) e => m.write e.1 8 (Config.freeValue (s.seed + e.2)).toNat) (s.mem.write pa n v)
    ({ s with seed := s.seed + os.length } : State).homeWrite lo m (wild.read lo m)

/-- Whether an arrival of another slot or of an engine at a barrier is on its way: a command that a slot names a barrier in
after its own write to it does not race with that write (R111, R245). -/
def State.arrivalComing (s : State) (o : Op) (addr : Nat) (inits : Bool) : Bool :=
  s.ops.any (fun q => q.gang == o.gang && q.id != o.id &&
    let later := q.tk == o.tk && q.slot == o.slot && decide (o.id < q.id)
    (match q.kind with
    | .barrier a kind _ _ => a == addr && (inits || kind != 0) && (q.tk != o.tk || q.slot != o.slot)
    | .copy c => c.bar == some addr && !later
    | .shuf f => f.bar == some addr && !later
    | .merge m => m.bar == some addr && !later
    | .loop l => l.bar == some addr && !later
    | _ => false))

/-- A plain scratchpad store of an operation has been performed: a barrier that it covers and that an arrival is on its way
to is left undefined (R111). -/
def State.storeRaced (s : State) (o : Op) (a : Acc) : State :=
  if a.glob then s
  else (List.range ((a.addr + a.size - 1) / 16 - a.addr / 16 + 1)).foldl (fun s k =>
    let b := (a.addr / 16 + k) * 16
    if s.arrivalComing o b false then s.spoilBarrier o.gang b else s) s

/-- One lane's access of an operation is performed at its home or bank: the state, the value read, what completion waits
for. A compare that fails writes nothing, and one that succeeds sets D (R239, R393). -/
def State.perform (s : State) (o : Op) (a : Acc) : State × BitVec 128 × List Nat :=
  let g := o.gang
  let sp : Memory := ((s.gang? g).map (·.sp)).getD []
  let old := if a.glob then s.mem.read a.addr a.size else sp.read a.addr a.size
  let put := fun (s : State) (v : Nat) => if a.glob then s.plainWrite a.addr a.size v else (s.bankWrite g a.addr a.size v, [])
  match a.act with
  | .read => (s, BitVec.ofNat 128 old ^^^ a.flip, [])
  | .write v =>
    let w := put s (v.toNat % 2 ^ (8 * a.size))
    ((w.1.spoilFutures g a).storeRaced o a, 0, w.2)
  | .nib hi v =>
    let b := if hi then v.toNat * 16 + old % 16 else old / 16 * 16 + v.toNat
    let w := put s b
    ((w.1.spoilFutures g a).storeRaced o a, 0, w.2)
  | .rmw op b =>
    match atomNew op (8 * a.size) old b.toNat with
    | some v => let w := put (if a.glob && op == 7 then s.markDirty a.leaf else s) v; (w.1, BitVec.ofNat 128 old, w.2)
    | none => (s, BitVec.ofNat 128 old, [])

/-- The increment of REL.E at its object's home: the state, and what completion waits for (R139). -/
def State.bumpAt (s : State) (a : Acc) : State × List Nat := s.homeWrite a.addr 8 ((s.mem.read a.addr 8 + 1) % 2 ^ 64)

/-- An update of a barrier at its bank (R110, R245). -/
def State.barrierDone (s : State) (o : Op) (addr kind : Nat) (n link : BitVec 32) : State :=
  match kind with
  | 0 =>
    if s.arrivalComing o addr true then
      let v := BitVec.append (Config.freeValue s.seed) (Config.freeValue (s.seed + 1))
      { s.modGang o.gang (fun y => y.arrPut addr (bytesOfNat 16 v.toNat)) with seed := s.seed + 2 }
    else s.modGang o.gang (fun y => y.arrPut addr (bytesOfNat 16 (link ++ 0#64 ++ n).toNat))
  | 1 => s.arrive o.gang addr 0 n (some (o.tk, o.slot))
  | _ => s.arrive o.gang addr n 0 (some (o.tk, o.slot))

/-- Whether access k of a list can be performed now: its clock has come, and no earlier one to its address is left. -/
def accReady (clk : Nat) (accs : List Acc) (k : Nat) : Bool :=
  match accs[k]? with
  | none => false
  | some a => !a.done && decide (a.at_ ≤ clk) && (accs.take k).all (fun b => b.done || b.addr != a.addr)

/-- The clock that counts for an operation's accesses. -/
def State.accClk (s : State) (o : Op) (a : Acc) : Nat := if a.glob then s.now else s.opClk o


/-- The accesses of an operation with one of them done. -/
def setAcc (accs : List Acc) (k : Nat) (v : BitVec 128) : List Acc := accs.modify k (fun a => { a with done := true, val := v })

/-- Whether an access counts four units: an atomic or a nibble store (R429). -/
def AccAct.heavy : AccAct → Bool
  | .nib .. | .rmw .. => true
  | _ => false

/-- The demand of an access to global memory. -/
def State.accDemand (s : State) (g : Nat) (a : Acc) : State :=
  if a.glob then s.demandOf g a.addr a.size a.act.heavy else s

/-- Performs access k of a store or atomic. -/
def State.performAt (s : State) (o : Op) (accs : List Acc) (k : Nat) (kind : List Acc → OpKind) : State :=
  match accs[k]? with
  | none => s
  | some a =>
    let r := (s.accDemand o.gang a).perform o a
    r.1.modOp o.id (fun q => { q with kind := kind (setAcc accs k r.2.1), waits := q.waits ++ r.2.2.filter (fun w => w != o.id) })

/-- A store of which every access is performed reaches its completion point (R229). -/
def State.storeDone (s : State) (op : Nat) : State :=
  match s.op? op with
  | none => s
  | some o =>
    match o.kind with
    | .store accs =>
      if allDone accs && o.waits.all s.settled then ((s.statusOf o).finishOp o).jobsOf o else s
    | .relE a _ => if a.done && o.waits.all s.settled then (s.finishOp o).jobsOf o else s
    | _ => s

/-- STORE_PERFORMED: one access of a buffered write is performed, and the tag falls when all are (R136, R229). -/
def execStorePerformed (op acc : Nat) (s : State) : Out :=
  match s.op? op with
  | none => .next s
  | some o =>
    let ready := fun (accs : List Acc) => ((accs[acc]?).map (fun a => accReady (s.accClk o a) accs acc)).getD false
    match o.kind with
    | .store accs => .next ((if ready accs then s.performAt o accs acc OpKind.store else s).storeDone op)
    | .atom d accs q => .next (if ready accs then s.performAt o accs acc (fun l => .atom d l q) else s)
    | .relE a drain =>
      if !a.done && a.at_ ≤ s.now then
        let r := (s.accDemand o.gang a).bumpAt a
        let part := (o.who.map (·.1)).getD 0
        let pub := fun (q : Partition) => { q with pubs := q.pubs.filter (fun e => e.1 != a.addr) ++
          [(a.addr, max drain (((q.pubs.find? (fun e => e.1 == a.addr)).map (·.2)).getD 0))] }
        let s := (r.1.modPart part pub).modOp op (fun q => { q with kind := .relE { a with done := true } drain, waits := q.waits ++ r.2.filter (fun w => w != op) })
        .next (s.storeDone op)
      else .next (s.storeDone op)
    | .barrier addr kind n link =>
      if s.opDue o then .next ((s.barrierDone o addr kind n link).finishOp o) else .next s
    | _ => .next s

/-! ### STAGE_COMPLETE (R198) -/

/-- Moves the values of a STAGE or SPILL. A STAGE's write is a write to its registers for another STAGE in flight. -/
def State.stageDone (s : State) (o : Op) : State :=
  match s.tk? o.gang o.tk with
  | none => s
  | some y =>
    let m := o.mask &&& ~~~y.dead
    match o.kind with
    | .stage regs =>
      regs.foldl (fun s e => s.writeN o.gang o.tk e.1 o.mask (if e.2.2.isEmpty then y.m.getD e.2.1 (splat 0) else e.2.2)) (s.dropOp o.id)
    | .spill regs =>
      s.modTk o.gang o.tk (fun z => { z with m := regs.foldl (fun q e => q.modify e.1 (fun old => blend m e.2 old)) z.m })
    | _ => s

/-- STAGE_COMPLETE: the values of a STAGE or SPILL have been moved (R198). -/
def execStageComplete (op : Nat) (s : State) : Out :=
  match s.op? op with
  | none => .next s
  | some o =>
    match o.kind with
    | .stage _ | .spill _ => if s.opDue o then .next ((s.stageDone o).finishOp o) else .next s
    | _ => .next s

/-! ### BT_LINE_LAND (R62, R190) -/

/-- Puts a line of code into the buffer of a register that is prepared. -/
def State.lineDone (s : State) (o : Op) (b line : Nat) : State :=
  let s := s.dropOp o.id
  match s.gang? o.gang with
  | none => s
  | some x =>
    match s.part? x.part, s.tk? o.gang o.tk with
    | some p, some y =>
      (match walk s.mem p x.tenant (64 * line) .fetch y.sup with
      | .pa a .. =>
        let put := fun (r : BReg) => if r.state == .prep then { r with lines := r.lines ++ [(line, s.codeLine a)] } else r
        s.modSlot o.gang o.tk o.slot (fun z => { z with bregs := z.bregs.modify b put })
      | _ => s)
    | _, _ => s

/-- BT_LINE_LAND: a streamed line of code lands in its register's buffer (R190). -/
def execBtLineLand (op : Nat) (s : State) : Out :=
  match s.op? op with
  | none => .next s
  | some o =>
    match o.kind with
    | .btLine b line => if s.opDue o then .next (s.lineDone o b line) else .next s
    | _ => .next s

/-! ### LONG_WAIT_SATISFIED (R43, R110, R120, R124, R242) -/

/-- Whether a slot waits as a member of a matrix loop that is not started (R269, R270). -/
def Gang.loopMember (x : Gang) (t k : Nat) : Bool := x.arrivals.any (fun a => a.members.any (fun m => m.tk == t && m.slot == k))

/-- Whether a condition is met. -/
def Gang.condMet (x : Gang) (t k : Nat) (w : Wait) : Bool :=
  match w.cond with
  | .barrier a parity | .yieldBarrier a parity => x.phaseOf a != parity
  | .yieldReady => true
  | .future .. => w.woken.isSome
  | .seq ls => ls.all (fun l => l.2.2.all (fun q => x.seqOf l.2.1 != q))
  | .window ks => !x.loopMember t k && ks.all (fun i => (x.window? i).all (fun w => w.state == .present))
  | .team => false
  | .barg phase => x.phase != phase
  | .dead => false

/-- Whether a slot's long wait ends now. A gang that is stopped, or a slot that a handler suspends, goes on waiting. -/
def State.waitOver (s : State) (x : Gang) (y : Tussock) (t k : Nat) : Bool :=
  x.core.isSome && !y.ended && !s.frozen x && !y.suspended k && (match (y.slots.getD k {}).wait with
    | some w => x.condMet t k w
    | none => false)

/-- The value that the end of a wait delivers. -/
def Gang.waitValue (x : Gang) (w : Wait) : Lanes 128 :=
  match w.cond with
  | .future .. => splat ((w.woken.getD 0).setWidth 128)
  | .seq ls => ls.foldl (fun v l => v.set l.1 ((x.seqOf l.2.1).setWidth 128)) (splat 0)
  | _ => splat 0

/-- Whether a wait is that of a YIELD. -/
def WaitCond.yields : WaitCond → Bool
  | .yieldReady | .yieldBarrier .. => true
  | _ => false

/-- LONG_WAIT_SATISFIED: the instruction that waited reaches its completion point and retires; a touch of a window
issues again (R43, R106). After a YIELD's wait the continuation is fetched (R197). -/
def execLongWaitSatisfied (g t k : Nat) (s : State) : Out :=
  match s.gang? g, s.tk? g t with
  | some x, some y =>
    if !s.waitOver x y t k then .next s
    else
      let w := ((y.slots.getD k {}).wait).getD { cond := .dead, start := 0 }
      let s := s.modTk g t (fun z => { z with waitSince := none })
      match w.cond with
      | .window _ => .next ((s.modSlot g t k (fun z => { z with wait := none })).noteReady g t)
      | _ =>
        let o : Op := { id := s.nextOp, gang := g, tk := t, slot := k, core := x.core, at_ := 0, mask := w.mask, p6 := w.p6, kind := .tagOnly }
        let s := (s.landLong o w.d (x.waitValue w)).statusOf o
        let s := s.modSlot g t k (fun z => { z with wait := none, fetchAt := if w.cond.yields then max z.fetchAt (s.clk (x.core.getD 0) + 1) else z.fetchAt })
        .next ((s.goto g t k w.next).noteReady g t)
  | _, _ => .next s

/-! ### PUSH_LAND (R118, R120) -/

/-- Whether an earlier push to the same slot is still on its way. -/
def State.pushBehind (s : State) (o : Op) (slot : Nat) : Bool :=
  s.ops.any (fun q => q.id < o.id && q.gang == o.gang && (match q.kind with
    | .push a _ _ _ => a == slot
    | _ => false))

/-- PUSH_LAND: a push writes the sixteen bytes of a subscription slot (R118, R120). -/
def execPushLand (op : Nat) (s : State) : Out :=
  match s.op? op with
  | none => .next s
  | some o =>
    match o.kind with
    | .push slot v add _ =>
      if !s.opDue o || s.pushBehind o slot then .next s
      else
        let put := fun (x : Gang) =>
          x.arrPut slot (bytesOfNat 16 (v.toNat + 2 ^ 64 * (((x.seqOf slot).toNat + add) % 65536)))
        .next ((s.modGang o.gang put).dropOp op)
    | _ => .next s

/-! ### LONG_LATENCY_COMPLETION (R226, R229, R284, R290, R307 to R310, R316, R320, R321) -/

/-- The 512 bits of a descriptor from its eight reads. -/
def descOf (accs : List Acc) : BitVec 512 :=
  accs.zipIdx.foldl (fun (d : BitVec 512) (e : Acc × Nat) => d ||| (e.1.val.setWidth 512 <<< (64 * e.2))) 0

/-- What a LONG_LATENCY_COMPLETION does; none where the operation is not complete. -/
def State.longDone (s : State) (o : Op) : Option State :=
  match o.kind with
  | .values d vals p6 g2 =>
    let s := s.landLong o d vals
    let s : State := match g2 with
      | some (g, v) => s.writeG o.gang o.tk g v
      | none => s
    let s : State := match p6 with
      | some m => s.status6 o m
      | none => s.statusOf o
    some (s.finishOp o)
  | .desc accs =>
    if !allDone accs then none
    else
      let s := s.modSlot o.gang o.tk o.slot (fun z =>
        if z.phase.descOp == some o.id then { z with phase := { z.phase with desc := some (descOf accs) } } else z)
      some (s.dropOp o.id)
  | .rtstate d k =>
    let v := ((s.gang? o.gang).map (fun x => x.windowState k)).getD 0
    some ((s.landLong o d (splat (BitVec.ofNat 128 v))).finishOp o)
  | .rdsr d k =>
    (match s.gang? o.gang, s.tk? o.gang o.tk with
    | some x, some y =>
      let v := s.srValue x y k
      let s : State := if y.frame.isNone && decide (0x010 ≤ k) && decide (k ≤ 0x013) then { s with seed := s.seed + 1 } else s
      some ((s.landLong o d (splat (v.setWidth 128))).finishOp o)
    | _, _ => some (s.dropOp o.id))
  | .inject array inst persist addr mask =>
    some ((s.arm { array := array, home := inst, persist := persist, addr := addr, mask := mask }).finishOp o)
  | .ckpt d tenant v ok =>
    let part := (o.who.map (·.1)).getD 0
    let s := s.modPart part (fun q => { q with ckpts := q.ckpts.filter (fun e => e.1 != tenant) })
    some (((s.landLong o d (splat (v.setWidth 128))).writeP o.gang o.tk 6 o.mask (if ok then o.mask else 0)).finishOp o)
  | _ => none

/-- LONG_LATENCY_COMPLETION: the value and status that the instruction's entry names are written, and the tag falls. -/
def execLongLatencyCompletion (op : Nat) (s : State) : Out :=
  match s.op? op with
  | none => .next s
  | some o => if s.opDue o then .next ((s.longDone o).getD s) else .next s

/-! ### FAULT_RECORD_ENTER (R402) -/

/-- ID of a fault record. -/
def recordId (r : BitVec 256) : Nat := (r.extractLsb' 96 32).toNat

/-- FAULT_RECORD_ENTER: the oldest record that waits at a core enters the buffer. -/
def execFaultRecordEnter (part : Nat) (s : State) : Out :=
  match s.part? part with
  | none => .next s
  | some p =>
    match p.waitRecs with
    | [] => .next s
    | r :: rest =>
      if 4096 ≤ p.records.length then .next s
      else .next ((s.modPart part (fun q => { q with waitRecs := rest })).enterRecord part (recordId r) r)

/-! ### IGROW_PROCEED (R308) -/

/-- Whether a slot that stalled in IGROW can issue it again: no gang of an island absorbed by its own still runs. -/
def State.growFree (s : State) (x : Gang) : Bool :=
  match x.isl with
  | none => true
  | some g =>
    match (s.part? x.part).bind (fun p => p.scenes.find? (fun sc => sc.num == g.scene)) with
    | none => true
    | some sc => (sc.pending g.island).all (fun k => k.state != .absorbed) ||
        ((sc.island? g.island).all (fun i => i.state == .absorbed || i.state == .growfail))

/-- IGROW_PROCEED. -/
def execIgrowProceed (g t k : Nat) (s : State) : Out :=
  match s.gang? g, s.slot? g t k with
  | some x, some z =>
    if z.stall == some .absorbed && s.growFree x then .next (s.modSlot g t k (fun z => { z with stall := none })) else .next s
  | _, _ => .next s

/-! ### LEAVE_GRANT (R273, R428) -/

/-- Whether a request still stands: its slot stalls for it, or its command is in flight. -/
def State.asks (s : State) (r : LeaveReq) : Bool :=
  match r.op with
  | some o => (s.op? o).isSome
  | none => ((s.slot? r.gang r.tk r.slot).map (fun z => z.stall == some (.leave r.id))).getD false

/-- Gives a command the leave that its request was granted. -/
def State.leaveOp (s : State) (op : Nat) : State :=
  s.modOp op (fun q => { q with kind := (match q.kind with
    | .loop l => .loop { l with left := true }
    | .merge m => .merge { m with left := true }
    | k => k) })

/-- LEAVE_GRANT: the head of the pool is served (R428). -/
def execLeaveGrant (req : Nat) (s : State) : Out :=
  match s.poolHead with
  | none => .next s
  | some r =>
    if r.id != req then .next s
    else
      let gone := s.modDev (fun d => { d with poolQ := d.poolQ.filter (fun q => q.id != req) })
      if !s.asks r then .next gone
      else if s.dev.pool < r.tokens then .next s
      else
        let nodes := ((s.gang? r.gang).map (·.power)).getD []
        let pay := fun (q : Partition) => { q.spend r.tenant r.tokens nodes with
          drawn := q.drawn.filter (fun e => e.1 != r.tenant) ++ [(r.tenant, q.drawnOf r.tenant + r.tokens)]
          curPool := q.curPool + r.tokens }
        let s := (gone.modDev (fun d => { d with pool := d.pool - r.tokens })).modPart r.part pay
        let s := if r.hold then s.giveTokens r.gang r.tk r.tokens else s
        match r.op with
        | some o => .next (s.leaveOp o)
        | none => .next (s.modSlot r.gang r.tk r.slot (fun z => { z with stall := none, phase := { z.phase with granted := true } }))

end Sys2Proof.Machine
end

