-- ==== Sys2Proof/Machine/Place.lean ====
section
/-! DEFINITION. Placement, the state at entry, saving and reinstating a gang's context, and ORDERED unloading (R25,
R26, R29, R30, R36, R46, R107, R250, R301, R367, R415, R416). -/

namespace Sys2Proof.Machine

open Sys2Proof

/-! ### What a gang needs and holds (R26, R29) -/

/-- The tussocks of a gang that have not ended. -/
def Gang.live (x : Gang) : List Nat := (x.tks.zipIdx.filter (fun e => !e.1.ended)).map (·.2)

/-- Main-register bytes of some tussocks of a footprint. -/
def Foot.bytesOf (f : Foot) (is : List Nat) : Nat := is.foldl (fun n i => n + 128 * f.regsOf i) 0

/-- What live tussocks of a footprint count against the ceiling of field k: RES_SLOTS, MREG_BYTES, SP_BYTES. -/
def Foot.counts (f : Foot) (is : List Nat) (k : Nat) : Nat :=
  match k with
  | 0 => is.length
  | 1 => f.bytesOf is
  | _ => f.sp

/-- What the subtree of a node of a tenant holds (none: the partition root). -/
def State.subtreeHolds (s : State) (p tenant : Nat) (node : Option Nat) (k : Nat) : Nat :=
  (s.gangs.filter (fun x => x.part == p && x.core.isSome && (match node with
    | some n => x.tenant == tenant && x.power.any (fun e => e.1 == n)
    | none => true))).foldl (fun n x => n + x.foot.counts x.live k) 0

/-- Whether a footprint fits within the ceilings of every node from its launch up to the root. -/
def State.underCeilings (s : State) (p tenant : Nat) (ch : Chain) (f : Foot) (is : List Nat) : Bool :=
  (List.range ch.length).all (fun i =>
    let sub := ch.drop i
    let node := (sub.head?).bind (·.1)
    (List.range 3).all (fun k => decide (s.subtreeHolds p tenant node k + f.counts is k ≤ effective k sub)))

/-! ### Room on a core (R29, R101) -/

/-- The lowest base at which n units lie free in an array of a size, among taken intervals (base, length). -/
def firstFit (size n : Nat) (taken : List (Nat × Nat)) : Option Nat :=
  let ok := fun (b : Nat) => decide (b + n ≤ size) && taken.all (fun e => decide (b + n ≤ e.1) || decide (e.1 + e.2 ≤ b))
  if n == 0 then some 0
  else ((0 :: taken.map (fun e => e.1 + e.2)).filter ok).foldl (fun (m : Option Nat) b => match m with
    | some x => some (min x b)
    | none => some b) none

/-- The octant where a gang's tussock 0 goes: the one with the most free resident slots, the lowest on a tie (R29). -/
def State.startOctant (s : State) (core : Nat) : Nat :=
  (List.range 8).foldl (fun o k => if (s.residents core k).length < (s.residents core o).length then k else o) 0

/-- Where a gang's scratchpad starts on a core, if the whole footprint fits alongside the gangs already there. -/
def State.fitsCore (s : State) (core : Nat) (f : Foot) (is : List Nat) : Option Nat :=
  let there := s.gangs.filter (fun x => x.core == some core)
  let o := s.startOctant core
  let octOk := fun (k : Nat) =>
    let mine := is.filter (fun i => (o + i) % 8 == k)
    let rs := s.residents core k
    decide (rs.length + mine.length ≤ 16) &&
      decide (sumOf (rs.map (fun r => 128 * r.1.foot.regsOf r.2.1)) + f.bytesOf mine ≤ 2 ^ 18)
  let tagSlots := fun (g : Foot) => match g.tags with
    | some t => 4 * t.1
    | none => 0
  let sum := fun (need : Foot → Nat) => sumOf (there.map (fun x => need x.foot)) + need f
  if (List.range 8).all octOk && decide (sum Foot.xt ≤ 32) && decide (sum Foot.yt ≤ 16) && decide (sum tagSlots ≤ 8192) then
    firstFit (2 ^ 21) f.sp (there.map (fun x => (x.spBase, x.foot.sp)))
  else none

/-- The enabled cores of a partition on which a footprint fits (R2, R29, R437). -/
def State.coresFor (s : State) (p : Partition) (f : Foot) (is : List Nat) : List Nat :=
  (List.range 192).filter (fun c => s.dev.cores.getLsbD c && p.granules.getLsbD (granuleOf c) && !(s.core c).noPlace &&
    (s.fitsCore c f is).isSome)

/-- Where tussocks' main registers start: each in its octant's file, first fit. -/
def State.mainBases (s : State) (core o : Nat) (f : Foot) (is : List Nat) : List (Nat × Nat) :=
  is.foldl (fun done i =>
    let k := (o + i) % 8
    let taken := (s.residents core k).map (fun r => (r.2.2.mBase, 128 * r.1.foot.regsOf r.2.1)) ++
      (done.filter (fun e => (o + e.1) % 8 == k)).map (fun e => (e.2, 128 * f.regsOf e.1))
    done ++ [(i, (firstFit (2 ^ 18) (128 * f.regsOf i) taken).getD 0)]) []

/-! ### The state at entry (R36, R107, R250, R301) -/

/-- The role number of R36, the index within the role, and the tussocks in the role; without a role list, of the gang
(DESIGN CHOICE, log 96). -/
def Foot.roleInfo (f : Foot) (i : Nat) : Nat × Nat × Nat :=
  match f.roleOf i with
  | some (r, j) => (r.kind, j, r.count)
  | none => (0, i, f.tus)

/-- g2 at entry. -/
def entryG2 (f : Foot) (i : Nat) : BitVec 64 :=
  let r := f.roleInfo i
  BitVec.ofNat 64 (i + f.tus * 2 ^ 8 + r.2.1 * 2 ^ 16 + r.2.2 * 2 ^ 24 + r.1 * 2 ^ 32)

/-- The base of a tussock's private block (R388). -/
def Task.privOf (t : Task) (i : Nat) : Nat := t.privBase + (t.index * t.foot.tus + i) * t.privSz

/-- The g registers at entry. -/
def entryG (t : Task) (i : Nat) (patches : Nat) : List (BitVec 64) :=
  let isl := t.isl.getD { scene := 0, island := 0, patch := 0 }
  let plain : List (BitVec 64) := match t.isl with
    | none => [t.args, BitVec.ofNat 64 t.index, entryG2 t.foot i, BitVec.ofNat 64 t.rank, BitVec.ofNat 64 t.ranks, 0]
    | some _ => [0, BitVec.ofNat 64 isl.island, entryG2 t.foot i, BitVec.ofNat 64 isl.scene, BitVec.ofNat 64 (t.step % 2 ^ 32),
                 BitVec.ofNat 64 (patches * 2 ^ 16 + isl.patch)]
  plain ++ List.replicate 57 0 ++ [BitVec.ofNat 64 (t.privOf i + t.privSz)]

/-- t7 at entry, bound as by TBIND to the private block (R36, R96); where its base has no translation it holds none (DESIGN
CHOICE, log 96). -/
def State.entryT7 (s : State) (p : Partition) (t : Task) (i : Nat) : TReg :=
  if t.privSz == 0 then {}
  else
    let base := BitVec.ofNat 48 (t.privOf i)
    (bindReg s.mem p t.tenant base).getD { bound := true, base := base }

/-- An empty slot. -/
def Slot.fresh : Slot := { queue := emptyQueue, tags := List.replicate 7 0, bregs := List.replicate 8 {} }

/-- Tussock i of a gang at entry (R36, R301). -/
def State.entryTussock (s : State) (p : Partition) (t : Task) (i oct mBase patches seq : Nat) : Tussock where
  oct := oct
  mBase := mBase
  role := (t.foot.roleInfo i).1
  readySeq := seq
  n := List.replicate 32 (splat 0)
  home := List.replicate 32 none
  m := List.replicate (t.foot.regsOf i) (splat 0)
  g := entryG t i patches
  p := List.replicate 7 0
  t := List.replicate 7 {} ++ [s.entryT7 p t i]
  s := List.replicate 4 {}
  flags := List.replicate 32 0
  sscr := List.replicate 4 0
  slots := [{ Slot.fresh with valid := true, mask := Mask.all, pc := ((t.foot.roleOf i).map (·.1.pc)).getD t.foot.entry },
            Slot.fresh]

/-- The tag table of a footprint at entry (R107): every slot empty. -/
def Foot.tagTable (f : Foot) : Option TagTable :=
  f.tags.map (fun t => { sets := t.1, z := t.2, lines := List.replicate (4 * t.1) none, used := List.replicate (4 * t.1) 0, stamp := 0 })

/-- The gang of a task on a core with the effective values of its chain (R25); the tiles are 0 (R250). -/
def State.entryGang (s : State) (p : Partition) (t : Task) (ch : Chain) (core : Nat) : Gang :=
  let f := t.foot
  let is := List.range f.tus
  let o := s.startOctant core
  let bases := s.mainBases core o f is
  let there := s.gangs.filter (fun x => x.core == some core)
  let patches := match t.isl with
    | none => 0
    | some i => (((p.scenes.find? (fun sc => sc.num == i.scene)).bind (fun sc => sc.island? i.island)).map Island.patches).getD 1
  let nodes := List.range (ch.length - 1)
  { id := t.id, part := p.num, tenant := t.tenant, core := some core
    prio := effective 6 ch, rr := effective 8 ch == 1, handler := BitVec.ofNat 48 (effective 10 ch), domain := domainOf ch
    foot := f
    spBase := (s.fitsCore core f is).getD 0
    xBase := (firstFit 32 f.xt (there.map (fun x => (x.xBase, x.foot.xt)))).getD 0
    yBase := (firstFit 16 f.yt (there.map (fun x => (x.yBase, x.foot.yt)))).getD 0
    windows := List.replicate 16 none
    tags := f.tagTable
    wqs := List.replicate 4 none
    xt := List.replicate f.xt {}
    yt := List.replicate f.yt { cells := List.replicate 4096 0 }
    power := nodes.map (fun i => ((((ch.drop i).head?).bind (·.1)).getD 0, effective 4 (ch.drop i)))
    near := (List.range ch.length).map (fun i => effective 3 (ch.drop i))
    far := effective 5 ch
    isl := t.isl
    ready := t.isl.isNone
    order := t.index
    tks := is.map (fun i => s.entryTussock p t i ((o + i) % 8) (((bases.find? (fun e => e.1 == i)).map (·.2)).getD 0) patches
      (s.nextSeq + 1)) }

/-! ### Reinstating a saved gang (R416) -/

/-- A tussock as it comes back onto a core: its place, and its rank among the ready ones. -/
def Tussock.back (y : Tussock) (oct mBase seq : Nat) : Tussock :=
  let idle := y.parked && y.slots.all (fun k => !(k.valid && !k.waitJoin && k.wait.isNone && k.park.isNone))
  { y with oct := oct, mBase := mBase, readySeq := if y.ended || idle then 0 else seq }

/-- The time for which a gang's tenant was switched out does not count for its long waits (R45). -/
def Gang.switchedIn (x : Gang) (now : Nat) : Gang :=
  let later := fun (w : Wait) => { w with start := w.start + (now - x.outAt.getD now) }
  { x with outAt := none, tks := x.tks.map (fun y => { y with slots := y.slots.map (fun k => { k with wait := k.wait.map later }) }) }

/-- One push for each subscription that was written while its gang was switched out (R122). -/
def State.missedPushes (s : State) (g : Nat) : State :=
  let due := s.subs.flatMap (fun e => (e.subs.filter (fun x => x.gang == g && x.missed != 0)).map (fun x => (e.addr, x)))
  let s := due.foldl (fun s e =>
    let d := s.delay
    (d.2.addOp (fun id => { id := id, gang := g, tk := 0, slot := 0, core := none, at_ := s.now + 1 + d.1,
                            kind := .push e.2.slot (BitVec.ofNat 64 (s.mem.read e.1 8)) e.2.missed e.1 })).1) s
  let seen := fun (x : Subscriber) => if x.gang == g then { x with missed := 0 } else x
  { s with subs := s.subs.map (fun e => { e with subs := e.subs.map seen }) }

/-- Puts a paused fill of a saved gang back as an operation (R106). -/
def State.fillResume (s : State) (g core : Nat) (f : Fill) : State :=
  let c : Copy := { desc := f.desc, bar := f.bar, window := f.window, sup := f.sup, started := true, startAt := s.clk core, done := f.done,
                    paused := some .trapped }
  (s.addOp (fun id => { id := id, gang := g, tk := f.tk, slot := f.slot, core := some core, at_ := 0, mask := f.mask, kind := .copy c })).1

/-- Puts a saved gang back on a core: its tussocks, stopped commands, paused fills, missed pushes. -/
def State.reinstate (s : State) (x : Gang) (core : Nat) : State :=
  let o := s.startOctant core
  let bases := s.mainBases core o x.foot x.live
  let there := s.gangs.filter (fun y => y.core == some core)
  let tks := x.tks.zipIdx.map (fun e =>
    e.1.back ((o + e.2) % 8) (((bases.find? (fun b => b.1 == e.2)).map (·.2)).getD 0) (s.nextSeq + 1))
  let up := fun (y : Gang) => { y with
    core := some core, stop := false, loops := [], merges := [], fills := [], tks := tks
    spBase := (s.fitsCore core x.foot x.live).getD 0
    xBase := (firstFit 32 x.foot.xt (there.map (fun g => (g.xBase, g.foot.xt)))).getD 0
    yBase := (firstFit 16 x.foot.yt (there.map (fun g => (g.yBase, g.foot.yt)))).getD 0 }
  let s : State := { s.modGang x.id up with nextSeq := s.nextSeq + 1 }
  let s := x.loops.foldl (fun s l => s.loopResume x.id core l) s
  let s := x.merges.foldl (fun s m => s.mergeResume x.id core m) s
  let s := x.fills.foldl (fun s f => s.fillResume x.id core f) s
  s.missedPushes x.id

/-! ### PLACE_GANG (R30, R46) -/

/-- A task that could be placed, with the footprint and the live tussocks that need room and the priority it is tried
with. -/
structure Waiting where
  task : Task
  prio : Nat
  ch   : Option Chain
  gang : Option Gang
  live : List Nat
  deriving DecidableEq, Repr, Inhabited

/-- Whether a task's turn within its ORDERED launch has come: every task of a lower index is resident or has ended
(R46). -/
def State.inTurn (s : State) (t : Task) : Bool :=
  !t.ordered || s.tasks.all (fun u => !(u.group == t.group && u.part == t.part && u.ordered && decide (u.index < t.index)) || u.ended ||
    ((s.gang? u.id).bind (·.core)).isSome)

/-- A task that waits for placement or reloading; a saved gang comes back once what it has seen at .grove is performed at
every home (R145). -/
def State.waitingTask (s : State) (p : Partition) (t : Task) : Option Waiting :=
  if t.ended || !t.ready || t.part != p.num then none
  else match s.gang? t.id with
  | some x => if x.core.isSome || s.now < x.settled then none
      else some { task := t, prio := x.prio, ch := s.chain p t.tenant t.launch, gang := some x, live := x.live }
  | none =>
    if t.placed || !s.tenantOk p t.tenant then none
    else (s.chain p t.tenant t.launch).map (fun ch =>
      { task := t, prio := effective 6 ch, ch := some ch, gang := none, live := List.range t.foot.tus })

/-- Whether the tenant that a partition runs takes gangs: no drain, halt or hold (R323, R381, R415). -/
def Partition.places (p : Partition) : Bool :=
  p.drain.isNone && !p.halted && p.running.any (fun t => !p.held.contains t && p.ckpts.all (fun e => e.1 != t))

/-- The cores where a waiting gang can be placed now. -/
def State.roomFor (s : State) (p : Partition) (w : Waiting) : List Nat :=
  if !s.inTurn w.task || !w.ch.all (fun ch => s.underCeilings p.num w.task.tenant ch w.task.foot w.live) then []
  else s.coresFor p w.task.foot w.live

/-- Whether a waiting gang is tried before another (R30). -/
def Waiting.before (a b : Waiting) : Bool :=
  decide (b.prio < a.prio) || (a.prio == b.prio && decide (a.task.readySeq < b.task.readySeq))

/-- The gang that a partition places next: the first in order that fits (R30). -/
def State.nextPlaced (s : State) (p : Partition) : Option Waiting :=
  if !p.places then none
  else
    let ws := (s.tasks.filterMap (s.waitingTask p)).filter (fun w => p.running == some w.task.tenant && !(s.roomFor p w).isEmpty)
    match ws with
    | [] => none
    | w :: more => some (more.foldl (fun m x => if x.before m then x else m) w)

/-- Places a waiting gang on one of the cores where it fits: which one is a free choice (R29; log 12). -/
def State.place (s : State) (p : Partition) (w : Waiting) : State :=
  let cs := s.roomFor p w
  let core := cs.getD (Config.freeChoice s.seed cs.length % max cs.length 1) 0
  let s : State := { s with seed := s.seed + 1 }
  match w.gang, w.ch with
  | some x, _ => s.reinstate x core
  | none, some ch =>
    let x := s.entryGang p w.task ch core
    let s : State := { s.modTask w.task.id (fun t => { t with placed := true }) with
      gangs := s.gangs ++ [x], nextSeq := s.nextSeq + 1 }
    if x.ready then s
    else
      let d := s.delay
      (d.2.addOp (fun id => { id := id, gang := x.id, tk := 0, slot := 0, core := none, at_ := s.now + 1 + d.1, kind := .fill none })).1
  | none, none => s

/-- PLACE_GANG (R29, R30, R46): the task's gang is placed, or its saved context reinstated, when it is the next. -/
def execPlaceGang (task : Nat) (s : State) : Out :=
  match (s.task? task).bind (fun t => s.part? t.part) with
  | none => .next s
  | some p =>
    match s.nextPlaced p with
    | some w => if w.task.id == task then .next (s.place p w) else .next s
    | none => .next s

/-! ### Saving a gang's context (R65, R272, R289, R415, R416) -/

/-- Whether a request stands at, or behind, an ISTEP or ISCENE.del that waits for a scene's gangs: a save does not wait for
those, which may be stopped themselves (log 93). -/
def State.stepHeld (s : State) (o : Op) : Bool :=
  s.ops.any (fun q => decide (q.id ≤ o.id) && (s.sameUnit q o || s.sameScene q o) && (match q.kind with
    | .task (.istep n _) _ | .task (.isceneDel n) _ =>
      (((s.partOf q).bind s.part?).bind (fun x => x.scenes.find? (fun sc => sc.num == n))).any (fun sc => !sc.stepOver)
    | _ => false))

/-- Whether an operation of a gang does not hold its save up (R65, R415): lines on their way to target buffers, page moves,
stopped or unstarted commands, a fill that waits for a handler to return, and requests that wait for a scene's gangs. -/
def State.saveSkips (s : State) (x : Gang) (o : Op) : Bool :=
  match o.kind with
  | .btLine .. | .move _ | .moveReq _ | .fill _ => true
  | .task r _ => r.island && s.stepHeld o
  | .loop l => !l.started || l.stopsHeld true
  | .merge m => !m.ended && s.ops.all (fun q => q.gang != x.id || !o.waits.contains q.id)
  | .copy c => c.paused == some .trapped
  | _ => false

/-- Whether a gang's context can be saved now. -/
def State.saveReady (s : State) (x : Gang) : Bool := s.ops.all (fun o => o.gang != x.id || s.saveSkips x o)

/-- A slot as it is saved: an instruction that has not retired issues again. -/
def Slot.saved (k : Slot) (arriving : Bool) : Slot :=
  { k.unfetched with lastIssue := none, gap := 0, yld := false, urgent := 0, stall := none, homes := [], phase := {},
                     wait := if arriving then none else k.wait }

/-- A tussock as it is saved. -/
def Tussock.saved (y : Tussock) (arriving : Nat → Bool) : Tussock :=
  { y with
    active := none, staging := none, actAt := 0, readySeq := 0, waitSince := none
    t := y.t.map (fun r => if r.bound then { r with retrans := true } else r)
    s := y.s.map (fun r => { r with due := 0 })
    slots := y.slots.mapIdx (fun k z => z.saved (arriving k)) }

/-- Stops the commands of a gang that a save stops: their records go into its context. -/
def State.stopCommands (s : State) (x : Gang) : State :=
  (s.ops.filter (fun o => o.gang == x.id)).foldl (fun s o => match o.kind with
    | .loop l =>
      if l.started then s.loopStop o l
      else if l.resumed then
        let rec_ : Loop := { id := l.id, team := l.team, word := l.word, params := l.params, bar := l.bar, barReg := l.barReg, ca := l.ca, cb := l.cb, members := l.members, step := l.step }
        (s.modGang x.id (fun y => { y with loops := y.loops ++ [rec_] })).dropOp o.id
      else s.dropOp o.id
    | .merge m => s.mergeStop o m
    | .copy c =>
      let f : Fill := { tk := o.tk, slot := o.slot, mask := o.mask, desc := c.desc, bar := c.bar, window := c.window, sup := c.sup, done := c.done }
      if c.paused == some .trapped then (s.modGang x.id (fun y => { y with fills := y.fills ++ [f] })).dropOp o.id else s
    | _ => s) s

/-- The teams of a gang that have all arrived at a matrix loop which has not started (R270). -/
def State.preparing (s : State) (g : Nat) : List Nat :=
  (s.ops.filter (fun o => o.gang == g)).filterMap (fun o => match o.kind with
    | .loop l => if l.started || l.resumed then none else some l.team
    | _ => none)

/-- Saves a gang's context, and frees its resources. Arrivals are saved with it (R269); those of a command in
preparation are discarded, and their members issue again (R270). -/
def State.savePlain (s : State) (x : Gang) : State :=
  let prep := s.preparing x.id
  let arriving := fun (t k : Nat) => x.arrivals.any (fun a => prep.contains a.team && a.members.any (fun m => m.tk == t && m.slot == k))
  let s := s.stopCommands x
  let s := (List.range x.tks.length).foldl (fun s t => s.dropTkLines x.id t) s
  let s := s.dropLocks x.id
  let s := s.modDev (fun d => { d with poolQ := d.poolQ.filter (fun r => r.gang != x.id) })
  s.modGang x.id (fun y => { y with
    core := none, stop := false, settled := (x.core.map (fun c => s.fifoAll (groveOf c))).getD 0, bwq := []
    arrivals := y.arrivals.filter (fun a => !prep.contains a.team)
    arr := y.bwq.foldl (fun m w => m.set w.addr w.byte) y.arr
    tks := y.tks.mapIdx (fun t z => z.saved (arriving t)) })

/-- The parts of a core's arrays that hold a gang's context: array code, offset and length (R16, R321). -/
def Gang.ownBytes (x : Gang) : List (Nat × Nat × Nat) :=
  [(1, x.spBase, x.foot.sp), (4, x.xBase * 8192, 8192 * x.xt.length), (5, x.yBase * 20480, 20480 * x.yt.length)] ++
  (x.tks.filter (fun y => !y.ended)).flatMap (fun y => (2, y.oct * 2 ^ 18 + y.mBase, 128 * y.m.length) ::
    (match y.active with
    | some q => [(3, y.oct * 16384 + q * 4096, 4096)]
    | none => []))

/-- A save reads the gang's context through ECC: whether an error in it lasts (R438). Bits that no check sees are saved
inverted. -/
def State.saveRead (s : State) (x : Gang) (core : Nat) : State × Bool :=
  if s.dev.injs.all (fun i => i.home != core || homed i.array) then (s, false)
  else (x.ownBytes.filter (fun q => q.2.2 != 0)).foldl (fun a q =>
    let lo := arrayAddr q.1 core q.2.1
    (a.1.hitWords q.1 core lo q.2.2).foldl (fun (a : State × Bool) w =>
      let d := a.1.readWord q.1 core w (q.2.1 + w - lo) x.part (s.readerOf x.id)
      (if d.2.2 == 0 then d.1 else d.1.flipWord q.1 core (q.2.1 + w - lo) d.2.2, a.2 || d.2.1)) a) (s, false)

/-- Saves a placed gang's context; an error that lasts in it aborts the gang's fault domain (R438). -/
def State.saveGang (s : State) (x : Gang) : State :=
  match x.core with
  | none => s
  | some core =>
    let r := s.saveRead x core
    if r.2 then r.1.abortDomain x.part x.tenant x.domain TrapCode.mchk.num 0
    else match r.1.gang? x.id with
    | some y => r.1.savePlain y
    | none => r.1

/-- Whether a tussock does not need its resident slot to go on (R46). -/
def Tussock.rests (y : Tussock) : Bool := y.ended || y.parked || y.waiting

/-- The gang of the highest index that stands in the way of a ready lower task of its ORDERED launch (R46). -/
def State.inTheWay (s : State) (p : Partition) (x : Gang) : Bool :=
  match s.task? x.id with
  | none => false
  | some t =>
    let resident := fun (u : Task) => (s.gang? u.id).filter (fun g => g.core.isSome)
    let blocked := s.tasks.any (fun u => u.ordered && u.group == t.group && u.part == t.part && decide (u.index < t.index) &&
      (match s.waitingTask p u with
      | some w => s.inTurn u && (s.roomFor p w).isEmpty &&
          s.tasks.all (fun v => !(v.group == u.group && v.part == u.part && decide (u.index < v.index)) ||
            (match resident v with
            | some g => g.tks.all Tussock.rests
            | none => true))
      | none => false))
    let last := s.tasks.all (fun v => !(v.group == t.group && v.part == t.part && decide (t.index < v.index)) || (resident v).isNone)
    t.ordered && blocked && last

/-- Whether an ORDERED unloading is to begin (its stop is made pending) or to save its gang. -/
def State.unloadDue (s : State) (x : Gang) : Bool :=
  match s.part? x.part with
  | none => false
  | some p =>
    p.places && p.running == some x.tenant && x.core.isSome && (if x.stop then s.saveReady x else s.inTheWay p x)

/-- ORDERED_UNLOAD (R46): a stop becomes pending in the gang, and then its context is saved. -/
def execOrderedUnload (gang : Nat) (s : State) : Out :=
  match s.gang? gang with
  | none => .next s
  | some x =>
    if !s.unloadDue x then .next s
    else if x.stop then .next (s.saveGang x)
    else .next (s.modGang gang (fun y => { y with stop := true }))

end Sys2Proof.Machine
end

