-- ==== Sys2Proof/Machine/Slices.lean ====
section
/-! DEFINITION. Slices, the drain, the forced save and the next tenant (R323, R381, R414, R415, R427). -/

namespace Sys2Proof.Machine

open Sys2Proof

/-- Clocks of a slice: 10 ms at the reference rate (R414, R424). -/
def sliceClocks : Nat := 27000000

/-- Clocks from a slice end to the drain deadline: 100 µs (R415, R424). -/
def drainClocks : Nat := 270000

/-- Whether a tenant has ready, resident or saved work (R414). -/
def State.hasWork (s : State) (p tenant : Nat) : Bool :=
  s.tasks.any (fun t => t.part == p && t.tenant == tenant && t.ready && !t.ended) ||
  s.gangs.any (fun x => x.part == p && x.tenant == tenant)

/-- Whether a tenant may take a turn: not held by PREEMPT or HALT, and no host checkpoint of it under way. -/
def Partition.mayRun (p : Partition) (t : Nat) : Bool :=
  !p.halted && !p.held.contains t && p.ckpts.all (fun e => e.1 != t)

/-- The tenants of a partition that have work and may run. -/
def State.turnTakers (s : State) (p : Partition) : List Nat :=
  ((s.tasks.filter (fun t => t.part == p.num)).map (·.tenant) ++ (s.gangs.filter (fun x => x.part == p.num)).map (·.tenant)).dedup.filter
    (fun t => s.hasWork p.num t && p.mayRun t)

/-- The tenant whose turn comes next: in ascending index after the one that ran last. -/
def State.nextTenant (s : State) (p : Partition) : Option Nat :=
  let far := fun (t : Nat) => (t + 255 - p.last) % 256
  (s.turnTakers p).foldl (fun (m : Option Nat) t => match m with
    | some x => if far t < far x then some t else some x
    | none => some t) none

/-- The gangs of the running tenant that are on cores. -/
def State.placedGangs (s : State) (p tenant : Nat) : List Gang :=
  s.gangs.filter (fun x => x.part == p && x.tenant == tenant && x.core.isSome)

/-- Whether the running tenant's slice is over. -/
def State.sliceOver (s : State) (p : Partition) : Bool := p.running.isSome && p.drain.isNone && decide (p.sliceEnd ≤ s.now)

/-- SLICE_END (R414, R415): the tenant drains, or its slice is renewed where no other tenant has work. -/
def execSliceEnd (part : Nat) (s : State) : Out :=
  match s.part? part with
  | none => .next s
  | some p =>
    if !s.sliceOver p then .next s
    else
      let others := (s.turnTakers p).any (fun t => p.running != some t)
      .next (s.modPart part (fun q => if others then { q with drain := some (s.now + drainClocks) }
        else { q with sliceEnd := s.now + sliceClocks }))

/-- Whether a HALT has saved everything and the checkpoints and exchanges of frames under way have completed (R323). -/
def State.haltOver (s : State) (p : Partition) : Bool :=
  p.halting.isSome && p.running.isNone && p.ckpts.isEmpty && s.ops.all (fun o => match o.kind with
    | .swap .. | .ckpt .. => o.who.all (fun w => w.1 != p.num)
    | _ => true)

/-- Whether a drain deadline has work to do: a HALT to report, stops to make pending, or every context ready to be saved. -/
def State.deadlineDue (s : State) (p : Partition) : Bool :=
  s.haltOver p ||
  (match p.running, p.drain with
  | some t, some d =>
    decide (d ≤ s.now) && ((s.placedGangs p.num t).any (fun x => !x.stop) || (s.placedGangs p.num t).all (fun x => s.saveReady x))
  | _, _ => false)

/-- The gangs of a tenant begin or end a time switched out (R45). -/
def State.switchTenant (s : State) (p tenant : Nat) (f : Gang → Gang) : State :=
  { s with gangs := s.gangs.map (fun x => if x.part == p && x.tenant == tenant then f x else x) }

/-- A gang of a tenant that is switched out from now on. -/
def Gang.switchedOut (x : Gang) (now : Nat) : Gang := { x with outAt := some (x.outAt.getD now) }

/-- DRAIN_DEADLINE (R323, R415): stops become pending in every gang of the tenant that is left, and once each can be
saved, all are. A partition that HALT stopped sends PART_HALT once nothing of it is under way. -/
def execDrainDeadline (part : Nat) (s : State) : Out :=
  match s.part? part with
  | none => .next s
  | some p =>
    if !s.deadlineDue p then .next s
    else if s.haltOver p then
      .next ((s.modPart part (fun q => { q with halting := none })).event part 0x84 ((p.halting.getD 0).setWidth 64) 0 0)
    else
      let t := p.running.getD 0
      let gs := s.placedGangs part t
      if gs.any (fun x => !x.stop) then
        .next { s with gangs := s.gangs.map (fun x => if x.part == part && x.tenant == t && x.core.isSome then { x with stop := true } else x) }
      else
        let s := (gs.foldl (fun s x => s.saveGang ((s.gang? x.id).getD { x with core := none })) s).switchTenant part t (fun x => x.switchedOut s.now)
        .next (s.modPart part (fun q => { q with running := none, drain := none, last := t }))

/-- The tenant that starts its turn now, if any: the running one has saved everything, or has no work left. -/
def State.turnDue (s : State) (p : Partition) : Option Nat :=
  let free := match p.running with
    | none => true
    | some t => (s.placedGangs p.num t).isEmpty && (p.drain.isSome || !s.hasWork p.num t)
  if free && p.halting.isNone then (s.nextTenant p).filter (fun t => p.running != some t || p.drain.isSome) else none

/-- The effective POWER_TOKENS of a tenant, from its RCB as it stands (R25). -/
def State.tenantTokens (s : State) (p : Partition) (tenant : Nat) : Nat :=
  match (s.tenantRcb p tenant).bind (fun a => (s.rcb p tenant a).map (fun r => (a, r))) with
  | some (a, r) => effective 4 [(some a, r), (none, p.root)]
  | none => 0

/-- The bucket passes to the incoming tenant, up to its POWER_TOKENS; the rest goes to the pool (R427). -/
def State.passBucket (s : State) (p : Partition) (tenant : Nat) : State :=
  let keep := min p.bucket (s.tenantTokens p tenant)
  (s.modPart p.num (fun q => { q with bucket := keep })).poolAdd (p.bucket - keep)

/-- The saved gangs of a tenant in the order in which they are tried. -/
def State.reloads (s : State) (p : Partition) (tenant : Nat) : List Waiting :=
  (s.tasks.filterMap (s.waitingTask p)).filter (fun w => w.task.tenant == tenant && w.gang.isSome) |>.mergeSort (fun a b => !b.before a)

/-- TENANT_RESTORE (R414 to R416, R427): the next tenant's turn starts; its saved gangs that fit come back, the others as
room appears. -/
def execTenantRestore (part : Nat) (s : State) : Out :=
  match s.part? part with
  | none => .next s
  | some p =>
    match s.turnDue p with
    | none => .next s
    | some t =>
      let last := p.running.getD p.last
      let s := s.passBucket p t
      let s := s.modPart part (fun q => { q with running := some t, drain := none, last := last, sliceEnd := s.now + sliceClocks })
      let s := p.running.elim s (fun u => s.switchTenant part u (fun x => x.switchedOut s.now))
      let s := s.switchTenant part t (fun x => x.switchedIn s.now)
      .next ((s.reloads p t).foldl (fun s w =>
        match s.part? part with
        | some q => if (s.roomFor q w).isEmpty then s else s.place q w
        | none => s) s)

end Sys2Proof.Machine
end

