-- ==== Sys2Proof/Machine/Power.lean ====
section
/-! DEFINITION. The 100 µs interval, the buckets and the pool, minima after a retirement, operating points, the patrol
scrub and ports that go down (R424 to R431, R436, R450). -/

namespace Sys2Proof.Machine

open Sys2Proof

/-- Clocks of an interval (R424, R427). -/
def intervalClocks : Nat := 270000

/-- The clock of an interval at which the buckets are swept (R427). -/
def sweepClock : Nat := 135000

/-- DEV_TOKENS (R425): floor(3,163.5 × n) for n enabled cores. -/
def Device.tokens (d : Device) : Nat := 6327 * ((List.range 192).filter (fun c => d.cores.getLsbD c)).length / 2

/-! ### Minima (R431) -/

/-- Scales the minima on a resource of which less is left than they total, and tells the partitions. -/
def State.cutMinima (s : State) (kind index cap : Nat) (get : Partition → Nat) (set : Partition → Nat → Partition) : State :=
  let total := sumOf (s.parts.map get)
  if total ≤ cap then s
  else (s.parts.filter (fun p => get p != 0)).foldl (fun s p =>
    let m := get p * cap / total
    (s.modPart p.num (fun q => set q m)).event p.num 0x86 (BitVec.ofNat 64 (kind + 256 * index)) (BitVec.ofNat 64 m) 0) s

/-- Scales the power minima and the floors of every port. -/
def State.cutAll (s : State) : State :=
  let s := s.cutMinima 0 0 s.dev.tokens Partition.powerMin (fun p m => { p with powerMin := m })
  (List.range 32).foldl (fun s k =>
    s.cutMinima (if k < 16 then 1 else 2) (k % 16) (s.dev.portCap k) (fun p => p.floors.getD k 0)
      (fun p m => { p with floors := p.floors.set k m })) s

/-! ### The interval (R427, R428) -/

/-- The bucket of a partition at the start of an interval. -/
def State.newBucket (s : State) (p : Partition) : Nat :=
  match p.running with
  | some t => min (s.tenantTokens p t) p.powerMin
  | none => 0

/-- A command that was capped and still runs draws again, for what it has left to do: tokens that its tussocks hold first,
then as a request (R273, R428). -/
def State.drawAgain (s : State) (op : Nat) : State :=
  match s.op? op with
  | none => s
  | some o =>
    let again := fun (on : Bool) (ts : List Nat) (need : Nat) =>
      if on && !s.opAsks op then (s.seekLeave o.gang ts o.tk o.slot need (some op)).1 else s
    match o.kind with
    | .loop l => again (l.started && l.capped) l.tks l.tokens
    | .merge m => again (m.started && !m.ended && m.capped) [o.tk] m.tokens
    | _ => s

/-- Whether an interval begins now. -/
def State.intervalDue (s : State) : Bool := decide (s.dev.intStart + intervalClocks ≤ s.now)

/-- INTERVAL_START (R424, R427 to R431): minima that no longer fit are scaled, the buckets and the pool are filled, held
tokens lapse, the counts of the interval restart, and capped commands draw again. -/
def execIntervalStart (s : State) : Out :=
  if !s.intervalDue then .next s
  else
    let s := s.cutAll.carryPool
    let part := fun (p : Partition) => { p with
      bucket := s.newBucket p, spent := [], drawn := [], lastPool := p.curPool, lastBucket := p.curBucket, curPool := 0, curBucket := 0 }
    let parts := s.parts.map part
    let lapsed := sumOf (s.gangs.map (fun x => sumOf (x.tks.map (·.tokens))))
    let dev := fun (d : Device) => { d with
      intStart := d.intStart + intervalClocks, swept := false, arb := d.freshCounters
      pool := d.tokens - sumOf (parts.map (·.bucket)) + lapsed, warm := d.hot
      cool := (d.cool.zip d.warm).map (fun e => if e.2 then 0 else e.1 + 1) }
    let gang := fun (x : Gang) => { x with tks := x.tks.map (fun (y : Tussock) => { y with tokens := 0 }) }
    let s : State := { s with parts := parts, gangs := s.gangs.map gang, dev := dev s.dev }
    .next ((s.ops.map (·.id)).foldl (fun s o => s.drawAgain o) s)

/-- Whether the buckets are swept now. -/
def State.sweepDue (s : State) : Bool := !s.dev.swept && decide (s.dev.intStart + sweepClock ≤ s.now)

/-- BUCKET_SWEEP (R427): every token left in a bucket moves to the pool. -/
def execBucketSweep (s : State) : Out :=
  if !s.sweepDue then .next s
  else
    let left := sumOf (s.parts.map (·.bucket))
    .next { s with parts := s.parts.map (fun p => { p with bucket := 0 }), dev := { s.dev with swept := true, pool := s.dev.pool + left } }

/-! ### Operating points (R424) -/

/-- The granules of a die. -/
def dieGranules (die : Nat) : List Nat := (List.range 6).map (fun k => 6 * die + k)

/-- The number of the current interval, from 1. -/
def State.interval (s : State) : Nat := s.dev.intStart / intervalClocks + 1

/-- Whether a die may step in this interval: no step has been made in it. -/
def State.mayStep (s : State) (die : Nat) : Bool := s.dev.stepped.getD die 0 != s.interval

/-- Whether a die steps down now. -/
def State.downDue (s : State) (die : Nat) : Bool :=
  s.dev.hot.getD die false && s.mayStep die &&
  (dieGranules die).any (fun g => s.dev.points.getD g .off == .p0 || s.dev.points.getD g .off == .p1)

/-- Whether a die steps up now. -/
def State.upDue (s : State) (die : Nat) : Bool :=
  !s.dev.hot.getD die false && s.mayStep die && decide (10 ≤ s.dev.cool.getD die 0) &&
  (dieGranules die).any (fun g => s.dev.points.getD g .off == .p1 || s.dev.points.getD g .off == .p2)

/-- Moves the granule islands of a die. -/
def State.stepDie (s : State) (die : Nat) (f : Point → Point) : State :=
  s.modDev (fun d => { d with
    points := d.points.mapIdx (fun k p => if (dieGranules die).contains k then f p else p)
    stepped := d.stepped.set die s.interval })

/-- One point down. -/
def Point.down : Point → Point
  | .p0 => .p1
  | .p1 => .p2
  | p => p

/-- One point up. -/
def Point.up : Point → Point
  | .p2 => .p1
  | .p1 => .p0
  | p => p

/-- THERMAL_STEP_DOWN (R424). -/
def execThermalStepDown (die : Nat) (s : State) : Out :=
  if s.downDue die then .next (s.stepDie die Point.down) else .next s

/-- THERMAL_STEP_UP (R424). -/
def execThermalStepUp (die : Nat) (s : State) : Out :=
  if s.upDue die then .next (s.stepDie die Point.up) else .next s

/-! ### The patrol scrub (R436) -/

/-- The words of near memory. -/
def nearWords : Nat := 805306368

/-- Clocks from one word of the scrub to the next, so that every word is read in 24 hours. -/
def scrubClocks : Nat := 289678

/-- The partition that owns a near slice; 63 if none. -/
def State.sliceOwner (s : State) (slice : Nat) : Nat :=
  ((s.parts.find? (fun p => p.granules.getLsbD (slice / 2))).map (·.num)).getD 63

/-- Whether a word is scrubbed now. -/
def State.scrubDue (s : State) (word : Nat) : Bool :=
  decide ((s.dev.scrub + 1) * scrubClocks ≤ s.now) && word == s.dev.scrub % nearWords

/-- PATROL_SCRUB (R436): one near-memory word is read; a lasting event is sent as an event only. -/
def execPatrolScrub (word : Nat) (s : State) : Out :=
  if !s.scrubDue word then .next s
  else
    let slice := word / 2 ^ 23
    let r := s.eccRead 0 slice (8 * word) 8 (s.sliceOwner slice) none
    .next (r.s.modDev (fun d => { d with scrub := d.scrub + 1 }))

/-! ### Ports (R450) -/

/-- Clocks of 1 s (R424). -/
def secondClocks : Nat := 2700000000

/-- Whether a port's link has been down for 1 s. -/
def State.portLost (s : State) (port : Nat) : Bool :=
  s.dev.downSince.any (fun e => e.1 == port && decide (e.2 + secondClocks ≤ s.now))

/-- PORT_LINK_DOWN (R450): a port whose link has stayed down for 1 s is retired; its floors fall at the next interval. -/
def execPortLinkDown (port : Nat) (s : State) : Out :=
  if !s.portLost port then .next s
  else .next (s.modDev (fun d => { d with
    downSince := d.downSince.filter (fun e => e.1 != port)
    cxlUp := if port < 16 then d.cxlUp &&& ~~~(BitVec.ofNat 16 (2 ^ port)) else d.cxlUp
    ethUp := if port < 16 then d.ethUp else d.ethUp &&& ~~~(BitVec.ofNat 16 (2 ^ (port - 16))) }))

end Sys2Proof.Machine
end

