-- ==== Sys2Proof/Machine/Commands.lean ====
section
/-! DEFINITION. Host commands on memory, launches, runs, faults, migration and telemetry (R381 to R391, R402, R403, R405,
R417, R444, R451, R453). -/

namespace Sys2Proof.Machine

open Sys2Proof

/-! ### MEM_WRITE and MEM_READ (R381, R382, R417, R451) -/

/-- Cuts a range at page boundaries: start and length of each piece. -/
def pageCuts (a n : Nat) : Nat → List (Nat × Nat)
  | 0 => []
  | fuel + 1 =>
    if n == 0 then []
    else
      let k := min n (65536 - a % 65536)
      (a, k) :: pageCuts (a + k) (n - k) fuel

/-- A range as the host reaches it: its pieces with X and length, or a page that moves, or an address it cannot
reach. -/
inductive HostMap where
  | ok (l : List (Nat × Bool × Nat))
  | wait
  | bad
  deriving DecidableEq, Repr, Inhabited

/-- One more page of a host's range; the first page that moves or cannot be reached decides. -/
def HostMap.step (h : HostMap) (w : Walk) (n : Nat) : HostMap :=
  match h, w with
  | .ok l, .pa a _ _ _ _ _ x _ => .ok (l ++ [(a, x, n)])
  | .ok _, .moving _ => .wait
  | .ok _, _ => .bad
  | h, _ => h

/-- Translates a host's virtual range through a tenant's tables (R451). -/
def State.hostMap (s : State) (p : Partition) (tenant va n : Nat) : HostMap :=
  (pageCuts va n (n / 65536 + 2)).foldl (fun h c => h.step (walk s.mem p tenant c.1 .host true) c.2) (.ok [])

/-- A host's physical range, which must lie in the partition (R451). -/
def Partition.physMap (p : Partition) (pa n : Nat) : HostMap :=
  if (pageCuts pa n (n / 65536 + 2)).all (fun c => p.owns c.1 c.2) then .ok ((pageCuts pa n (n / 65536 + 2)).map (fun c => (c.1, false, c.2)))
  else .bad

/-- The range of a MEM_WRITE or MEM_READ. -/
def State.memRange (s : State) (m : JcpMsg) (p : Partition) (n : Nat) : HostMap :=
  if argOf m 1 == 1 then p.physMap (argOf m 0) n else s.hostMap p (hdrTenant m.hdr) (argOf m 0) n

/-- The demand of a host transfer at the first Ethernet port of a partition's share that is up (R429, R450). -/
def State.hostDemand (s : State) (p : Partition) (n : Nat) : State :=
  match (List.range 16).find? (fun k => p.eth.getLsbD k && s.dev.ethUp.getLsbD k) with
  | some k => s.demandAt (112 + k) p.num 0 (unitsOf n false)
  | none => s

/-- Sets a tenant's measurement. -/
def Partition.setMeasure (p : Partition) (tenant : Nat) (v : BitVec 512) : Partition :=
  { p with measures := p.measures.filter (fun e => e.1 != tenant) ++ [(tenant, v)] }

/-- The measurement after a write to executable pages (R417). -/
def extend (v : BitVec 512) (va : Nat) (payload : List Byte) : BitVec 512 :=
  digest (bytesOfNat 64 v.toNat ++ bytesOfNat 8 va ++ sha512 payload)

/-- The tenants that exist. -/
def State.tenants (s : State) (p : Partition) : List Nat := allTenants.filter (fun t => (s.tenantRcb p t).isSome)

/-- Answers a MEM_WRITE once every byte is performed and what its completion waits for is gone (R397). -/
def State.memWritten (s : State) (m : JcpMsg) (waits : List Nat) : State :=
  if waits.all (fun w => (s.op? w).isNone) then s.respond m 0 0 []
  else s.modEndpoint (hdrPart m.hdr) (hdrEp m.hdr) (fun e => { e with waits := some waits })

/-- The writes of a MEM_WRITE, and what they mean for measurements. -/
def State.memWriteGo (s : State) (m : JcpMsg) (p : Partition) : State :=
  let tenant := hdrTenant m.hdr
  match s.memRange m p m.payload.length with
  | .bad => s.respond m 8 0 []
  | .wait => s
  | .ok ls =>
    let before := if argOf m 1 == 1 then s.tenants p else []
    let parts := (ls.map (·.1)).zip (cutBytes (ls.map (·.2.2)) m.payload)
    let w := parts.foldl (fun (a : State × List Nat) e =>
      let q := a.1.homePut e.1 e.2 (e.2.length + 1)
      (q.1, a.2 ++ q.2)) (s.hostDemand p m.payload.length, [])
    let s := w.1
    let new := if argOf m 1 == 1 then (s.tenants p).filter (fun t => !before.contains t) else []
    let fresh := fun (q : Partition) => new.foldl (fun q t => q.setMeasure t 0) q
    let code := ls.any (fun e => e.2.1)
    let s := s.modPart p.num (fun q => if code then q.setMeasure tenant (extend (q.measureOf tenant) (argOf m 0) m.payload) else fresh q)
    s.memWritten m w.2

/-- MEM_WRITE. -/
def execMemWrite (m : JcpMsg) (s : State) : Out :=
  s.command m (fun s p => s.memWriteGo m p) (fun s p =>
    match (s.endpoint? p.num (hdrEp m.hdr)).bind (·.waits) with
    | some l => s.memWritten m l
    | none => s.memWriteGo m p)

/-- Reads bytes for the host: those of a failing word are free (R438). -/
def State.hostRead (s : State) (p : Partition) (pa n : Nat) : State × List Byte :=
  if s.sound then (s, s.mem.bytes pa n)
  else (List.range ((pa + n - 1) / 8 - pa / 8 + 1)).foldl (fun (a : State × List Byte) i =>
    let lo := max pa (8 * (pa / 8 + i))
    let len := min (pa + n) (8 * (pa / 8 + i) + 8) - lo
    let e := a.1.eccGlobal p lo len none
    let f := e.s.free
    let v := if e.lasting then f.1.toNat else e.s.mem.read lo len ^^^ e.flip.toNat
    (if e.lasting then f.2 else e.s, a.2 ++ bytesOfNat len v)) (s, [])

/-- The answer of a MEM_READ. -/
def State.memReadGo (s : State) (m : JcpMsg) (p : Partition) : State :=
  match s.memRange m p (argOf m 2) with
  | .bad => s.respond m 8 0 []
  | .wait => s
  | .ok ls =>
    let r := ls.foldl (fun (a : State × List Byte) e =>
      let q := a.1.hostRead p e.1 e.2.2
      (q.1, a.2 ++ q.2)) (s.hostDemand p (argOf m 2), [])
    r.1.respond m 0 0 r.2

/-- MEM_READ. -/
def execMemRead (m : JcpMsg) (s : State) : Out := s.command m (fun s p => s.memReadGo m p) (fun s p => s.memReadGo m p)

/-! ### LAUNCH (R28, R33, R35, R385 to R391) -/

/-- An RCB that a command needs, or the status that refuses it. -/
def State.needRcb (s : State) (p : Partition) (tenant va : Nat) : Except Nat (BitVec 1024) :=
  if va % 64 != 0 then .error 5
  else match s.rcb p tenant va with
  | some r => .ok r
  | none => .error 8

/-- An RCB of a kind that a command needs, or the status that refuses it. -/
def State.needNode (s : State) (p : Partition) (tenant kind va : Nat) : Except Nat (BitVec 1024) :=
  match s.needRcb p tenant va with
  | .error e => .error e
  | .ok r => if rcbKind r == kind && rcbReservedZero r then .ok r else .error 5

/-- The chain of a launch node, or the status that refuses it, judged from the launch up (R23, R387). -/
def State.tree (s : State) (p : Partition) (tenant launch : Nat) : Except Nat Chain :=
  match s.needNode p tenant 3 launch with
  | .error e => .error e
  | .ok l => match s.needNode p tenant 2 (rcbParent l) with
    | .error e => .error e
    | .ok j => match s.needNode p tenant 1 (rcbParent j) with
      | .error e => .error e
      | .ok _ => match (s.chain p tenant launch).filter (fun _ => s.tenantOk p tenant) with
        | some ch => .ok ch
        | none => .error 5

/-- What this device makes of a launch: the template, its first index and its count, its rank, the ranks, and their
fabric addresses. -/
structure Share where
  tmpl  : Template
  first : Nat
  count : Nat
  rank  : Nat := 0
  ranks : Nat := 1
  feps  : List (BitVec 64) := []
  deriving DecidableEq, Repr, Inhabited

/-- The share that a PGT gives this device (R390, R391). -/
def State.groupShare (s : State) (p : Partition) (tenant obj n : Nat) : Except Nat Share :=
  if obj % 8 != 0 then .error 5
  else match s.vreadN p tenant obj 8 with
  | none => .error 8
  | some raw =>
    let h := BitVec.ofNat 512 raw
    let d := (h.extractLsb' 64 12).toNat + 1
    let entries := (List.range d).map (fun i => s.vreadN p tenant (obj + 64 + 16 * i) 2)
    let es := entries.map (fun e => BitVec.ofNat 128 (e.getD 0))
    if h.extractLsb' 76 436 != 0 || h.extractLsb' 48 16 != 0 then .error 5
    else if entries.any (·.isNone) then .error 8
    else match (es.zipIdx.filter (fun e => e.1.extractLsb' 0 64 == Config.deviceId)).map (·.2) with
    | [r] =>
      (match s.template p tenant (h.extractLsb' 0 48).toNat 0 with
      | .error e => .error e
      | .ok t => .ok { tmpl := t, first := n * r / d, count := n * (r + 1) / d - n * r / d, rank := r, ranks := d,
                       feps := es.map (fun e => e.extractLsb' 64 64) })
    | _ => .error 12

/-- The tasks of a launch. -/
def State.launchTasks (s : State) (p : Partition) (tenant launch job : Nat) (ordered : Bool) (sh : Share) : State :=
  let s := s.jobUp p.num tenant job sh.count
  let s := if sh.feps.isEmpty then s else s.modJob p.num tenant job (fun j => { j with feps := sh.feps, rank := sh.rank })
  let group := s.nextSeq
  (List.range sh.count).foldl (fun s i =>
    (s.addTask { id := 0, part := p.num, tenant := tenant, job := job, launch := launch, group := group, ordered := ordered,
                 index := sh.first + i, depth := 1, ctr := sh.tmpl.ctr, foot := sh.tmpl.foot, args := sh.tmpl.args,
                 privBase := sh.tmpl.base, privSz := sh.tmpl.size, rank := sh.rank, ranks := sh.ranks }).1) s

/-- The effect of a LAUNCH. -/
def State.launchGo (s : State) (m : JcpMsg) (p : Partition) : State :=
  let tenant := hdrTenant m.hdr
  match s.tree p tenant (argOf m 0) with
  | .error e => s.respond m e 0 []
  | .ok ch =>
    let l := (ch.map (·.2)).headD 0
    match launchWords l with
    | none => s.respond m 5 0 []
    | some (kind, obj, n, ordered) =>
      let share : Except Nat Share := if kind == 2 then s.groupShare p tenant obj n
        else match s.template p tenant obj kind with
          | .error e => .error e
          | .ok t => .ok { tmpl := t, first := 0, count := n }
      match share with
      | .error e => s.respond m e 0 []
      | .ok sh =>
        if footNever ch sh.tmpl.foot then s.respond m 6 0 []
        else
          let s := (s.launchTasks p tenant (argOf m 0) (rcbParent l) ordered sh).respond m 0 0 []
          if sh.count == 0 then s.closeJobs p.num else s

/-- LAUNCH. -/
def execLaunch (m : JcpMsg) (s : State) : Out := s.command m (fun s p => s.launchGo m p) (fun s _ => s)

/-! ### PREEMPT and RESUME (R381, R384, R415, R444) -/

/-- The tenants that a PREEMPT or RESUME names. -/
def namedTenants (m : JcpMsg) : List Nat := if argOf m 0 == 1 then allTenants else [hdrTenant m.hdr]

/-- Whether a data message of one of some tenants has not been acknowledged (R444). -/
def State.unacked (s : State) (p : Nat) (ts : List Nat) : Bool :=
  s.ops.any (fun o => (match o.kind with
    | .task (.remote ..) _ | .task (.rspawn ..) _ | .task (.rsig ..) _ => true
    | _ => false) && o.who.any (fun w => w.1 == p && ts.contains w.2))

/-- Goes on with a PREEMPT: it waits for the checkpoints of its tenants under way (R384), then they are held, a slice end
whose deadline has passed, and it answers once the contexts are saved. -/
def State.preemptGo (s : State) (m : JcpMsg) (p : Partition) : State :=
  let ts := namedTenants m
  if p.ckpts.any (fun e => ts.contains e.1) then s
  else
    let s := s.holdTenants p.num ts
    if p.running.any (fun t => ts.contains t) || s.unacked p.num ts then s else s.respond m 0 0 []

/-- PREEMPT (R381, R384). -/
def execPreempt (m : JcpMsg) (s : State) : Out := s.command m (fun s p => s.preemptGo m p) (fun s p => s.preemptGo m p)

/-- Whether the contexts of resumed tenants are reinstated: none of them is saved, or one of them has its turn and no
saved gang of it fits now. -/
def State.reinstated (s : State) (p : Partition) (ts : List Nat) : Bool :=
  s.gangs.all (fun x => x.part != p.num || !ts.contains x.tenant || x.core.isSome) ||
  p.running.any (fun t => ts.contains t && p.drain.isNone && (s.reloads p t).all (fun w => (s.roomFor p w).isEmpty))

/-- Goes on with a RESUME: a HALT that still saves completes first; then the holds fall, and it waits for the
contexts. -/
def State.resumeGo (s : State) (m : JcpMsg) (p : Partition) : State :=
  let ts := namedTenants m
  match (s.endpoint? p.num (hdrEp m.hdr)).bind (·.waits) with
  | some _ => if s.reinstated p ts then s.respond m 0 0 [] else s
  | none =>
    if p.halting.isSome then s
    else
      let s := s.modPart p.num (fun q => { q with held := q.held.filter (fun t => !ts.contains t), halted := false })
      s.modEndpoint p.num (hdrEp m.hdr) (fun e => { e with waits := some [] })

/-- RESUME. -/
def execResume (m : JcpMsg) (s : State) : Out := s.command m (fun s p => s.resumeGo m p) (fun s p => s.resumeGo m p)

/-! ### Fault records (R402, R403) -/

/-- FAULT_FETCH: the oldest records leave the buffer. -/
def execFaultFetch (m : JcpMsg) (s : State) : Out :=
  s.command m (fun s p =>
    let out := p.records.take (argOf m 0)
    let s := s.modPart p.num (fun q => { q with records := q.records.drop out.length, bufferHead := (q.bufferHead + out.length) % 4096 })
    s.respond m 0 0 (out.flatMap (fun r => bytesOfNat 32 r.2.toNat))) (fun s _ => s)

/-- Makes ready what is parked on a fault record, in saved contexts too (R403). -/
def State.replayId (s : State) (p id : Nat) : State :=
  let mine := fun (q : Option Park) => q == some (.fault id)
  let gs := (s.gangs.filter (fun x => x.part == p)).map (·.id)
  let slots := s.gangs.flatMap (fun x => if x.part != p then [] else x.tks.zipIdx.flatMap (fun t =>
    (t.1.slots.zipIdx.filter (fun k => mine k.1.park)).map (fun k => (x.id, t.2, k.2))))
  let s := slots.foldl (fun s q => (s.modSlot q.1 q.2.1 q.2.2 (fun z => { z with park := none })).noteReady q.1 q.2.1) s
  let merge := fun (m : Merge) => if mine m.paused then { m with paused := none } else m
  { s with
    gangs := s.gangs.map (fun x => if x.part == p then { x with merges := x.merges.map merge } else x)
    ops := s.ops.map (fun o => if !gs.contains o.gang then o else { o with kind := (match o.kind with
      | .copy c => if mine c.paused then .copy { c with paused := none } else .copy c
      | .merge m => .merge (merge m)
      | .fill q => if mine q then .fill none else .fill q
      | k => k) }) }

/-- The 4-byte numbers of a payload. -/
def words4 (bs : List Byte) : List Nat := (List.range (bs.length / 4)).map (fun i => natOfBytes ((bs.drop (4 * i)).take 4))

/-- REPLAY: every slot and engine command parked on a record that is named goes on; other IDs are ignored. -/
def execReplay (m : JcpMsg) (s : State) : Out :=
  s.command m (fun s p => ((words4 m.payload).foldl (fun s id => s.replayId p.num id) s).respond m 0 0 []) (fun s _ => s)

/-! ### MIGRATE (R405) -/

/-- MIGRATE: its portions are judged one by one; the last one that is dealt with answers it. -/
def execMigrate (m : JcpMsg) (s : State) : Out :=
  s.command m (fun s p =>
    (List.range (argOf m 1)).foldl (fun s i =>
      let q : PageMove := { va := argOf m 0 + 65536 * i, entry := 0, mark := 0, old := 0, src := 0, dst := 0, part := p.num,
                            tenant := hdrTenant m.hdr, near := argOf m 2 == 0, link := none,
                            cmd := some (hdrEp m.hdr, hdrSeq m.hdr) }
      s.moveOp 0 s.now [] (.moveReq q)) s) (fun s _ => s)

/-! ### TELEM (R381, R439, R453) -/

/-- Selector 0: the enabled-core mask. -/
def execTelemCoreMask (m : JcpMsg) (s : State) : Out :=
  s.mgmtCommand m (fun s => s.respond m 0 0 (bytesOfNat 24 s.dev.cores.toNat))

/-- A job's record. -/
def Job.record (j : Job) : BitVec 256 :=
  BitVec.ofNat 32 j.failed ++ BitVec.ofNat 32 j.done ++ BitVec.ofNat 32 j.under ++ BitVec.ofNat 32 j.out ++ 0#56 ++
  BitVec.ofNat 8 j.tenant ++ 0#16 ++ BitVec.ofNat 48 j.rcb

/-- The jobs that are reported, by their RCB addresses. -/
def Partition.reported (p : Partition) : List Job :=
  (p.jobs.filter (fun j => j.out != 0)).mergeSort (fun a b => decide (a.rcb < b.rcb) || (a.rcb == b.rcb && decide (a.tenant ≤ b.tenant)))

/-- A partition's record. -/
def State.partRecord (s : State) (p : Partition) (jobs : Nat) (trunc : Bool) : BitVec 512 :=
  let gs := s.gangs.filter (fun x => x.part == p.num && x.core.isSome)
  let ready := (s.tasks.filter (fun t => t.part == p.num && t.ready && !t.ended && (s.gang? t.id).isNone)).length
  0#128 ++ BitVec.ofNat 64 p.lastPool ++ BitVec.ofNat 64 p.lastBucket ++ BitVec.ofNat 64 ready ++
  BitVec.ofNat 64 (p.framesOf 0 none) ++ BitVec.ofNat 64 (sumOf (gs.map (fun x => x.live.length))) ++ BitVec.ofNat 32 jobs ++
  BitVec.ofBool trunc ++ 0#15 ++ BitVec.ofNat 8 ((p.running.getD 0 % 256)) ++ 0#2 ++ BitVec.ofNat 6 p.num

/-- The records of partitions, within a number of bytes: those that fit, TRUNC in the last partition record where some
are left out. -/
def State.jobRecords (s : State) : List Partition → Nat → List Byte
  | [], _ => []
  | p :: ps, room =>
    let js := p.reported
    let n := min js.length ((room - 64) / 32)
    let left := room - 64 - 32 * n
    let more := !ps.isEmpty && decide (left < 64)
    if room < 64 then []
    else bytesOfNat 64 (s.partRecord p n (decide (n < js.length) || more)).toNat ++
      (js.take n).flatMap (fun j => bytesOfNat 32 j.record.toNat) ++ (if n < js.length then [] else s.jobRecords ps left)

/-- The partitions that a TELEM covers: one, or all in ascending order. -/
def State.covered (s : State) (m : JcpMsg) : List Partition :=
  (s.parts.filter (fun p => hdrPart m.hdr == 63 || p.num == hdrPart m.hdr)).mergeSort (fun a b => decide (a.num ≤ b.num))

/-- Selector 1: partition and job records. -/
def execTelemJobRecords (m : JcpMsg) (s : State) : Out :=
  s.mgmtCommand m (fun s => s.respond m 0 0 (s.jobRecords (s.covered m) (2 ^ 22)))

/-- Selector 2: the service units of this interval, eight bytes for each of the 128 channels (log 40). -/
def execTelemServiceUnits (m : JcpMsg) (s : State) : Out :=
  s.mgmtCommand m (fun s =>
    let units := fun (ch : Nat) => sumOf ((s.dev.arb.filter (fun e => e.ch == ch && e.job != wholePart &&
      (hdrPart m.hdr == 63 || e.part == hdrPart m.hdr))).map (·.served))
    s.respond m 0 0 ((List.range 128).flatMap (fun ch => bytesOfNat 8 (units ch))))

/-- Selector 3: every valid entry of the device's error logs. -/
def execTelemErrorLog (m : JcpMsg) (s : State) : Out :=
  s.mgmtCommand m (fun s => s.respond m 0 0 (s.dev.logs.flatMap (fun l => bytesOfNat 32 l.entry.toNat)))

/-! ### Peers (R35, R292, R294, R377, R391, R444; log 13) -/

/-- The partition whose endpoint 0 takes a data message: the sender is in the PGT of one of its tenant's jobs (R377). A
partition that ends takes none. -/
def State.dataPart (s : State) (m : JcpMsg) : Option Partition :=
  if hdrVer m.hdr != 1 || hdrEp m.hdr != 0 then none
  else (s.part? (hdrPart m.hdr)).filter (fun p => !p.closing && p.jobs.any (fun j => j.tenant == hdrTenant m.hdr && authorised j.feps m.src))

/-- Whether a data message about a job comes from its PGT (R377). -/
def State.ofJob (s : State) (p : Partition) (m : JcpMsg) (job : Nat) : Bool :=
  (s.job? p.num job (hdrTenant m.hdr)).any (fun j => authorised j.feps m.src)

/-- The number by which a data message and its answer are matched. -/
def tagOf (m : JcpMsg) : Nat := (hdrTag m.hdr).toNat

/-- REMOTE_SPAWN_RECEIVE (R292): the task exists here, and the sender is told its number. A spawn that this device refuses is
acknowledged with no task, and its task has ended ABORTED. -/
def execRemoteSpawnReceive (m : JcpMsg) (s : State) : Out :=
  match s.dataPart m with
  | none => .next s
  | some p =>
    let tenant := hdrTenant m.hdr
    let v := hdrArg m.hdr 2
    let ctr := if v.getLsbD 47 then some (v.extractLsb' 48 16).toNat else none
    let fail := (s.sendData p.num tenant 0x42 m.src 0 0 0 0 (tagOf m)).sendData p.num tenant 0x43 m.src 0 256 0 0 (tagOf m)
    match s.spawnTask p tenant (argOf m 0) (v.extractLsb' 0 24).toNat (argOf m 3) (hdrArg m.hdr 1) ctr with
    | none => .next fail
    | some (ch, t) =>
      if !s.ofJob p m t.job then .next s
      else if footNever ch t.foot then .next fail
      else
        let a := s.addTask { t with origin := some (m.src, tagOf m) }
        .next (a.1.sendData p.num tenant 0x42 m.src (handleOf a.2) 0 0 0 (tagOf m))

/-- REMOTE_TSIG_RECEIVE (R294): the decrements are applied to a task of a job whose PGT names the sender (R377), and
acknowledged. -/
def execRemoteTsigReceive (m : JcpMsg) (s : State) : Out :=
  match s.dataPart m with
  | none => .next s
  | some p =>
    let tenant := hdrTenant m.hdr
    if (s.byHandle p.num tenant (argOf m 0)).any (fun t => t.tenant == tenant && !s.ofJob p m t.job) then .next s
    else
      let s := (List.range (argOf m 1 % 65536)).foldl (fun s _ => s.decHandle p.num tenant (argOf m 0)) s
      .next (s.sendData p.num tenant 0x42 m.src 0 0 0 0 (tagOf m))

/-- The handle of a task on a peer (R291). -/
def remoteHandle (task rank : Nat) : Nat := task % 2 ^ 24 + rank % 65536 * 2 ^ 24 + 2 ^ 40

/-- REMOTE_ACK_RECEIVE (R292, R294): the peer has acknowledged a SPAWN or TSIG, which completes; a SPAWN's D receives the
handle, a free value where the peer made no task. -/
def execRemoteAckReceive (m : JcpMsg) (s : State) : Out :=
  match s.dataPart m, s.op? (tagOf m) with
  | some p, some o =>
    (match o.kind with
    | .task (.remote d _ rank spawned job) _ =>
      let from_ := ((s.job? p.num job (hdrTenant m.hdr)).bind (fun j => j.feps[rank]?)) == some m.src
      if !from_ || s.partOf o != some p.num then .next s
      else if !spawned then .next (s.finishOp o)
      else if hdrArg m.hdr 0 == 0 then
        let f := s.free
        .next ((f.2.landLong o d (splat (f.1.setWidth 128))).finishOp o)
      else .next ((s.landLong o d (splat (BitVec.ofNat 128 (remoteHandle (argOf m 0) rank)))).finishOp o)
    | _ => .next s)
  | _, _ => .next s

/-- REMOTE_COMPLETION (R35): a task on a peer has ended, so the job's count falls. -/
def execRemoteCompletion (m : JcpMsg) (s : State) : Out :=
  match s.dataPart m with
  | none => .next s
  | some p =>
    match p.jobs.find? (fun j => j.sent.any (fun e => e.1 == tagOf m && j.feps[e.2]? == some m.src)) with
    | none => .next s
    | some j =>
      let good := hdrArg m.hdr 1 == 0
      let fall := fun (j : Job) => { j with
        sent := j.sent.filter (fun e => e.1 != tagOf m), out := j.out - 1
        done := if good then (j.done + 1) % 2 ^ 32 else j.done, failed := if good then j.failed else (j.failed + 1) % 2 ^ 32 }
      .next ((s.modJob p.num j.tenant j.rcb fall).closeJobs p.num)

/-- The fault domain of a job (R27). -/
def State.jobDomain (s : State) (p : Partition) (j : Job) : Option Nat :=
  match s.rcb p j.tenant j.rcb with
  | none => none
  | some r => match s.rcb p j.tenant (rcbParent r) with
    | some t => domainOf [(some j.rcb, r), (some (rcbParent r), t), (none, p.root)]
    | none => none

/-- A job that has tasks on a rank that cannot be reached: its fault domain aborts, PEER_LOST is sent, and what it had
there counts as ended (R35, R391). -/
def State.losePeer (s : State) (p : Partition) (rank : Nat) (j : Job) : State :=
  let s := s.abortDomain p.num j.tenant (s.jobDomain p j) 0 0
  let s := s.event p.num 0x88 (BitVec.ofNat 64 rank) (BitVec.ofNat 64 j.rcb) 0
  let gone := s.ops.filter (fun o => s.partOf o == some p.num && (match o.kind with
    | .task (.remote _ _ r _ job) _ => r == rank && job == j.rcb
    | _ => false))
  let s := gone.foldl (fun s o => s.finishOp o) s
  let n := (j.sent.filter (fun e => e.2 == rank)).length
  (s.modJob p.num j.tenant j.rcb (fun q => { q with
    sent := q.sent.filter (fun e => e.2 != rank), out := q.out - n, failed := (q.failed + n) % 2 ^ 32 })).closeJobs p.num

/-- PEER_UNREACHABLE (R35, R391): the transport reports a rank unreachable. -/
def execPeerUnreachable (part rank : Nat) (s : State) : Out :=
  match s.part? part with
  | none => .next s
  | some p => .next ((p.jobs.filter (fun j => j.sent.any (fun e => e.2 == rank))).foldl (fun s j => s.losePeer p rank j) s)

/-- MCTP_ADDRESS_LIST (R377): the controller writes the management endpoint's addresses, at most 16. -/
def execMctpAddressList (list : List (BitVec 64)) (s : State) : Out :=
  .next (s.modDev (fun d => { d with mgmtAddrs := list.take 16 }))

end Sys2Proof.Machine
end

