-- ==== Sys2Proof/Machine/Checkpoint.lean ====
section
/-! DEFINITION. Sealed checkpoint images, the counters, CKPT, RESTORE, attestation and peers (R320, R417 to R422). -/

namespace Sys2Proof.Machine

open Sys2Proof

/-! ### What an image holds (R416, R419) -/

/-- The valid entries of a table with the virtual address that each begins: index bits from `shift` on. -/
def tableEntries (m : Memory) (table count shift base : Nat) : List (Nat × Nat × Nat) :=
  ((List.range count).map (fun i => (base + i * 2 ^ shift, table + 8 * i, m.read (table + 8 * i) 8))).filter (fun e => e.2.2.testBit 0)

/-- Whether an entry is a leaf. -/
def isLeaf (e : Nat × Nat × Nat) : Bool := (decPte e.2.2).l

/-- The tables that entries name. -/
def below (m : Memory) (es : List (Nat × Nat × Nat)) (count shift : Nat) : List (Nat × Nat × Nat) :=
  (es.filter (fun e => !isLeaf e)).flatMap (fun e => tableEntries m (decPte e.2.2).addr count shift e.1)

/-- The leaves of a tenant: virtual base, page size, entry. -/
def State.leaves (s : State) (p : Partition) (tenant : Nat) : List (Nat × Nat × Nat) :=
  let l0 := tableEntries s.mem (p.t0 + 4096 * tenant) 512 39 0
  let l2 := below s.mem (below s.mem l0 512 30) 512 21
  (l2.filter isLeaf).map (fun e => (e.1, 2 ^ 21, e.2.2)) ++ ((below s.mem l2 32 16).filter isLeaf).map (fun e => (e.1, 2 ^ 16, e.2.2))

/-- The records of kind 6: virtual base, the leaf's S, X and W where an entry has them, and the data, for each 64 KiB. -/
def State.nearPages (s : State) (ls : List (Nat × Nat × Nat)) : List Byte :=
  (ls.filter (fun l => (decPte l.2.2).addr < 6 * 2 ^ 30)).flatMap (fun l =>
    let e := decPte l.2.2
    let bits := (if e.s then 2 ^ 53 else 0) + (if e.x then 8 else 0) + (if e.w then 4 else 0)
    (List.range (l.2.1 / 65536)).flatMap (fun i =>
      bytesOfNat 8 (l.1 + 65536 * i) ++ bytesOfNat 8 bits ++ s.mem.bytes (e.addr + 65536 * i) 65536))

/-- The records of kind 7: virtual base and entry of every far leaf. -/
def farMap (ls : List (Nat × Nat × Nat)) : List Byte :=
  (ls.filter (fun l => 2 ^ 52 ≤ (decPte l.2.2).addr)).flatMap (fun l => bytesOfNat 8 l.1 ++ bytesOfNat 8 l.2.2)

/-- The virtual address that a tenant's leaves map to a physical one. -/
def virtualOf (ls : List (Nat × Nat × Nat)) (pa : Nat) : Option Nat :=
  (ls.find? (fun l => decide ((decPte l.2.2).addr ≤ pa) && decide (pa < (decPte l.2.2).addr + l.2.1))).map
    (fun l => l.1 + (pa - (decPte l.2.2).addr))

/-- The contexts of a tenant (R416): locations in global memory are kept by their virtual addresses. -/
def State.contexts (s : State) (p : Partition) (tenant : Nat) : Contexts :=
  let gs := s.gangs.filter (fun x => x.part == p.num && x.tenant == tenant)
  let mine := fun (g : Nat) => gs.any (fun x => x.id == g)
  let ls := s.leaves p tenant
  let subs := (s.subs.map (fun e => { e with subs := e.subs.filter (fun x => mine x.gang) })).filter (fun e => !e.subs.isEmpty)
  { tks := gs.map (·.tks)
    gangs := gs.map (fun x => { x with tks := [] })
    tasks := s.tasks.filter (fun t => t.part == p.num && t.tenant == tenant)
    jobs := p.jobs.filter (fun j => j.tenant == tenant)
    subs := subs.filterMap (fun e => (virtualOf ls e.addr).map (fun va => (va, e)))
    waiters := (s.waiters.filter (fun w => mine w.gang)).filterMap (fun w =>
      if w.glob then (virtualOf ls w.addr).map (fun va => (va, w)) else some (w.addr, w))
    scenes := p.scenes.filter (fun sc => sc.tenant == tenant) }

/-- The gangs of an image with their tussocks. -/
def Contexts.whole (c : Contexts) : List Gang := List.zipWith (fun x tks => { x with tks := tks }) c.gangs c.tks

/-- The sections of a tenant's image: one of each kind that holds anything, that of the task unit in any case. -/
def State.sections (s : State) (p : Partition) (tenant : Nat) : List (Nat × List Byte) :=
  let ls := s.leaves p tenant
  (((Config.codec.pack (s.contexts p tenant)).zipIdx.map (fun (e : List Byte × Nat) => (e.2 + 1, e.1))) ++
    [(6, s.nearPages ls), (7, farMap ls)]).filter (fun e => e.1 == 3 || !e.2.isEmpty)

/-- The next multiple of 128. -/
def up128 (n : Nat) : Nat := (n + 127) / 128 * 128

/-- The offset of each section. -/
def offsets : List (Nat × List Byte) → Nat → List Nat
  | [], _ => []
  | e :: es, o => o :: offsets es (up128 (o + e.2.length))

/-- Where sections begin in an image. -/
def sectionBase : Nat := 0x2100

/-- The bytes of an image. -/
def imageSize (es : List (Nat × List Byte)) : Nat :=
  (es.zip (offsets es sectionBase)).foldl (fun m e => max m (e.2 + e.1.2.length)) sectionBase

/-- The header of an image (R419). -/
def imageHeader (fw measure : BitVec 512) (nslot nsect length : Nat) (dev counter : BitVec 64) (part tenant : Nat) : BitVec 2048 :=
  0#512 ++ fw ++ 0#128 ++ measure ++ 0#88 ++ BitVec.ofNat 8 nslot ++ BitVec.ofNat 32 nsect ++ BitVec.ofNat 64 length ++ dev ++
  counter ++ 0#2 ++ BitVec.ofNat 6 part ++ BitVec.ofNat 8 tenant ++ 1#16 ++ 0x4B433953#32

/-- The IV of a section (R420). -/
def sectionIv (index : Nat) (counter : BitVec 64) : List Byte := bytesOfNat 4 index ++ bytesOfNat 8 counter.toNat

/-- The seed of an RSA-OAEP encryption: 64 free bytes. -/
def oaepSeed (k : Nat) : List Byte := (List.range 8).flatMap (fun i => bytesOfNat 8 (Config.freeValue (k + i)).toNat)

/-- The bytes of an image by their offsets (R419 to R421). -/
def State.image (s : State) (p : Partition) (tenant : Nat) (counter : BitVec 64) : List (Nat × List Byte) :=
  let es := s.sections p tenant
  let peers := p.peers.filter (fun q => q.tenant == tenant)
  let m := p.measureOf tenant
  let h := imageHeader s.dev.fwMeas m peers.length es.length (imageSize es) Config.deviceId counter p.num tenant
  let hb := bytesOfNat 256 h.toNat
  let key := sealKey m counter Config.deviceId
  let sealed := es.zipIdx.map (fun e => gcmSeal key (sectionIv e.2 counter) hb e.1.2)
  let row := fun (e : ((Nat × List Byte) × Nat) × (List Byte × List Byte)) =>
    bytesOfNat 6 e.1.2 ++ bytesOfNat 2 e.1.1.1 ++ bytesOfNat 8 e.1.1.2.length ++ e.2.2
  let rows := (es.zip (offsets es sectionBase)).zip sealed
  (0, hb) :: (0x100, rows.flatMap row) ::
    (0x1000, peers.zipIdx.flatMap (fun q => bytesOfNat 16 q.1.devId.toNat ++ oaepWrap q.1.key hb (oaepSeed (s.seed + 8 * q.2)) key)) ::
    rows.map (fun e => (e.1.2, e.2.1))

/-! ### Writing an image (R320) -/

/-- The counter of a measurement is raised (R418). -/
def Device.setCtr (d : Device) (m : BitVec 512) (v : BitVec 64) : Device :=
  { d with counters := d.counters.filter (fun e => e.1 != m) ++ [(m, v)] }

/-- Whether the counter table has no room for a measurement (R418). -/
def Device.ctrFull (d : Device) (m : BitVec 512) : Bool :=
  d.counters.all (fun e => e.1 != m) && decide (16384 ≤ d.counters.length)

/-- Whether a page move of a tenant is under way. -/
def State.moving (s : State) (p tenant : Nat) : List Nat :=
  (s.ops.filter (fun o => match o.kind with
    | .move m => m.part == p && m.tenant == tenant
    | _ => false)).map (·.id)

/-- Writes bytes at an offset of a range given by its page pieces (virtual address, physical address, length). -/
def State.putRange (s : State) (base : Nat) (ls : List (Nat × Nat × Nat)) (off : Nat) (bs : List Byte) : State :=
  ls.foldl (fun s l =>
    let lo := max (base + off) l.1
    let hi := min (base + off + bs.length) (l.1 + l.2.2)
    if hi ≤ lo then s
    else
      let part := (bs.drop (lo - (base + off))).take (hi - lo)
      (s.homePut (l.2.1 + (lo - l.1)) part (part.length + 1)).1) s

/-- The counter rises, and the image is written to a range (R320). Answers the counter. -/
def State.writeImage (s : State) (p : Partition) (tenant base : Nat) (ls : List (Nat × Nat × Nat)) : State × BitVec 64 :=
  let m := p.measureOf tenant
  let v := s.dev.counterOf m + 1
  let img := s.image p tenant v
  let s : State := { s.modDev (fun d => d.setCtr m v) with seed := s.seed + 64 }
  (img.foldl (fun s e => s.putRange base ls e.1 e.2) s, v)

/-- CKPT, the instruction (R320). The tenant runs nothing while the issuing one runs, so its contexts are saved. Its write
of the image is a release at .sys, so it comes after the slot's earlier accesses (R145). -/
def execCkpt (t : Tail) (d : Dst) (a b ctl : USrc) (s : State) : Out :=
  tileIssue true t s (fun c s =>
    let v := c.tk.uval a
    let base := c.tk.uval b
    let tenant := v.toNat
    let p := c.part s
    let size := imageSize (s.sections p tenant)
    let refuse := fun (n : Nat) => Res.next (c.longOp s 1 (.values (ldest d 2) (splat (BitVec.ofNat 128 n)) (some 0) none)) true
    if !c.sup then c.trap .priv
    else if v.extractLsb' 8 56 != 0 || (s.tenantRcb p tenant).isNone || tenant == c.x.tenant ||
        p.ckpts.any (fun e => e.1 == tenant) then c.trap .qerr
    else if base.toNat % 65536 != 0 then c.trap .align base.toNat
    else if !(s.moving p.num tenant).isEmpty then .stall s (.drain (s.moving p.num tenant) 0)
    else if (c.tk.uval ctl).toNat < size then refuse size
    else if s.dev.ctrFull (p.measureOf tenant) then refuse 0
    else
      let cuts := (pageCuts base.toNat size (size / 65536 + 2)).map (fun q => ((q.1 : Int), q.2))
      let w := s.engineWalk c.core p c.x.tenant c.sup .write cuts (c.reader s)
      match w.2 with
      | .error e => (c.walkFault w.1 1 ((lanesOf c.act).map (fun l => (l, e.1, e.2)))).getD (c.trap .xlate e.2)
      | .ok ls =>
        match c.drainDev w.1 (w.1.ownAccs c.g c.t c.k) with
        | some r => r
        | none =>
          let s := ls.foldl (fun s l => s.setDirty p c.x.tenant l.1) w.1
          let r := s.writeImage p tenant base.toNat ls
          let s := r.1.modPart p.num (fun q => { q with ckpts := q.ckpts ++ [(tenant, c.g)] })
          let f := s.delay
          .next ((c.globalOp f.2 (s.now + 1 + f.1) (.ckpt (ldest d 2) tenant r.2 true) none).1) true)

/-- Whether a tenant's contexts are all saved and none of its pages moves. -/
def State.quiet (s : State) (p : Partition) (tenant : Nat) : Bool :=
  p.running != some tenant && s.gangs.all (fun x => x.part != p.num || x.tenant != tenant || x.core.isNone) &&
  (s.moving p.num tenant).isEmpty

/-- Ends a checkpoint or restore of the host. -/
def State.ckptEnd (s : State) (m : JcpMsg) (tenant status : Nat) (arg : BitVec 64) : State :=
  (s.modPart (hdrPart m.hdr) (fun q => { q with ckpts := q.ckpts.filter (fun e => e.1 != tenant) })).respond m status arg []

/-- Goes on with a host CKPT once its tenant is saved. -/
def State.ckptGo (s : State) (m : JcpMsg) (p : Partition) : State :=
  let tenant := hdrTenant m.hdr
  let size := imageSize (s.sections p tenant)
  if !s.quiet p tenant then s
  else if argOf m 1 < size then s.ckptEnd m tenant 7 (BitVec.ofNat 64 size)
  else if s.dev.ctrFull (p.measureOf tenant) then s.ckptEnd m tenant 7 0
  else match s.hostMap p tenant (argOf m 0) size with
  | .wait => s
  | .bad => s.ckptEnd m tenant 8 0
  | .ok ls =>
    let cuts := pageCuts (argOf m 0) size (size / 65536 + 2)
    let r := s.writeImage p tenant (argOf m 0) ((cuts.zip ls).map (fun e => (e.1.1, e.2.1, e.1.2)))
    r.1.ckptEnd m tenant 0 r.2

/-- CKPT, the command: a running tenant drains as at a slice end, its contexts are saved, and the image is written. -/
def execCkptCommand (m : JcpMsg) (s : State) : Out :=
  s.command m (fun s p =>
    let tenant := hdrTenant m.hdr
    if p.ckpts.any (fun e => e.1 == tenant) then s.respond m 9 0 []
    else
      let start := fun (q : Partition) => { q with
        ckpts := q.ckpts ++ [(tenant, 0)]
        drain := if q.running == some tenant then some (q.drain.getD (s.now + drainClocks)) else q.drain }
      let s := s.modPart p.num start
      match s.part? p.num with
      | some q => s.ckptGo m q
      | none => s) (fun s p => s.ckptGo m p)

/-! ### RESTORE (R422) -/

/-- A section as its table row gives it: kind, offset, length, tag. -/
structure Section where
  kind : Nat
  off  : Nat
  len  : Nat
  tag  : List Byte
  deriving DecidableEq, Repr, Inhabited

/-- The number in n bytes at an offset. -/
def field (img : List Byte) (off n : Nat) : Nat := natOfBytes ((img.drop off).take n)

/-- The section table of an image. -/
def sectionsOf (img : List Byte) (n : Nat) : List Section :=
  (List.range n).map (fun i =>
    let b := 0x100 + 32 * i
    { off := field img b 6, kind := field img (b + 6) 2, len := field img (b + 8) 8, tag := (img.drop (b + 16)).take 16 })

/-- Whether a header and section table are consistent. -/
def imageOk (img : List Byte) : Bool :=
  let n := field img 32 4
  let len := field img 24 8
  decide (sectionBase ≤ img.length) && field img 0 4 == 0x4B433953 && field img 4 2 == 1 && decide (1 ≤ n) && decide (n ≤ 120) &&
  decide (sectionBase ≤ len) && decide (len ≤ img.length) && decide (field img 36 1 ≤ 8) &&
  (sectionsOf img n).all (fun x => x.off % 128 == 0 && decide (sectionBase ≤ x.off) && decide (x.off + x.len ≤ len) &&
    decide (1 ≤ x.kind) && decide (x.kind ≤ 7))

/-- The content key of an image on this device: derived, or unwrapped from the slot with this device's identity. -/
def State.contentKey (s : State) (img : List Byte) : Option (List Byte) :=
  let dev := BitVec.ofNat 64 (field img 16 8)
  if dev == Config.deviceId then some (sealKey (BitVec.ofNat 512 (field img 48 64)) (BitVec.ofNat 64 (field img 8 8)) dev)
  else match (List.range (field img 36 1)).find? (fun i => field img (0x1000 + 528 * i) 8 == Config.deviceId.toNat) with
  | some i =>
    let k := Config.restoreKey s.dev.keyGen
    oaepUnwrap k.n k.d (img.take 256) ((img.drop (0x1000 + 528 * i + 16)).take 512)
  | none => none

/-- The plain text of every section; none where a tag does not verify. -/
def openSections (img : List Byte) (key : List Byte) : Option (List (Nat × List Byte)) :=
  let ss := sectionsOf img (field img 32 4)
  let opened := ss.zipIdx.map (fun e => (gcmOpen key (sectionIv e.2 (BitVec.ofNat 64 (field img 8 8))) (img.take 256)
    ((img.drop e.1.off).take e.1.len) e.1.tag).map (fun t => (e.1.kind, t)))
  if opened.any (·.isNone) then none else some (opened.filterMap id)

/-- The pages of kind 6: virtual base, bits, data. -/
def pagesOf (bs : List Byte) : List (Nat × Nat × List Byte) :=
  (List.range (bs.length / 65552)).map (fun i =>
    let r := bs.drop (65552 * i)
    (field r 0 8, field r 8 8, (r.drop 16).take 65536))

/-- The far leaves of kind 7. -/
def farOf (bs : List Byte) : List (Nat × Nat) :=
  (List.range (bs.length / 16)).map (fun i => (field bs (16 * i) 8, field bs (16 * i + 8) 8))

/-- The address of the leaf entry of a virtual page, where its tables of the levels 0 to 2 are present: at level 3 under a
table, else at level 2 for a page of 2 MiB. -/
def leafSlot (m : Memory) (p : Partition) (tenant va : Nat) (big : Bool) : Option Nat :=
  let next := fun (table level : Nat) =>
    let e := decPte (m.read (table + 8 * levelIndex va level) 8)
    if e.v && !e.l && !e.malformed p level then some e.addr else none
  match next (p.t0 + 4096 * tenant) 0 with
  | none => none
  | some t1 => match next t1 1 with
    | none => none
    | some t2 => match next t2 2 with
      | some t3 => some (t3 + 8 * levelIndex va 3)
      | none => if big then some (t2 + 8 * levelIndex va 2) else none

/-- The frames that a pool holds. -/
def State.poolCount (s : State) (p : Partition) : Nat :=
  (s.mem.read (p.t0 + 0x100004) 4 + 2 ^ 32 - s.mem.read (p.t0 + 0x100000) 4) % 2 ^ 32

/-- Restored numbers: tasks keep their handles under numbers that no task here has; operations get numbers that no
operation here has. -/
def renumber (k base : Nat) (id : Nat) : Nat := if k == 0 then id + base else id % 2 ^ 24 + k * 2 ^ 24

/-- A slot as an image restores it: ready to replay (R403). -/
def Slot.replaying (z : Slot) : Slot := { z with park := none }

/-- A gang as an image restores it into a partition: no time passes for its long waits while it is out. `out` is the clock
from which its tenant counts as switched out here (R45). -/
def Gang.restored (x : Gang) (p tenant k ops now : Nat) (out : Option Nat) : Gang :=
  let wait := fun (w : Wait) => { w with start := now + w.start - x.outAt.getD now }
  { x with id := renumber k 0 x.id, part := p, tenant := tenant, core := none, outAt := out, settled := 0
           loops := x.loops.map (fun l => { l with id := renumber 0 ops l.id })
           merges := x.merges.map (fun m => { m with id := renumber 0 ops m.id, paused := none })
           tks := x.tks.map (fun y => { y with slots := y.slots.map (fun z => { z.replaying with wait := z.wait.map wait }) }) }

/-- A task as an image restores it. -/
def Task.restored (t : Task) (p tenant k : Nat) : Task :=
  { t with id := renumber k 0 t.id, part := p, tenant := tenant, links := t.links.map (renumber k 0) }

/-- A scene as an image restores it. -/
def Scene.restored (c : Scene) (p tenant k : Nat) : Scene :=
  { c with tenant := tenant, proto := c.proto.restored p tenant k, stepTasks := c.stepTasks.map (renumber k 0), link := c.link.map (renumber k 0)
           islands := c.islands.map (fun i => { i with tasks := i.tasks.map (renumber k 0) }) }

/-- A subscription entry of an image registered again, at the virtual address of its location: one push is due (R122). -/
def State.resubscribe (s : State) (p : Partition) (tenant k : Nat) (e : Nat × SubEntry) : State :=
  match walk s.mem p tenant e.1 .host true with
  | .pa a _ _ leaf .. =>
    let again := fun (x : Subscriber) => { x with gang := renumber k 0 x.gang, missed := 1, leaf := leaf }
    { s with subs := s.subs ++ [{ addr := a, home := homeOf p a, subs := e.2.subs.map again }] }
  | _ => s

/-- A waiter of an image waits again. -/
def State.rewait (s : State) (p : Partition) (tenant k : Nat) (w : Nat × Waiter) : State :=
  let again := { w.2 with gang := renumber k 0 w.2.gang }
  if !w.2.glob then { s with waiters := s.waiters ++ [again] }
  else match walk s.mem p tenant w.1 .host true with
  | .pa a _ _ leaf .. => { s with waiters := s.waiters ++ [{ again with addr := a, leaf := leaf }] }
  | _ => s

/-- The contexts of an image come into a tenant in place of what it had (R416, R422 step 4). -/
def State.reinstall (s : State) (p : Partition) (tenant : Nat) (c : Contexts) : State :=
  let k := s.tasks.foldl (fun m t => max m (t.id / 2 ^ 24 + 1)) (s.nextTask / 2 ^ 24 + 1)
  let gs := c.whole.map (fun x => x.restored p.num tenant k s.nextOp s.now (if p.running == some tenant then none else some s.now))
  let top := gs.foldl (fun m x => (x.loops.map (·.id) ++ x.merges.map (·.id)).foldl (fun m i => max m (i + 1)) m) s.nextOp
  let s := s.modPart p.num (fun q => { q with
    jobs := q.jobs.filter (fun j => j.tenant != tenant) ++ c.jobs.map (fun j => { j with part := p.num, tenant := tenant })
    scenes := q.scenes.filter (fun x => x.tenant != tenant) ++ c.scenes.map (fun x => x.restored p.num tenant k) })
  let s : State := { s with
    nextOp := top
    gangs := s.gangs ++ gs
    tasks := s.tasks.filter (fun t => t.part != p.num || t.tenant != tenant) ++ c.tasks.map (fun t => t.restored p.num tenant k) }
  let s := c.subs.foldl (fun s e => s.resubscribe p tenant k e) s
  c.waiters.foldl (fun s w => s.rewait p tenant k w) s

/-- The bytes of the sections of one kind. -/
def ofKind (secs : List (Nat × List Byte)) (k : Nat) : List Byte := (secs.filter (fun e => e.1 == k)).flatMap (·.2)

/-- The contexts that opened sections hold; none where they are not the firmware's. -/
def contextsOf (secs : List (Nat × List Byte)) : Option Contexts :=
  Config.codec.unpack ((List.range 5).map (fun i => ofKind secs (i + 1)))

/-- The steps of a RESTORE that succeeds, with its pages, their frames taken from the near pool. -/
def State.restoreNow (s : State) (p : Partition) (tenant : Nat) (img : List Byte) (secs : List (Nat × List Byte)) : State :=
  let measure := BitVec.ofNat 512 (field img 48 64)
  let counter := BitVec.ofNat 64 (field img 8 8)
  let s := (s.modPart p.num (fun q => q.setMeasure tenant measure)).modDev (fun d => d.setCtr measure counter)
  let nodes := (s.hostNodes p tenant).filterMap (·.1)
  let s := (pagesOf (ofKind secs 6)).foldl (fun s g =>
    match s.takeFrame p true, leafSlot s.mem p tenant g.1 false with
    | some (f, s), some e =>
      let s := (s.homePut f g.2.2 65537).1
      (s.homeWrite e 8 (f + g.2.1 + 3)).1.modPart p.num (fun q => q.addFrame tenant nodes f)
    | _, _ => s) s
  let s := (farOf (ofKind secs 7)).foldl (fun s g => match leafSlot s.mem p tenant g.1 true with
    | some e => (s.homeWrite e 8 g.2).1
    | none => s) s
  match contextsOf secs, s.part? p.num with
  | some c, some p => s.reinstall p tenant c
  | _, _ => s

/-- The first check of R422 that an image fails, or its opened sections. A scene whose number another tenant uses does
not fit (log 77). -/
def State.restoreCheck (s : State) (p : Partition) (tenant : Nat) (img : List Byte) : Except Nat (List (Nat × List Byte)) :=
  let measure := BitVec.ofNat 512 (field img 48 64)
  if !imageOk img then .error 5
  else if BitVec.ofNat 512 (field img 128 64) != s.dev.fwMeas then .error 11
  else if field img 8 8 < (s.dev.counterOf measure).toNat then .error 10
  else match s.contentKey img with
  | none => .error 11
  | some key =>
    match openSections img key with
    | none => .error 11
    | some secs =>
      let pages := pagesOf (ofKind secs 6)
      let free := fun (c : Scene) => p.scenes.all (fun x => x.num != c.num || x.tenant == tenant)
      let fits := match contextsOf secs with
        | some c => c.whole.all (fun x => !(({ s with gangs := [] } : State).coresFor p x.foot x.live).isEmpty) && c.scenes.all free
        | none => false
      if s.poolCount p < pages.length || !fits || s.dev.ctrFull measure then .error 7
      else if pages.any (fun g => (leafSlot s.mem p tenant g.1 false).isNone) ||
          (farOf (ofKind secs 7)).any (fun g => (leafSlot s.mem p tenant g.1 true).isNone) then .error 8
      else .ok secs

/-- Goes on with a RESTORE: it waits for a page of the image that moves. -/
def State.restoreGo (s : State) (m : JcpMsg) (p : Partition) : State :=
  let tenant := hdrTenant m.hdr
  match s.hostMap p tenant (argOf m 0) (argOf m 1) with
  | .bad => s.ckptEnd m tenant 8 0
  | .wait => s
  | .ok ls =>
    let img := ls.flatMap (fun l => s.mem.bytes l.1 l.2.2)
    match s.restoreCheck p tenant img with
    | .error e => s.ckptEnd m tenant e 0
    | .ok secs => (s.restoreNow p tenant img secs).ckptEnd m tenant 0 (BitVec.ofNat 64 (field img 8 8))

/-- RESTORE (R384, R422): while it is in progress, another checkpoint or restore of the tenant is BUSY. -/
def execRestore (m : JcpMsg) (s : State) : Out :=
  s.command m (fun s p =>
    let tenant := hdrTenant m.hdr
    if p.ckpts.any (fun e => e.1 == tenant) || s.hasWork p.num tenant then s.respond m 9 0 []
    else
      let s := s.modPart p.num (fun q => { q with ckpts := q.ckpts ++ [(tenant, 0)] })
      match s.part? p.num with
      | some q => s.restoreGo m q
      | none => s) (fun s p => s.restoreGo m p)

/-! ### Attestation (R381, R417, R421) -/

/-- The measurements that the device, or a partition, reports. -/
def State.reports (s : State) (m : JcpMsg) : List (BitVec 512) :=
  s.dev.fwMeas :: (match s.part? (hdrPart m.hdr) with
    | some p => (s.tenants p).map (fun t => p.measureOf t)
    | none => [])

/-- ATTEST: the SPDM response of the device. -/
def execAttest (m : JcpMsg) (s : State) : Out :=
  s.mgmtCommand m (fun s => s.respond m 0 0 (Config.spdmAnswer m.payload (s.reports m)))

/-- Four free values as a nonce. -/
def State.nonce (s : State) : BitVec 256 × State :=
  let f := fun (k : Nat) => Config.freeValue (s.seed + k)
  (f 3 ++ f 2 ++ f 1 ++ f 0, { s with seed := s.seed + 4 })

/-- ATTEST with PEER_NONCE (R421): a nonce of 32 bytes. -/
def execPeerNonce (m : JcpMsg) (s : State) : Out :=
  s.command m (fun s p =>
    let n := s.nonce
    (n.2.modPart p.num (fun q => { q with nonces := q.nonces ++ [(hdrTenant m.hdr, n.1, s.now)] })).respond m 0 0
      (bytesOfNat 32 n.1.toNat)) (fun s _ => s)

/-- The nonce over which a peer's response is signed, with what the response says. -/
def State.peerOf (s : State) (m : JcpMsg) (p : Partition) : Option (BitVec 256 × BitVec 64 × BitVec 512 × List Byte) :=
  (p.nonces.filter (fun e => e.1 == hdrTenant m.hdr && s.now - e.2.2 ≤ 60 * secondClocks)).findSome? (fun e =>
    (Config.spdmPeer m.payload e.2.1).map (fun r => (e.2.1, r)))

/-- ATTEST with PEER_ADD (R421): the peer is registered, or AUTH. A tenant holds eight peers. -/
def execPeerAdd (m : JcpMsg) (s : State) : Out :=
  s.command m (fun s p =>
    let tenant := hdrTenant m.hdr
    match s.peerOf m p with
    | none => s.respond m 11 0 []
    | some (n, dev, fw, key) =>
      let others := p.peers.filter (fun q => !(q.tenant == tenant && q.devId == dev))
      if fw != s.dev.fwMeas then s.respond m 11 0 []
      else if 8 ≤ (others.filter (fun q => q.tenant == tenant)).length then s.respond m 7 0 []
      else (s.modPart p.num (fun q => { q with
        nonces := q.nonces.filter (fun e => e.2.1 != n)
        peers := others ++ [{ tenant := tenant, devId := dev, key := key }] })).respond m 0 0 []) (fun s _ => s)

end Sys2Proof.Machine
end

