-- ==== Sys2Proof/Machine/Boot.lean ====
section
/-! DEFINITION. Partitions made, destroyed and reset, the device's resets, boot and firmware, injections through JTAG (R2,
R15, R381, R424 to R426, R430, R433, R434, R440, R449). -/

namespace Sys2Proof.Machine

open Sys2Proof

/-! ### PART_CREATE (R25, R380, R381, R385, R426, R430) -/

/-- The 16-bit numbers of a payload. -/
def words2 (bs : List Byte) : List Nat := (List.range (bs.length / 2)).map (fun i => natOfBytes ((bs.drop (2 * i)).take 2))

/-- The 64-bit numbers of a payload. -/
def words8 (bs : List Byte) : List (BitVec 64) :=
  (List.range (bs.length / 8)).map (fun i => BitVec.ofNat 64 (natOfBytes ((bs.drop (8 * i)).take 8)))

/-- A new partition from a PART_CREATE. -/
def newPartition (m : JcpMsg) (num : Nat) : Partition :=
  let a1 := hdrArg m.hdr 1
  let ports : BitVec 32 := a1.extractLsb' 0 32
  let root := BitVec.ofNat 1024 (natOfBytes (m.payload.take 128))
  let ws := words2 ((m.payload.drop 128).take 64)
  { num := num, granules := (hdrArg m.hdr 0).extractLsb' 0 48, cxl := a1.extractLsb' 0 16, eth := a1.extractLsb' 16 16
    sys := a1.getLsbD 32, root := root, weights := ws.map (BitVec.ofNat 16), fabric := words8 (m.payload.drop 192)
    powerMin := rcbField root 4
    floors := (List.range 32).map (fun k => if ports.getLsbD k then 4 * ws.getD k 0 else 0)
    eps := List.replicate 4 {} }

/-- The islands of voltage and frequency that partitions use (R15, R424): granules, near stacks, PHY groups. -/
def State.inUse (s : State) (k : Nat) : Bool :=
  let near := fun (d : Nat) => s.parts.any (fun p => (dieGranules d).any (fun g => p.granules.getLsbD g))
  let phy := fun (b : Nat) (f : Partition → BitVec 16) => s.parts.any (fun p => (List.range 4).any (fun i => (f p).getLsbD (4 * b + i)))
  if k < 48 then s.parts.any (fun p => p.granules.getLsbD k)
  else if k < 56 then near (k - 48)
  else if k < 60 then phy (k - 56) Partition.cxl
  else phy (k - 60) Partition.eth

/-- Islands that come into use run at P0, and those that go out of use are off (R424). -/
def State.setPoints (s : State) : State :=
  let point := fun (k : Nat) (p : Point) => if !s.inUse k then Point.off else if p == .off then Point.p0 else p
  { s with dev := { s.dev with points := s.dev.points.mapIdx point } }

/-- The status that refuses a new partition. -/
def State.createFault (s : State) (p : Partition) : Option Nat :=
  let all := s.parts ++ [p]
  let floor := fun (k : Nat) => sumOf (all.map (fun q => q.floors.getD k 0))
  let class_ := fun (b : Nat) => sumOf ((List.range 16).map (fun k => floor (b + k)))
  if !rcbReservedZero p.root || rcbKind p.root != 0 || rcbParent p.root != 0 || p.root.extractLsb' 320 128 != 0 then some 5
  else if (List.range 11).any (fun k => !rcbOvr p.root k) then some 13
  else if p.granules == 0 || s.parts.any (fun q => q.granules &&& p.granules != 0) || 48 ≤ p.num ||
      s.dev.tokens - 16872 < sumOf (all.map (·.powerMin)) || (List.range 32).any (fun k => decide (s.dev.portCap k < floor k)) ||
      3000000 < class_ 0 || 2343750 < class_ 16 then some 7
  else none

/-- PART_CREATE: the lowest free number; every entry of the tenant table is 0. -/
def execPartCreate (m : JcpMsg) (s : State) : Out :=
  s.mgmtCommand m (fun s =>
    let num := ((List.range 48).find? (fun n => s.parts.all (fun q => q.num != n))).getD 48
    let p := newPartition m num
    match s.createFault p with
    | some st => s.respond m st 0 []
    | none =>
      let s : State := { s with parts := s.parts ++ [p], mem := s.mem.clear (p.t0 + 0x100800) (p.t0 + 0x101000) }
      s.setPoints.respond m 0 (BitVec.ofNat 64 num) [])

/-! ### Ending a partition's work (R381, R433) -/

/-- Commands on the partition's other endpoints, those that have arrived since its end began too, are answered ABORTED
(R380, R433). -/
def State.abortOthers (s : State) (p ep : Nat) : State :=
  match s.part? p with
  | none => s
  | some x =>
    let lost := (x.eps.zipIdx.filter (fun e => e.2 != ep)).flatMap (fun e => e.1.busy.toList ++ e.1.queue)
    let s := s.modPart p (fun q => { q with eps := q.eps.mapIdx (fun k e => if k == ep then e else
      { e with busy := none, queue := [], waits := none }) })
    { s with outbox := s.outbox ++ lost.map (fun m => answer m 14 0 []) }

/-- Every task of a partition ends ABORTED, and its gangs, with what they have under way, are gone; stores that were
issued are still performed (R136). -/
def State.endAll (s : State) (p : Nat) : State :=
  let mine := fun (g : Nat) => s.tasks.any (fun t => t.id == g && t.part == p)
  let stays := fun (o : Op) => (match o.kind with
    | .move m | .moveReq m => m.part != p
    | .store _ | .atom .. | .relE .. | .swap .. => true
    | _ => !mine o.gang)
  let gs := (s.gangs.filter (fun x => x.part == p)).map (·.id)
  let tok := (s.gangs.filter (fun x => x.part == p)).foldl (fun n x => n + sumOf (x.tks.map (·.tokens))) 0
  let s := gs.foldl (fun s g => (s.dropSubs g).dropLocks g) (s.poolAdd tok)
  let s := s.modDev (fun d => { d with poolQ := d.poolQ.filter (fun r => r.part != p) })
  let s : State := { s with
    ops := s.ops.filter stays
    gangs := s.gangs.filter (fun x => x.part != p)
    waiters := s.waiters.filter (fun w => !gs.contains w.gang)
    cur := s.cur.filter (fun q => !gs.contains q.gang) }
  let s := ((s.tasks.filter (fun t => t.part == p && !t.ended)).map (·.id)).foldl (fun s t => s.endTask t 0 true) s
  let none_ := fun (j : Job) => { j with out := 0, sent := [] }
  (s.modPart p (fun q => { q with
    running := none, drain := none, halted := false, halting := none, held := [], ckpts := [], scenes := [], binds := [], pubs := []
    jobs := q.jobs.map none_ })).closeJobs p

/-- Whether stores of a partition's tasks are still to be performed. -/
def State.draining (s : State) (p : Nat) : Bool :=
  s.ops.any (fun o => s.partOf o == some p && (match o.kind with
    | .store _ | .atom .. | .relE .. | .swap .. => true
    | _ => false))

/-- The frames of a partition are written 0, and what hung on its translations is gone (R381, R397, R433). -/
def State.wipe (s : State) (p : Partition) : State :=
  let s : State := { s with
    mem := p.slices.foldl (fun m sl => m.clear (sl * 2 ^ 26) ((sl + 1) * 2 ^ 26)) s.mem
    tasks := s.tasks.filter (fun t => t.part != p.num)
    cores := s.cores.map (fun c => { c with tlb := c.tlb.filter (fun e => e.part != p.num) }) }
  let clear := fun (q : Partition) => { q with
    measures := [], records := [], waitRecs := [], bufferHead := 0, bucket := 0, frames := [], jobs := [] }
  ((s.poolAdd p.bucket).modPart p.num clear).modDev (fun d => { d with
    demand := d.demand.filter (fun e => e.part != p.num), arb := d.arb.filter (fun e => e.part != p.num) })

/-- PART_DESTROY: the stores end, the frames are written 0, the partition's granules and ports are free. -/
def State.destroyMore (s : State) (m : JcpMsg) (p : Partition) : State :=
  if s.draining p.num then s
  else
    let ep := hdrEp m.hdr
    let s := s.abortOthers p.num ep
    let behind := ((s.endpoint? p.num ep).map (·.queue)).getD []
    let s := ((((s.sendEvents p.num).closeJobs p.num).wipe p).modEndpoint p.num ep (fun e => { e with queue := [] })).respond m 0 0 []
    ({ s with parts := s.parts.filter (fun q => q.num != p.num), outbox := s.outbox ++ behind.map (fun q => answer q 14 0 []) } : State).setPoints

/-- PART_DESTROY (R381). -/
def execPartDestroy (m : JcpMsg) (s : State) : Out :=
  s.command m (fun s p =>
    let s := (s.abortOthers p.num (hdrEp m.hdr)).endAll p.num
    match s.part? p.num with
    | some q => s.destroyMore m q
    | none => s) (fun s p => s.destroyMore m p)

/-! ### RESET of a partition (R379, R433) -/

/-- Cores of a partition that are retired read 0 from its reset on (R2, R449); a reset of another partition is not their next
reset (DESIGN CHOICE, log 95). -/
def State.retireCores (s : State) (p : Partition) : State :=
  let gone := (List.range 192).filter (fun c => s.dev.retired.getLsbD c && p.granules.getLsbD (granuleOf c))
  let s := gone.foldl (fun s c => s.modCore c (fun k => { k with noPlace := false })) s
  s.modDev (fun d => { d with cores := gone.foldl (fun (w : BitVec 192) c => w &&& ~~~(BitVec.ofNat 192 (2 ^ c))) d.cores })

/-- Goes on with a partition RESET: the frames are written 0, then the answer, then the endpoints and the event stream
start again. -/
def State.resetMore (s : State) (m : JcpMsg) (p : Partition) : State :=
  if s.draining p.num then s
  else
    let s := (((((s.abortOthers p.num (hdrEp m.hdr)).sendEvents p.num).closeJobs p.num).wipe p).retireCores p).respond m 0 0 []
    s.modPart p.num (fun q => { q with eps := List.replicate 4 {}, eventSeq := 0 })

/-- RESET with ARG0[0] = 0 (R433). -/
def execResetPartition (m : JcpMsg) (s : State) : Out :=
  s.command m (fun s p =>
    let s := (s.abortOthers p.num (hdrEp m.hdr)).endAll p.num
    match s.part? p.num with
    | some q => s.resetMore m q
    | none => s) (fun s p => s.resetMore m p)

/-! ### Device and power-on reset (R2, R421, R433, R434) -/

/-- The device after a reset: what R433 keeps is kept, a port whose link is down starts its second again, and a new
restore key pair exists. -/
def Device.after (d : Device) : Device :=
  let down := fun (k : Nat) => d.downSince.any (fun e => e.1 == k) ||
    (if k < 16 then !d.cxlUp.getLsbD k else !d.ethUp.getLsbD (k - 16))
  let r := { Device.reset with
    cores := d.cores &&& ~~~d.retired, retired := d.retired, hot := d.hot, warm := d.hot, keyGen := d.keyGen + 1, counters := d.counters
    spares := d.spares, injs := d.injs.filter (·.nat), downSince := ((List.range 32).filter down).map (fun k => (k, 0)) }
  { r with pool := r.tokens }

/-- The machine after a reset of the device with a memory; the outside keeps what it has received, and numbers of the
model's own go on. -/
def State.after (s : State) (mem : Memory) : State :=
  { State.reset with
    mem := mem, dev := s.dev.after, nextSeq := s.nextSeq, nextOp := s.nextOp, seed := s.seed, inbox := s.inbox, outbox := s.outbox }

/-- RESET_DEVICE (R433): a RESET with ARG0[0] = 1, or through the JTAG port (none). Commands under way are answered
ABORTED, and the RESET itself once the reset is done. What near memory holds then is not given: it reads as when unlisted
(log 94). -/
def execResetDevice (m : Option JcpMsg) (s : State) : Out :=
  match m with
  | none => .next (s.after (s.mem.clear 0 nearBytes))
  | some m => s.mgmtCommand m (fun s =>
      let eps := s.parts.flatMap (·.eps)
      let lost := eps.flatMap (fun e => e.busy.toList ++ e.queue) ++ s.dev.mgmt.queue
      let s := s.after (s.mem.clear 0 nearBytes)
      { s with outbox := s.outbox ++ lost.map (fun q => answer q 14 0 []) ++ [answer m 0 0 []] })

/-- POWER_ON_RESET (R433): as a device reset; near memory starts as it reads when unlisted (log 1), far memory is not the
device's. -/
def execPowerOnReset (s : State) : Out := .next (s.after (s.mem.clear 0 nearBytes))

/-! ### Boot (R434) -/

/-- An image without its signature, and the signature. -/
def signed (image : List Byte) : List Byte × List Byte := (image.take (image.length - 512), image.drop (image.length - 512))

/-- BOOT_ROM_LOAD (R434): the first stage runs if its key has the fused digest and its signature verifies; otherwise the
device locks. -/
def execBootRomLoad (image : List Byte) (s : State) : Out :=
  if s.dev.boot != .rom then .next s
  else
    let key := image.take 512
    let parts := signed image
    let ok := decide (1024 ≤ image.length) && digest key == Config.keyDigest && pssVerify key parts.1 parts.2
    .next (s.modDev (fun d => if ok then { d with boot := .waitfw, fwKey := key } else { d with boot := .locked }))

/-- The image that chunks make up: a later chunk overlays an earlier one, and a gap holds 0. -/
def assemble (chunks : List (Nat × List Byte)) : List Byte :=
  chunks.foldl (fun img c => img.take c.1 ++ List.replicate (c.1 - img.length) 0 ++ c.2 ++ img.drop (c.1 + c.2.length)) []

/-- FW_LOAD (R381, R434): a chunk is stored; the last one makes the device READY if the image verifies, and is refused with
every chunk if not. -/
def execFwLoad (m : JcpMsg) (s : State) : Out :=
  s.mgmtCommand m (fun s =>
    let chunks := s.dev.fw ++ [(argOf m 0, m.payload)]
    if argOf m 1 == 0 then (s.modDev (fun d => { d with fw := chunks })).respond m 0 0 []
    else
      let image := assemble chunks
      let parts := signed image
      if 512 ≤ image.length && pssVerify s.dev.fwKey parts.1 parts.2 then
        (s.modDev (fun d => { d with boot := .ready, fw := chunks, fwMeas := digest parts.1,
                                     flash := (hdrArg m.hdr 2).extractLsb' 0 16 })).respond m 0 0 []
      else (s.modDev (fun d => { d with fw := [] })).respond m 11 0 [])

/-! ### JTAG and the outside (R435, R440, R450) -/

/-- JTAG_INJ_CTL_WRITE (R440): the injection register of an array instance is written; ARMED is read only, and a mask of 0
arms nothing. -/
def execJtagInjCtlWrite (w : InjWrite) (s : State) : Out :=
  if 8 ≤ w.array.toNat then .next s
  else .next (s.arm { array := w.array.toNat, home := w.inst, persist := w.ctl.getLsbD 112, addr := w.ctl.extractLsb' 64 48,
                      mask := w.ctl.extractLsb' 0 64 })

/-- A link goes down or comes up (R450). -/
def State.portLink (s : State) (port : Nat) (up : Bool) : State :=
  s.modDev (fun d =>
    let rest := d.downSince.filter (fun e => e.1 != port)
    if !up then { d with downSince := if d.downSince.any (fun e => e.1 == port) then d.downSince else rest ++ [(port, s.now)] }
    else { d with
      downSince := rest
      cxlUp := if port < 16 then d.cxlUp ||| BitVec.ofNat 16 (2 ^ port) else d.cxlUp
      ethUp := if port < 16 then d.ethUp else d.ethUp ||| BitVec.ofNat 16 (2 ^ (port - 16)) })

/-- A die reaches its temperature limit, or falls below it (R424). -/
def State.dieHot (s : State) (die : Nat) (hot : Bool) : State :=
  s.modDev (fun d => { d with
    hot := d.hot.set die hot
    warm := if hot then d.warm.set die true else d.warm
    cool := if hot then d.cool.set die 0 else d.cool })

/-- Bits of a stored word are inverted from outside (R435). -/
def State.upset (s : State) (i : Inj) : State :=
  if i.mask == 0 then s else s.modDev (fun d => { d with injs := d.injs ++ [{ i with nat := true }] })

end Sys2Proof.Machine
end

