-- ==== Sys2Proof/Machine/Convert.lean ====
section
/-! DEFINITION. Conversion, packing, random numbers and top-k selection (R217 to R223). -/

namespace Sys2Proof.Machine

open Sys2Proof

/-- The floating-point format of a CVT type code (R179). -/
def cvtFmt (ty : Nat) : Fmt :=
  match ty with
  | 0 => f32
  | 1 => f16
  | 2 => bf16
  | _ => f64

/-- The constant column of a CVT source type: FP for the four formats, else the integer column (R174). -/
def cvtCk (ty : Nat) : CK :=
  match ty with
  | 0 => .fp f32
  | 1 => .packed f16
  | 2 => .packed bf16
  | 3 => .fp f64
  | _ => .int

/-- The source element of CVT as a value, with the flags its decoding raises (R217). -/
def cvtSource (ftz : Bool) (ty e : Nat) (v : BitVec 64) : FVal × BitVec 5 :=
  let x := v.toNat
  match ty with
  | 0 => (operand f32 ftz (x % 2 ^ 32), 0)
  | 1 => (operand f16 ftz (x / 2 ^ (16 * e) % 2 ^ 16), 0)
  | 2 => (operand bf16 ftz (x / 2 ^ (16 * e) % 2 ^ 16), 0)
  | 3 => (decF f64 x, 0)
  | 4 => (valOfInt (v.extractLsb' 0 32).toInt, 0)
  | 5 => (valOfInt ((x % 2 ^ 32 : Nat) : Int), 0)
  | 6 =>
    let r := decRN8 (BitVec.ofNat 8 (x / 2 ^ (8 * e)))
    (valOfInt r.1, r.2)
  | _ => (decL4 (BitVec.ofNat 4 (x / 2 ^ (4 * e))), 0)

/-- The result of CVT (R217, R218). -/
def cvtResult (ftz : Bool) (rm : BitVec 2) (ty : Nat) (x : FVal) : Nat × BitVec 5 :=
  match ty with
  | 4 =>
    let r := intConv rm (-(2 ^ 31)) (2 ^ 31 - 1) x
    ((BitVec.ofInt 32 r.1).toNat, r.2)
  | 5 =>
    let r := intConv rm 0 (2 ^ 32 - 1) x
    (r.1.toNat, r.2)
  | 6 => encRN8 x
  | 7 => encL4 x
  | _ => deliver (cvtFmt ty) rm (ftz && ty != 3) x.exact

/-- CVT (R217, R219). -/
def execCvt (t : Tail) (rm : BitVec 2) (dst src e : BitVec 3) (d : Dst) (a : Src) (s : State) : Out :=
  laneOp t s 12 d (if dst == 3 then 2 else 1) [(a, cvtCk src.toNat, if src == 3 then 2 else 1)] (fun c v l =>
    let x := cvtSource c.tk.ftz src.toNat e.toNat (arg v 0 l)
    let r := cvtResult c.tk.ftz rm dst.toNat x.1
    (BitVec.ofNat 64 r.1, x.2 ||| r.2))

/-- A word of eight nibbles, the first lowest. -/
def ofNibbles (f : Nat → BitVec 4) : BitVec 32 :=
  f 7 ++ f 6 ++ f 5 ++ f 4 ++ f 3 ++ f 2 ++ f 1 ++ f 0

/-- PACK4 by mode (R220). -/
def pack4 (mode : Nat) (a b : BitVec 32) : BitVec 32 :=
  match mode with
  | 0 => ofNibbles (fun i => if i < 4 then a.extractLsb' (8 * i) 4 else b.extractLsb' (8 * (i - 4)) 4)
  | 1 => b.extractLsb' 16 8 ++ b.extractLsb' 0 8 ++ a.extractLsb' 16 8 ++ a.extractLsb' 0 8
  | _ => b.extractLsb' 0 16 ++ a.extractLsb' 0 16

/-- UNPK4 by mode and half (R221). -/
def unpk4 (mode h : Nat) (a : BitVec 32) : BitVec 32 :=
  match mode with
  | 0 => ofNibbles (fun i => if i % 2 == 0 then a.extractLsb' (4 * (4 * h + i / 2)) 4 else 0)
  | 1 => 0#8 ++ a.extractLsb' (8 * (2 * h + 1)) 8 ++ 0#8 ++ a.extractLsb' (8 * (2 * h)) 8
  | _ => 0#16 ++ a.extractLsb' (16 * h) 16

/-- A PACK4 in a mode, latency 2. -/
def packOp (mode : Nat) (t : Tail) (d : Dst) (a b : Src) (s : State) : Out :=
  laneOp t s 2 d 1 [(a, .int, 1), (b, .int, 1)] (fun _ v l => ((pack4 mode (arg32 v 0 l) (arg32 v 1 l)).setWidth 64, 0))

/-- An UNPK4 in a mode, latency 2. -/
def unpkOp (mode : Nat) (t : Tail) (hi : Bool) (d : Dst) (a : Src) (s : State) : Out :=
  laneOp t s 2 d 1 [(a, .int, 1)] (fun _ v l => ((unpk4 mode hi.toNat (arg32 v 0 l)).setWidth 64, 0))

/-- PACK4.n4 (R220). -/
def execPack4N4 (t : Tail) (d : Dst) (a b : Src) (s : State) : Out := packOp 0 t d a b s
/-- PACK4.b8 (R220). -/
def execPack4B8 (t : Tail) (d : Dst) (a b : Src) (s : State) : Out := packOp 1 t d a b s
/-- PACK4.h16 (R220). -/
def execPack4H16 (t : Tail) (d : Dst) (a b : Src) (s : State) : Out := packOp 2 t d a b s
/-- UNPK4.n4 (R221). -/
def execUnpk4N4 (t : Tail) (hi : Bool) (d : Dst) (a : Src) (s : State) : Out := unpkOp 0 t hi d a s
/-- UNPK4.b8 (R221). -/
def execUnpk4B8 (t : Tail) (hi : Bool) (d : Dst) (a : Src) (s : State) : Out := unpkOp 1 t hi d a s
/-- UNPK4.h16 (R221). -/
def execUnpk4H16 (t : Tail) (hi : Bool) (d : Dst) (a : Src) (s : State) : Out := unpkOp 2 t hi d a s

/-- The rounds of RNG.CB from a key and a counter (R222). -/
def rngRounds (k x0 x1 : BitVec 32) : Nat → BitVec 32
  | 0 => x0 ^^^ x1
  | n + 1 =>
    let p := x0.toNat * 0xD2511F53
    rngRounds (k + 0x9E3779B9#32) (BitVec.ofNat 32 (p / 2 ^ 32) ^^^ x1 ^^^ k) (BitVec.ofNat 32 p) n

/-- The number of rounds of a code (R222). -/
def rngCount (r : BitVec 2) : Nat :=
  match r.toNat with
  | 0 => 10
  | 1 => 6
  | 2 => 4
  | _ => 2

/-- RNG.CB (R222). -/
def execRngCb (t : Tail) (rounds : BitVec 2) (d : Dst) (a b : Src) (s : State) : Out :=
  laneOp t s 12 d 1 [(a, .int, 1), (b, .int, 2)] (fun _ v l =>
    let x := arg v 1 l
    ((rngRounds (arg32 v 0 l) (x.extractLsb' 0 32) (x.extractLsb' 32 32) (rngCount rounds)).setWidth 64, 0))

/-- The magnitude by which VTOPK ranks a value; NaNs lie below every number (R223). -/
def topkMag (s32 : Bool) (v : BitVec 32) : Int :=
  if s32 then (v.toInt.natAbs : Int)
  else
    let m := v.toNat % 2 ^ 31
    if f32.infBits < m then -1 else m

/-- A lane's rank in its group among the active lanes (R223). -/
def topkRank (s32 : Bool) (w : Nat) (act : Mask) (v : Nat → BitVec 32) (l : Nat) : Nat :=
  ((lanesOf act).filter (fun j => j / w == l / w &&
    (topkMag s32 (v l) < topkMag s32 (v j) || (topkMag s32 (v j) == topkMag s32 (v l) && decide (j < l))))).length

/-- VTOPK (R223). -/
def execVtopk (t : Tail) (km1 : BitVec 3) (w : BitVec 2) (s32 rank : Bool) (d : Dst) (a : Src) (s : State) : Out :=
  laneOp t s 6 d 1 [(a, .int, 1)] (fun c v l =>
    let x := arg32 v 0
    let r := topkRank s32 (2 ^ (3 + w.toNat)) c.act x l
    let chosen := decide (r ≤ km1.toNat)
    let val := if !s32 && topkMag false (x l) == -1 then BitVec.ofNat 32 f32.canon else x l
    let out := if rank then (if chosen then BitVec.ofNat 32 r else BitVec.allOnes 32) else (if chosen then val else 0)
    (out.setWidth 64, 0))

end Sys2Proof.Machine
end

