-- ==== Sys2Proof/Machine/CrossLane.lean ====
section
/-! DEFINITION. Compares, predicates, votes and cross-lane moves (R202 to R208). -/

namespace Sys2Proof.Machine

open Sys2Proof

/-- A predicate result of two clocks (R61): each lane's value in bit 0, with the flags raised. -/
def predOp (t : Tail) (s : State) (p : BitVec 3) (ws : List Want) (f : Ctx → List (Lanes 64) → Nat → Bool × BitVec 5) : Out :=
  laneOp t s 2 (.p p) 1 ws (fun c v l => let r := f c v l; (if r.1 then 1 else 0, r.2))

/-- ICMP (R202). -/
def execIcmp (t : Tail) (cond : BitVec 3) (w64 : Bool) (p : BitVec 3) (a b : Src) (s : State) : Out :=
  if w64 then predOp t s p [(a, .int, 2), (b, .int, 2)] (fun _ v l => (icmp cond (arg v 0 l) (arg v 1 l), 0))
  else predOp t s p [(a, .int, 1), (b, .int, 1)] (fun _ v l => (icmp cond (arg32 v 0 l) (arg32 v 1 l), 0))

/-- The bits that FCMP compares: the operand, or its element of a packed type (R203). -/
def fcmpBits (ty : BitVec 2) (e : Bool) (v : BitVec 64) : Nat :=
  match ty.toNat with
  | 0 => v.toNat % 2 ^ 32
  | 1 => v.toNat
  | _ => if e then v.toNat / 2 ^ 16 % 2 ^ 16 else v.toNat % 2 ^ 16

/-- FCMP (R203). -/
def execFcmp (t : Tail) (cond : BitVec 3) (ty : BitVec 2) (e : Bool) (p : BitVec 3) (a b : Src) (s : State) : Out :=
  let f := fcmpFmt ty
  let ck : CK := if ty.toNat < 2 then .fp f else .packed f
  let words := if ty == 1 then 2 else 1
  predOp t s p [(a, ck, words), (b, ck, words)] (fun c v l =>
    fCompare f c.tk.ftz cond.toNat (fcmpBits ty e (arg v 0 l)) (fcmpBits ty e (arg v 1 l)))

/-- A lane of a predicate, negated where asked. -/
def Tussock.predAt (y : Tussock) (neg : Bool) (p : BitVec 3) (l : Nat) : Bool := neg ^^ (y.pred p).getLsbD l

/-- PLOG (R204). -/
def execPlog (t : Tail) (table : BitVec 4) (p : BitVec 3) (na : Bool) (pa : BitVec 3) (nb : Bool) (pb : BitVec 3) (s : State) : Out :=
  predOp t s p [] (fun c _ l => (table.getLsbD (2 * (c.tk.predAt na pa l).toNat + (c.tk.predAt nb pb l).toNat), 0))

/-- PMOV.r (R205). -/
def execPmovR (t : Tail) (d : Dst) (s : State) : Out :=
  laneOp t s 2 d 1 [] (fun c _ l => (BitVec.ofNat 64 ((List.range 8).foldl (fun n k =>
    if (c.tk.pred (BitVec.ofNat 3 k)).getLsbD l then n + 2 ^ k else n) 0), 0))

/-- PMOV.w: p0 to p6 of the active lanes, two clocks after issue (R205). A status in p6 gives way to the value (R61). -/
def execPmovW (t : Tail) (a : Src) (s : State) : Out :=
  issue t s (fun c s =>
    match c.read s [(a, .int, 1)] with
    | .error r => r
    | .ok rd =>
      if c.act == 0 then .next rd.s false
      else
        let ps := (List.range 7).map (fun k => (k, maskOf (fun l => (arg32 rd.v 0 l).getLsbD k)))
        .next (c.addResult rd.s 2 { mask := c.act, preds := ps, inHandler := c.sup }) true)

/-! ### Votes (R206) -/

/-- The active lanes whose predicate is true. -/
def Ctx.voters (c : Ctx) (neg : Bool) (p : BitVec 3) : Mask := maskOf (fun l => c.tk.predAt neg p l) &&& c.act

/-- A vote into a predicate of every active lane. -/
def voteP (t : Tail) (s : State) (p : BitVec 3) (na : Bool) (pa : BitVec 3) (f : Mask → Mask → Bool) : Out :=
  laneOp t s 6 (.p p) 1 [] (fun c _ _ => (if f (c.voters na pa) c.act then 1 else 0, 0))

/-- A vote into a register: in every active lane, or once into a g register. -/
def voteR (t : Tail) (s : State) (d : Dst) (na : Bool) (pa : BitVec 3) (f : Mask → Nat) : Out :=
  laneOp t s 6 d 1 [] (fun c _ _ => (BitVec.ofNat 64 (f (c.voters na pa)), 0))

/-- VOTE.and (R206). -/
def execVoteAnd (t : Tail) (p : BitVec 3) (na : Bool) (pa : BitVec 3) (s : State) : Out := voteP t s p na pa (fun v m => v == m)
/-- VOTE.or (R206). -/
def execVoteOr (t : Tail) (p : BitVec 3) (na : Bool) (pa : BitVec 3) (s : State) : Out := voteP t s p na pa (fun v _ => v != 0)
/-- VOTE.par (R206). -/
def execVotePar (t : Tail) (p : BitVec 3) (na : Bool) (pa : BitVec 3) (s : State) : Out :=
  voteP t s p na pa (fun v _ => (lanesOf v).length % 2 == 1)
/-- VOTE.mask (R206). -/
def execVoteMask (t : Tail) (d : Dst) (na : Bool) (pa : BitVec 3) (s : State) : Out := voteR t s d na pa (fun v => v.toNat)
/-- VOTE.cnt (R206). -/
def execVoteCnt (t : Tail) (d : Dst) (na : Bool) (pa : BitVec 3) (s : State) : Out := voteR t s d na pa (fun v => (lanesOf v).length)
/-- VOTE.lead (R206). -/
def execVoteLead (t : Tail) (d : Dst) (na : Bool) (pa : BitVec 3) (s : State) : Out :=
  voteR t s d na pa (fun v => (lanesOf v).headD 32)

/-! ### Shuffles (R207, R208) -/

/-- The source lane of SHFL in a segment of width w: mode, lane, amount (R207). -/
def shflSrc (mode w l v : Nat) : Nat :=
  let b := l - l % w
  let r := l % w
  let v := v % w
  match mode with
  | 0 => b + v
  | 1 => b + (r + v) % w
  | 2 => b + (w - 1 - r + v) % w
  | _ => b + (r ^^^ v)

/-- SHFL in a mode. -/
def shfl (mode : Nat) (t : Tail) (z : Bool) (d : Dst) (a : Src) (v : ShflAmt) (k : BitVec 3) (s : State) : Out :=
  let w := 2 ^ k.toNat
  let amount := fun (vs : List (Lanes 64)) (l : Nat) => match v with
    | .src _ => (arg32 vs 1 l).toNat
    | .imm i => i.toNat
  let ws : List Want := match v with
    | .src b => [(a, .int, 1), (b, .int, 1)]
    | .imm _ => [(a, .int, 1)]
  laneOp t s 6 d 1 ws (fun c vs l =>
    let src := shflSrc mode w l (amount vs l)
    (if z && !c.act.getLsbD src then 0 else arg vs 0 src, 0))

/-- SHFL.sel (R207). -/
def execShflSel (t : Tail) (z : Bool) (d : Dst) (a : Src) (v : ShflAmt) (k : BitVec 3) (s : State) : Out := shfl 0 t z d a v k s
/-- SHFL.rot (R207). -/
def execShflRot (t : Tail) (z : Bool) (d : Dst) (a : Src) (v : ShflAmt) (k : BitVec 3) (s : State) : Out := shfl 1 t z d a v k s
/-- SHFL.rev (R207). -/
def execShflRev (t : Tail) (z : Bool) (d : Dst) (a : Src) (v : ShflAmt) (k : BitVec 3) (s : State) : Out := shfl 2 t z d a v k s
/-- SHFL.xor (R207). -/
def execShflXor (t : Tail) (z : Bool) (d : Dst) (a : Src) (v : ShflAmt) (k : BitVec 3) (s : State) : Out := shfl 3 t z d a v k s

/-- BCAST (R208). -/
def execBcast (t : Tail) (d : Dst) (a : Src) (b : USrc) (s : State) : Out :=
  laneOp t s 6 d 1 [(a, .int, 1)] (fun c v _ => (arg v 0 ((c.tk.uval b).toNat % 32), 0))

end Sys2Proof.Machine
end

