-- ==== Sys2Proof/Machine/Integer.lean ====
section
/-! DEFINITION. Integer, logic, shift and bit-field instructions, lane and uniform (R187, R189, R200, R201). -/

namespace Sys2Proof.Machine

open Sys2Proof

/-- How format I extends IMM18 (R189). -/
def immAt (signed : Bool) (w : Nat) (imm : BitVec 18) : BitVec w := if signed then imm.signExtend w else imm.setWidth w

/-- Whether a destination makes the word a uniform operation (R177). -/
def isUniform : Dst → Bool
  | .g _ _ => true
  | _ => false

/-- An instruction of one source, at W = 32 in each lane or once at W = 64 (R187). -/
def intOp1 (t : Tail) (s : State) (d : Dst) (a : Src) (f : (w : Nat) → BitVec w → BitVec w) : Out :=
  if isUniform d then uniformOp t s d [a] (fun v => f 64 (v.getD 0 0))
  else laneOp t s 2 d 1 [(a, .int, 1)] (fun _ v l => ((f 32 (arg32 v 0 l)).setWidth 64, 0))

/-- An instruction of two sources of which the second may be IMM18 (R165, R189). -/
def intOp2 (t : Tail) (s : State) (d : Dst) (a : Src) (b : SrcI) (signed : Bool)
    (f : (w : Nat) → BitVec w → BitVec w → BitVec w) : Out :=
  match b with
  | .src b =>
    if isUniform d then uniformOp t s d [a, b] (fun v => f 64 (v.getD 0 0) (v.getD 1 0))
    else laneOp t s 2 d 1 [(a, .int, 1), (b, .int, 1)] (fun _ v l => ((f 32 (arg32 v 0 l) (arg32 v 1 l)).setWidth 64, 0))
  | .imm i =>
    if isUniform d then uniformOp t s d [a] (fun v => f 64 (v.getD 0 0) (immAt signed 64 i))
    else laneOp t s 2 d 1 [(a, .int, 1)] (fun _ v l => ((f 32 (arg32 v 0 l) (immAt signed 32 i)).setWidth 64, 0))

/-- An instruction of three sources. -/
def intOp3 (t : Tail) (s : State) (d : Dst) (a b c : Src) (f : (w : Nat) → BitVec w → BitVec w → BitVec w → BitVec w) : Out :=
  if isUniform d then uniformOp t s d [a, b, c] (fun v => f 64 (v.getD 0 0) (v.getD 1 0) (v.getD 2 0))
  else laneOp t s 2 d 1 [(a, .int, 1), (b, .int, 1), (c, .int, 1)]
    (fun _ v l => ((f 32 (arg32 v 0 l) (arg32 v 1 l) (arg32 v 2 l)).setWidth 64, 0))

/-! ### The operations of R200 and R201 at a width -/

/-- The high half of a product (IMULH). -/
def mulHigh (u : Bool) (w : Nat) (a b : BitVec w) : BitVec w :=
  if u then BitVec.ofNat w (a.toNat * b.toNat / 2 ^ w) else BitVec.ofInt w (a.toInt * b.toInt / 2 ^ w)

/-- The smaller value (IMIN). -/
def minOf (u : Bool) (w : Nat) (a b : BitVec w) : BitVec w := if (if u then a.ule b else a.sle b) then a else b

/-- The larger value (IMAX). -/
def maxOf (u : Bool) (w : Nat) (a b : BitVec w) : BitVec w := if (if u then b.ule a else b.sle a) then a else b

/-- The absolute value; that of the least value is itself (IABS). -/
def absOf (w : Nat) (a : BitVec w) : BitVec w := if a.msb then -a else a

/-- The shift count B[7:0]. -/
def shiftCount {w : Nat} (b : BitVec w) : Nat := b.toNat % 256

/-- SHL: 0 for n ≥ W. -/
def shlOf (w : Nat) (a b : BitVec w) : BitVec w := a <<< shiftCount b
/-- SHR: 0 for n ≥ W. -/
def shrOf (w : Nat) (a b : BitVec w) : BitVec w := a >>> shiftCount b
/-- SAR: every bit the sign for n ≥ W. -/
def sarOf (w : Nat) (a b : BitVec w) : BitVec w := a.sshiftRight (shiftCount b)
/-- ROT: left by n mod W. -/
def rotOf (w : Nat) (a b : BitVec w) : BitVec w := a.rotateLeft (shiftCount b % w)

/-- The number of one bits (POPC). -/
def popOf (w : Nat) (a : BitVec w) : BitVec w := BitVec.ofNat w ((List.range w).filter (fun k => a.getLsbD k)).length

/-- Leading zero bits, W for 0 (CLZ). -/
def clzOf (w : Nat) (a : BitVec w) : BitVec w := BitVec.ofNat w (if a.toNat = 0 then w else w - 1 - Nat.log2 a.toNat)

/-- Bit i to bit W − 1 − i (BREV). -/
def brevOf (w : Nat) (a : BitVec w) : BitVec w := a.reverse

/-- The position of a bit field (R201). -/
def fieldPos {w : Nat} (c : BitVec w) : Nat := c.toNat % 64 % w
/-- The length of a bit field (R201). -/
def fieldLen {w : Nat} (c : BitVec w) : Nat := min (c.toNat / 256 % 128) w

/-- BFX (R201). -/
def bfxOf (u : Bool) (w : Nat) (a c : BitVec w) : BitVec w :=
  let len := fieldLen c
  let f := (a >>> fieldPos c).toNat % 2 ^ len
  if !u && decide (0 < len) && decide (2 ^ (len - 1) ≤ f) then BitVec.ofInt w ((f : Int) - 2 ^ len) else BitVec.ofNat w f

/-- BFI (R201). -/
def bfiOf (w : Nat) (a b c : BitVec w) : BitVec w :=
  let mask : BitVec w := BitVec.ofNat w (2 ^ fieldLen c - 1) <<< fieldPos c
  (a &&& ~~~mask) ||| ((b <<< fieldPos c) &&& mask)

/-! ### The instructions -/

/-- IADD (R200). -/
def execIadd (t : Tail) (d : Dst) (a : Src) (b : SrcI) (s : State) : Out := intOp2 t s d a b true (fun _ x y => x + y)
/-- ISUB (R200). -/
def execIsub (t : Tail) (d : Dst) (a : Src) (b : SrcI) (s : State) : Out := intOp2 t s d a b true (fun _ x y => x - y)
/-- IMUL (R200). -/
def execImul (t : Tail) (d : Dst) (a : Src) (b : SrcI) (s : State) : Out := intOp2 t s d a b true (fun _ x y => x * y)
/-- IMULH (R200). -/
def execImulh (t : Tail) (u : Bool) (d : Dst) (a : Src) (b : SrcI) (s : State) : Out := intOp2 t s d a b true (mulHigh u)
/-- IMAD (R200). -/
def execImad (t : Tail) (d : Dst) (a b c : Src) (s : State) : Out := intOp3 t s d a b c (fun _ x y z => x * y + z)
/-- IMIN (R200). -/
def execImin (t : Tail) (u : Bool) (d : Dst) (a : Src) (b : SrcI) (s : State) : Out := intOp2 t s d a b true (minOf u)
/-- IMAX (R200). -/
def execImax (t : Tail) (u : Bool) (d : Dst) (a : Src) (b : SrcI) (s : State) : Out := intOp2 t s d a b true (maxOf u)
/-- IABS (R200). -/
def execIabs (t : Tail) (d : Dst) (a : Src) (s : State) : Out := intOp1 t s d a absOf
/-- AND (R200). -/
def execAnd (t : Tail) (d : Dst) (a : Src) (b : SrcI) (s : State) : Out := intOp2 t s d a b false (fun _ x y => x &&& y)
/-- OR (R200). -/
def execOr (t : Tail) (d : Dst) (a : Src) (b : SrcI) (s : State) : Out := intOp2 t s d a b false (fun _ x y => x ||| y)
/-- XOR (R200). -/
def execXor (t : Tail) (d : Dst) (a : Src) (b : SrcI) (s : State) : Out := intOp2 t s d a b false (fun _ x y => x ^^^ y)
/-- NOT (R200). -/
def execNot (t : Tail) (d : Dst) (a : Src) (s : State) : Out := intOp1 t s d a (fun _ x => ~~~x)
/-- SHL (R200). -/
def execShl (t : Tail) (d : Dst) (a : Src) (b : SrcI) (s : State) : Out := intOp2 t s d a b false shlOf
/-- SHR (R200). -/
def execShr (t : Tail) (d : Dst) (a : Src) (b : SrcI) (s : State) : Out := intOp2 t s d a b false shrOf
/-- SAR (R200). -/
def execSar (t : Tail) (d : Dst) (a : Src) (b : SrcI) (s : State) : Out := intOp2 t s d a b false sarOf
/-- ROT (R200). -/
def execRot (t : Tail) (d : Dst) (a : Src) (b : SrcI) (s : State) : Out := intOp2 t s d a b false rotOf
/-- BFX (R201). -/
def execBfx (t : Tail) (u : Bool) (d : Dst) (a c : Src) (s : State) : Out := intOp2 t s d a (.src c) false (bfxOf u)
/-- BFI (R201). -/
def execBfi (t : Tail) (d : Dst) (a b c : Src) (s : State) : Out := intOp3 t s d a b c bfiOf
/-- POPC (R200). -/
def execPopc (t : Tail) (d : Dst) (a : Src) (s : State) : Out := intOp1 t s d a popOf
/-- CLZ (R200). -/
def execClz (t : Tail) (d : Dst) (a : Src) (s : State) : Out := intOp1 t s d a clzOf
/-- BREV (R200). -/
def execBrev (t : Tail) (d : Dst) (a : Src) (s : State) : Out := intOp1 t s d a brevOf
/-- SEL (R200). -/
def execSel (t : Tail) (d : Dst) (a b c : Src) (s : State) : Out := intOp3 t s d a b c (fun _ x y z => if z != 0 then x else y)
/-- MOV (R199). -/
def execMov (t : Tail) (d : Dst) (a : Src) (s : State) : Out := intOp1 t s d a (fun _ x => x)

/-- LEA: A + (B << (C mod 8)); format I takes B and the shift from IMM18 (R200). -/
def execLea (t : Tail) (d : Dst) (a : Src) (bc : LeaI) (s : State) : Out :=
  match bc with
  | .src b c => intOp3 t s d a b c (fun _ x y z => x + (y <<< (z.toNat % 8)))
  | .imm i => intOp1 t s d a (fun w x => x + (((i.extractLsb' 3 15).signExtend w) <<< (i.extractLsb' 0 3).toNat))

end Sys2Proof.Machine
end

