-- ==== Sys2Proof/Machine/Tick.lean ====
section
/-! DEFINITION. The passing of one reference clock: the granules' own clocks, the reads that are due, the bank write
queues, the age of waits (R43, R101, R126, R134, R141, R258, R424, R454). -/

namespace Sys2Proof.Machine

open Sys2Proof

/-! ### Clocks (R424) -/

/-- What a granule's clock gains at a reference clock, in 27ths: 2.7, 2.2 and 1.6 GHz, or off. -/
def Point.rate : Point → Nat
  | .p0 => 27
  | .p1 => 22
  | .p2 => 16
  | .off => 0

/-- The granules' accumulators after one more reference clock, before the whole clocks are taken off. -/
def Device.gain (d : Device) : List Nat := d.gacc.zipIdx.map (fun e => e.1 + (d.points.getD e.2 .off).rate)

/-- The granules whose own clock advances at this reference clock. -/
def Device.ticking (d : Device) : List Nat := (d.gain.zipIdx.filter (fun e => 27 ≤ e.1)).map (·.2)

/-- One reference clock on every granule's clock. -/
def Device.advance (d : Device) : Device :=
  { d with gacc := d.gain.map (fun a => if 27 ≤ a then a - 27 else a)
           gclk := (d.gclk.zip d.gain).map (fun e => if 27 ≤ e.2 then e.1 + 1 else e.1) }

/-! ### Reads that are due -/

/-- Reads an access whose clock has come; other accesses are as they were. -/
def State.sampleAcc (s : State) (o : Op) (sp : Memory) (a : Acc) : Acc :=
  match a.act with
  | .read =>
    if a.done || decide (s.accClk o a < a.at_) then a
    else
      let v := if a.glob then s.mem.read a.addr a.size else sp.read a.addr a.size
      { a with done := true, val := BitVec.ofNat 128 v ^^^ a.flip }
  | _ => a

/-- Reads a row whose clock has come from the bank array. -/
def sampleRow (clk : Nat) (arr : Memory) (r : RowRead) : RowRead :=
  if r.got.isSome || decide (clk < r.at_) then r else { r with got := some (arr.bytes r.addr r.len) }

/-- The reads of an operation that are due at this clock. ACQ.E then waits until the clock, which takes the place of its
access's, by which the bound writes that a REL.E has published at its object are performed (R139). -/
def State.sampleOp (s : State) (o : Op) : Op :=
  let x := s.gang? o.gang
  let sp : Memory := (x.map (·.sp)).getD []
  let arr : Memory := (x.map (·.arr)).getD []
  let row := sampleRow (s.opClk o) arr
  match o.kind with
  | .load d sx accs q => { o with kind := .load d sx (accs.map (s.sampleAcc o sp)) q }
  | .desc accs => { o with kind := .desc (accs.map (s.sampleAcc o sp)) }
  | .acqE d a =>
    let b := s.sampleAcc o sp a
    let pubs := ((x.bind (fun g => s.part? g.part)).map (·.pubs)).getD []
    let drain := ((pubs.find? (fun e => e.1 == a.addr)).map (·.2)).getD 0
    { o with kind := .acqE d (if b.done && !a.done then { b with at_ := drain } else b) }
  | .tile (.xld n rows) names => { o with kind := .tile (.xld n (rows.map row)) names }
  | .tile (.yld n f rows) names => { o with kind := .tile (.yld n f (rows.map row)) names }
  | .loop l => { o with kind := .loop { l with
      rowsA := l.rowsA.map row, rowsB := l.rowsB.map row, nextA := l.nextA.map row, nextB := l.nextB.map row } }
  | _ => o

/-- The reads of global memory that an operation makes at this clock. -/
def State.readsNow (s : State) (o : Op) : List Acc :=
  let new := fun (a : Acc) => a.glob && a.act == .read && !a.done && decide (a.at_ ≤ s.accClk o a)
  match o.kind with
  | .load _ _ accs _ | .desc accs => accs.filter new
  | .acqE _ a => [a].filter new
  | _ => []

/-- The demand of the reads of this clock at their channels (R429). -/
def State.readDemand (s : State) : State :=
  s.ops.foldl (fun s' o => (s.readsNow o).foldl (fun s' a => s'.demandOf o.gang a.addr a.size false) s') s

/-- Whether a loop has read its last slice (R114). -/
def Loop.allRead (l : Loop) : Bool :=
  l.started && decide (l.steps ≤ l.step + 2) && (l.rowsA ++ l.rowsB ++ l.nextA ++ l.nextB).all (fun r => r.got.isSome)

/-- The commands whose range locks go because their last slice has been read. -/
def State.readOut (s : State) : List Nat :=
  (s.ops.filter (fun o => match o.kind with
    | .loop l => l.allRead
    | _ => false)).map (·.id)

/-! ### Waits and selections -/

/-- The core's clock from which an active tussock has been waiting (R43). -/
def Tussock.aged (y : Tussock) (clk : Nat) : Tussock :=
  if y.active.isSome && y.waiting then { y with waitSince := some (y.waitSince.getD clk) } else { y with waitSince := none }

/-- Puts an element into a rising list, once. -/
def enter {α : Type} [DecidableEq α] (lt : α → α → Bool) (e : α) : List α → List α
  | [] => [e]
  | x :: rest => if e = x then x :: rest else if lt e x then e :: x :: rest else x :: enter lt e rest

/-- The order of the octants of a clock: by core position, then octant (R413). -/
def octBefore (a b : Nat × Nat) : Bool := decide (a.1 < b.1) || (a.1 == b.1 && decide (a.2 < b.2))

/-- The octants that make a selection at this clock: those with active tussocks on granules that tick (R48), in the order
of R413. -/
def State.sweepOf (s : State) (ticking : List Nat) : List (Nat × Nat) :=
  ((((s.gangs.filterMap (fun x => x.core.map (fun c => (c, x)))).filter (fun e => ticking.contains (granuleOf e.1))).flatMap
    (fun e => (e.2.tks.filter (fun y => y.active.isSome && !y.ended)).map (fun y => (e.1, y.oct)))).foldl (fun l e => enter octBefore e l) [])

/-- One reference clock passes: what is due is read before anything of this clock is written. -/
def State.tick (s : State) : State :=
  let ticking := s.dev.ticking
  let s : State := { s with now := s.now + 1, dev := s.dev.advance }
  let s : State := { s.readDemand with ops := s.ops.map s.sampleOp }
  let s := s.readOut.foldl (fun s o => s.unlock o) s
  let gang := fun (x : Gang) => match x.core with
    | none => x
    | some c => { x.drainTo (s.clk c) with tks := x.tks.map (fun y => y.aged (s.clk c)) }
  let s : State := { s with gangs := s.gangs.map gang }
  { s with sweep := s.sweepOf ticking }

end Sys2Proof.Machine
end

