-- ==== Sys2Proof/Machine/Dispatch.lean ====
section
/-! DEFINITION. The dispatch: one arm for each constructor of `Instr`. -/

namespace Sys2Proof.Machine

open Sys2Proof

def exec (i : Instr) (s : State) : Host.Outcome State Fault Refusal :=
  match i with
  | .nop t => Sys2Proof.Machine.execNop t s
  | .exit t => Sys2Proof.Machine.execExit t s
  | .pbt t n off => Sys2Proof.Machine.execPbt t n off s
  | .pbtr t n g => Sys2Proof.Machine.execPbtr t n g s
  | .xfer t n j link split => Sys2Proof.Machine.execXfer t n j link split s
  | .btinv t mask => Sys2Proof.Machine.execBtinv t mask s
  | .btmov t d r => Sys2Proof.Machine.execBtmov t d r s
  | .icinv t base len => Sys2Proof.Machine.execIcinv t base len s
  | .yield t cond off => Sys2Proof.Machine.execYield t cond off s
  | .movi t d imm => Sys2Proof.Machine.execMovi t d imm s
  | .movw t d imm => Sys2Proof.Machine.execMovw t d imm s
  | .spill t n rel cm1 => Sys2Proof.Machine.execSpill t n rel cm1 s
  | .stage t n cm1 m => Sys2Proof.Machine.execStage t n cm1 m s
  | .iadd t d a b => Sys2Proof.Machine.execIadd t d a b s
  | .isub t d a b => Sys2Proof.Machine.execIsub t d a b s
  | .imul t d a b => Sys2Proof.Machine.execImul t d a b s
  | .imulh t u d a b => Sys2Proof.Machine.execImulh t u d a b s
  | .imad t d a b c => Sys2Proof.Machine.execImad t d a b c s
  | .imin t u d a b => Sys2Proof.Machine.execImin t u d a b s
  | .imax t u d a b => Sys2Proof.Machine.execImax t u d a b s
  | .iabs t d a => Sys2Proof.Machine.execIabs t d a s
  | .and t d a b => Sys2Proof.Machine.execAnd t d a b s
  | .or t d a b => Sys2Proof.Machine.execOr t d a b s
  | .xor t d a b => Sys2Proof.Machine.execXor t d a b s
  | .not t d a => Sys2Proof.Machine.execNot t d a s
  | .icmp t cond w64 p a b => Sys2Proof.Machine.execIcmp t cond w64 p a b s
  | .fcmp t cond ty e p a b => Sys2Proof.Machine.execFcmp t cond ty e p a b s
  | .plog t table p na pa nb pb => Sys2Proof.Machine.execPlog t table p na pa nb pb s
  | .pmovR t d => Sys2Proof.Machine.execPmovR t d s
  | .pmovW t a => Sys2Proof.Machine.execPmovW t a s
  | .shl t d a b => Sys2Proof.Machine.execShl t d a b s
  | .shr t d a b => Sys2Proof.Machine.execShr t d a b s
  | .sar t d a b => Sys2Proof.Machine.execSar t d a b s
  | .rot t d a b => Sys2Proof.Machine.execRot t d a b s
  | .bfx t u d a c => Sys2Proof.Machine.execBfx t u d a c s
  | .bfi t d a b c => Sys2Proof.Machine.execBfi t d a b c s
  | .popc t d a => Sys2Proof.Machine.execPopc t d a s
  | .clz t d a => Sys2Proof.Machine.execClz t d a s
  | .brev t d a => Sys2Proof.Machine.execBrev t d a s
  | .sel t d a b c => Sys2Proof.Machine.execSel t d a b c s
  | .mov t d a => Sys2Proof.Machine.execMov t d a s
  | .lea t d a bc => Sys2Proof.Machine.execLea t d a bc s
  | .voteAnd t p na pa => Sys2Proof.Machine.execVoteAnd t p na pa s
  | .voteOr t p na pa => Sys2Proof.Machine.execVoteOr t p na pa s
  | .votePar t p na pa => Sys2Proof.Machine.execVotePar t p na pa s
  | .voteMask t d na pa => Sys2Proof.Machine.execVoteMask t d na pa s
  | .voteCnt t d na pa => Sys2Proof.Machine.execVoteCnt t d na pa s
  | .voteLead t d na pa => Sys2Proof.Machine.execVoteLead t d na pa s
  | .shflSel t z d a v k => Sys2Proof.Machine.execShflSel t z d a v k s
  | .shflRot t z d a v k => Sys2Proof.Machine.execShflRot t z d a v k s
  | .shflRev t z d a v k => Sys2Proof.Machine.execShflRev t z d a v k s
  | .shflXor t z d a v k => Sys2Proof.Machine.execShflXor t z d a v k s
  | .bcast t d a b => Sys2Proof.Machine.execBcast t d a b s
  | .faddF32 t rm dyn d a b => Sys2Proof.Machine.execFaddF32 t rm dyn d a b s
  | .fsubF32 t rm dyn d a b => Sys2Proof.Machine.execFsubF32 t rm dyn d a b s
  | .fmulF32 t rm dyn d a b => Sys2Proof.Machine.execFmulF32 t rm dyn d a b s
  | .ffmaF32 t rm d a b c => Sys2Proof.Machine.execFfmaF32 t rm d a b c s
  | .fminF32 t d a b => Sys2Proof.Machine.execFminF32 t d a b s
  | .fmaxF32 t d a b => Sys2Proof.Machine.execFmaxF32 t d a b s
  | .frcpF32 t rm d a => Sys2Proof.Machine.execFrcpF32 t rm d a s
  | .frsqF32 t rm d a => Sys2Proof.Machine.execFrsqF32 t rm d a s
  | .fsqrtF32 t rm d a => Sys2Proof.Machine.execFsqrtF32 t rm d a s
  | .fexp2F32 t rm d a => Sys2Proof.Machine.execFexp2F32 t rm d a s
  | .flog2F32 t rm d a => Sys2Proof.Machine.execFlog2F32 t rm d a s
  | .fsinF32 t rm d a => Sys2Proof.Machine.execFsinF32 t rm d a s
  | .fcosF32 t rm d a => Sys2Proof.Machine.execFcosF32 t rm d a s
  | .fclassF32 t d a => Sys2Proof.Machine.execFclassF32 t d a s
  | .faddF16X2 t rm dyn d a b => Sys2Proof.Machine.execFaddF16X2 t rm dyn d a b s
  | .fsubF16X2 t rm dyn d a b => Sys2Proof.Machine.execFsubF16X2 t rm dyn d a b s
  | .fmulF16X2 t rm dyn d a b => Sys2Proof.Machine.execFmulF16X2 t rm dyn d a b s
  | .ffmaF16X2 t rm d a b c => Sys2Proof.Machine.execFfmaF16X2 t rm d a b c s
  | .fminF16X2 t d a b => Sys2Proof.Machine.execFminF16X2 t d a b s
  | .fmaxF16X2 t d a b => Sys2Proof.Machine.execFmaxF16X2 t d a b s
  | .frcpF16X2 t rm d a => Sys2Proof.Machine.execFrcpF16X2 t rm d a s
  | .frsqF16X2 t rm d a => Sys2Proof.Machine.execFrsqF16X2 t rm d a s
  | .fsqrtF16X2 t rm d a => Sys2Proof.Machine.execFsqrtF16X2 t rm d a s
  | .fexp2F16X2 t rm d a => Sys2Proof.Machine.execFexp2F16X2 t rm d a s
  | .flog2F16X2 t rm d a => Sys2Proof.Machine.execFlog2F16X2 t rm d a s
  | .fsinF16X2 t rm d a => Sys2Proof.Machine.execFsinF16X2 t rm d a s
  | .fcosF16X2 t rm d a => Sys2Proof.Machine.execFcosF16X2 t rm d a s
  | .fclassF16X2 t d a => Sys2Proof.Machine.execFclassF16X2 t d a s
  | .faddBF16X2 t rm dyn d a b => Sys2Proof.Machine.execFaddBF16X2 t rm dyn d a b s
  | .fsubBF16X2 t rm dyn d a b => Sys2Proof.Machine.execFsubBF16X2 t rm dyn d a b s
  | .fmulBF16X2 t rm dyn d a b => Sys2Proof.Machine.execFmulBF16X2 t rm dyn d a b s
  | .ffmaBF16X2 t rm d a b c => Sys2Proof.Machine.execFfmaBF16X2 t rm d a b c s
  | .fminBF16X2 t d a b => Sys2Proof.Machine.execFminBF16X2 t d a b s
  | .fmaxBF16X2 t d a b => Sys2Proof.Machine.execFmaxBF16X2 t d a b s
  | .frcpBF16X2 t rm d a => Sys2Proof.Machine.execFrcpBF16X2 t rm d a s
  | .frsqBF16X2 t rm d a => Sys2Proof.Machine.execFrsqBF16X2 t rm d a s
  | .fsqrtBF16X2 t rm d a => Sys2Proof.Machine.execFsqrtBF16X2 t rm d a s
  | .fexp2BF16X2 t rm d a => Sys2Proof.Machine.execFexp2BF16X2 t rm d a s
  | .flog2BF16X2 t rm d a => Sys2Proof.Machine.execFlog2BF16X2 t rm d a s
  | .fsinBF16X2 t rm d a => Sys2Proof.Machine.execFsinBF16X2 t rm d a s
  | .fcosBF16X2 t rm d a => Sys2Proof.Machine.execFcosBF16X2 t rm d a s
  | .fclassBF16X2 t d a => Sys2Proof.Machine.execFclassBF16X2 t d a s
  | .flagsRd t d => Sys2Proof.Machine.execFlagsRd t d s
  | .flagsClr t mask => Sys2Proof.Machine.execFlagsClr t mask s
  | .dadd t rm dyn d a b => Sys2Proof.Machine.execDadd t rm dyn d a b s
  | .dmul t rm dyn d a b => Sys2Proof.Machine.execDmul t rm dyn d a b s
  | .dfma t rm d a b c => Sys2Proof.Machine.execDfma t rm d a b c s
  | .dmin t d a b => Sys2Proof.Machine.execDmin t d a b s
  | .dmax t d a b => Sys2Proof.Machine.execDmax t d a b s
  | .cvt t rm dst src e d a => Sys2Proof.Machine.execCvt t rm dst src e d a s
  | .pack4N4 t d a b => Sys2Proof.Machine.execPack4N4 t d a b s
  | .pack4B8 t d a b => Sys2Proof.Machine.execPack4B8 t d a b s
  | .pack4H16 t d a b => Sys2Proof.Machine.execPack4H16 t d a b s
  | .unpk4N4 t hi d a => Sys2Proof.Machine.execUnpk4N4 t hi d a s
  | .unpk4B8 t hi d a => Sys2Proof.Machine.execUnpk4B8 t hi d a s
  | .unpk4H16 t hi d a => Sys2Proof.Machine.execUnpk4H16 t hi d a s
  | .rngCb t rounds d a b => Sys2Proof.Machine.execRngCb t rounds d a b s
  | .vtopk t km1 w s32 rank d a => Sys2Proof.Machine.execVtopk t km1 w s32 rank d a s
  | .ldg t md d tr a off => Sys2Proof.Machine.execLdg t md d tr a off s
  | .stg t md tr a b off => Sys2Proof.Machine.execStg t md tr a b off s
  | .ldp t md d a off => Sys2Proof.Machine.execLdp t md d a off s
  | .stp t md a b off => Sys2Proof.Machine.execStp t md a b off s
  | .stN4 t md tr a b off => Sys2Proof.Machine.execStN4 t md tr a b off s
  | .pref t far tr a off => Sys2Proof.Machine.execPref t far tr a off s
  | .tbind t n g => Sys2Proof.Machine.execTbind t n g s
  | .tinv t mask => Sys2Proof.Machine.execTinv t mask s
  | .ptag t d a => Sys2Proof.Machine.execPtag t d a s
  | .ptset t d a => Sys2Proof.Machine.execPtset t d a s
  | .ptinv t d a => Sys2Proof.Machine.execPtinv t d a s
  | .rbind t base len obj => Sys2Proof.Machine.execRbind t base len obj s
  | .atomAdd t md d a b => Sys2Proof.Machine.execAtomAdd t md d a b s
  | .atomMin t md d a b => Sys2Proof.Machine.execAtomMin t md d a b s
  | .atomMax t md d a b => Sys2Proof.Machine.execAtomMax t md d a b s
  | .atomAnd t md d a b => Sys2Proof.Machine.execAtomAnd t md d a b s
  | .atomOr t md d a b => Sys2Proof.Machine.execAtomOr t md d a b s
  | .atomXor t md d a b => Sys2Proof.Machine.execAtomXor t md d a b s
  | .atomXchg t md d a b => Sys2Proof.Machine.execAtomXchg t md d a b s
  | .atomCas t md d a b => Sys2Proof.Machine.execAtomCas t md d a b s
  | .red t md op a b => Sys2Proof.Machine.execRed t md op a b s
  | .fence t scope => Sys2Proof.Machine.execFence t scope s
  | .fenceSc t scope => Sys2Proof.Machine.execFenceSc t scope s
  | .pfenceSp t => Sys2Proof.Machine.execPfenceSp t s
  | .pfenceGl t => Sys2Proof.Machine.execPfenceGl t s
  | .pfenceAll t => Sys2Proof.Machine.execPfenceAll t s
  | .acqE t d a => Sys2Proof.Machine.execAcqE t d a s
  | .relE t a => Sys2Proof.Machine.execRelE t a s
  | .barg t => Sys2Proof.Machine.execBarg t s
  | .abinit t a b c => Sys2Proof.Machine.execAbinit t a b c s
  | .abexp t a b => Sys2Proof.Machine.execAbexp t a b s
  | .abarr t a b => Sys2Proof.Machine.execAbarr t a b s
  | .abwait t a b => Sys2Proof.Machine.execAbwait t a b s
  | .subl t tr a b off => Sys2Proof.Machine.execSubl t tr a b off s
  | .unsub t a => Sys2Proof.Machine.execUnsub t a s
  | .slwait t d a b => Sys2Proof.Machine.execSlwait t d a b s
  | .fset t sp nb a b => Sys2Proof.Machine.execFset t sp nb a b s
  | .fget t sp nb d a => Sys2Proof.Machine.execFget t sp nb d a s
  | .qcfg t n a b => Sys2Proof.Machine.execQcfg t n a b s
  | .xshape t x a => Sys2Proof.Machine.execXshape t x a s
  | .xld t x g => Sys2Proof.Machine.execXld t x g s
  | .xst t x g => Sys2Proof.Machine.execXst t x g s
  | .xzero t x => Sys2Proof.Machine.execXzero t x s
  | .xmov t xd xs tr => Sys2Proof.Machine.execXmov t xd xs tr s
  | .yzero t y => Sys2Proof.Machine.execYzero t y s
  | .yld t y g cf => Sys2Proof.Machine.execYld t y g cf s
  | .yst t y g cf => Sys2Proof.Machine.execYst t y g cf s
  | .mma t pair y xa xb ta tb => Sys2Proof.Machine.execMma t pair y xa xb ta tb s
  | .mloop t e f => Sys2Proof.Machine.execMloop t e f s
  | .ycvt t yd ys x sf => Sys2Proof.Machine.execYcvt t yd ys x sf s
  | .ysca t yd ys x sf => Sys2Proof.Machine.execYsca t yd ys x sf s
  | .yred t yd ys rf => Sys2Proof.Machine.execYred t yd ys rf s
  | .mwait t y => Sys2Proof.Machine.execMwait t y s
  | .yevtRd t d y => Sys2Proof.Machine.execYevtRd t d y s
  | .yevtClr t y mask => Sys2Proof.Machine.execYevtClr t y mask s
  | .leave t a => Sys2Proof.Machine.execLeave t a s
  | .sdef t n a b c => Sys2Proof.Machine.execSdef t n a b c s
  | .sstart t n a => Sys2Proof.Machine.execSstart t n a s
  | .sstop t d n => Sys2Proof.Machine.execSstop t d n s
  | .isect t trap d a b g => Sys2Proof.Machine.execIsect t trap d a b g s
  | .mrgk t e s32 => Sys2Proof.Machine.execMrgk t e s32 s
  | .cpyt t e => Sys2Proof.Machine.execCpyt t e s
  | .shuf t e => Sys2Proof.Machine.execShuf t e s
  | .rtset t k a b => Sys2Proof.Machine.execRtset t k a b s
  | .rtstate t k d => Sys2Proof.Machine.execRtstate t k d s
  | .rtdrop t k => Sys2Proof.Machine.execRtdrop t k s
  | .spawn t d a b c => Sys2Proof.Machine.execSpawn t d a b c s
  | .tdep t a b => Sys2Proof.Machine.execTdep t a b s
  | .tsig t a b => Sys2Proof.Machine.execTsig t a b s
  | .tend t a => Sys2Proof.Machine.execTend t a s
  | .migr t a b c => Sys2Proof.Machine.execMigr t a b c s
  | .iscene t d a => Sys2Proof.Machine.execIscene t d a s
  | .isceneDel t a => Sys2Proof.Machine.execIsceneDel t a s
  | .icon t a b c => Sys2Proof.Machine.execIcon t a b c s
  | .ijnt t a b c => Sys2Proof.Machine.execIjnt t a b c s
  | .ijntDel t a b c => Sys2Proof.Machine.execIjntDel t a b c s
  | .istep t a b => Sys2Proof.Machine.execIstep t a b s
  | .ipoll t d => Sys2Proof.Machine.execIpoll t d s
  | .igrow t d => Sys2Proof.Machine.execIgrow t d s
  | .irest t => Sys2Proof.Machine.execIrest t s
  | .iinfo t sel d a => Sys2Proof.Machine.execIinfo t sel d a s
  | .trap t arg => Sys2Proof.Machine.execTrap t arg s
  | .sret t => Sys2Proof.Machine.execSret t s
  | .sretSkip t => Sys2Proof.Machine.execSretSkip t s
  | .rdsr t d k => Sys2Proof.Machine.execRdsr t d k s
  | .wrsr t k a => Sys2Proof.Machine.execWrsr t k a s
  | .ckpt t d a b c => Sys2Proof.Machine.execCkpt t d a b c s
  | .errinj t a b c => Sys2Proof.Machine.execErrinj t a b c s
  | .swapf t a b => Sys2Proof.Machine.execSwapf t a b s
  | .halt t a => Sys2Proof.Machine.execHalt t a s
  | .issueSelect core oct => Sys2Proof.Machine.execIssueSelect core oct s
  | .resultLand op => Sys2Proof.Machine.execResultLand op s
  | .loadComplete op => Sys2Proof.Machine.execLoadComplete op s
  | .storePerformed op acc => Sys2Proof.Machine.execStorePerformed op acc s
  | .stageComplete op => Sys2Proof.Machine.execStageComplete op s
  | .btLineLand op => Sys2Proof.Machine.execBtLineLand op s
  | .longWaitSatisfied gang tk slot => Sys2Proof.Machine.execLongWaitSatisfied gang tk slot s
  | .placeGang task => Sys2Proof.Machine.execPlaceGang task s
  | .activateTussock gang tk => Sys2Proof.Machine.execActivateTussock gang tk s
  | .stagingDone gang tk => Sys2Proof.Machine.execStagingDone gang tk s
  | .parkTussock gang tk => Sys2Proof.Machine.execParkTussock gang tk s
  | .deadwait gang tk slot => Sys2Proof.Machine.execDeadwait gang tk slot s
  | .orderedUnload gang => Sys2Proof.Machine.execOrderedUnload gang s
  | .windowFillDone op => Sys2Proof.Machine.execWindowFillDone op s
  | .engineStart op => Sys2Proof.Machine.execEngineStart op s
  | .leaveGrant req => Sys2Proof.Machine.execLeaveGrant req s
  | .enginePieceCredit op => Sys2Proof.Machine.execEnginePieceCredit op s
  | .shufComplete op => Sys2Proof.Machine.execShufComplete op s
  | .mrgkComplete op => Sys2Proof.Machine.execMrgkComplete op s
  | .mloopStepEnd op => Sys2Proof.Machine.execMloopStepEnd op s
  | .tileOpComplete op => Sys2Proof.Machine.execTileOpComplete op s
  | .pushLand op => Sys2Proof.Machine.execPushLand op s
  | .streamFetch gang tk n => Sys2Proof.Machine.execStreamFetch gang tk n s
  | .faultRecordEnter part => Sys2Proof.Machine.execFaultRecordEnter part s
  | .migrationCopyDone op => Sys2Proof.Machine.execMigrationCopyDone op s
  | .swapDone op => Sys2Proof.Machine.execSwapDone op s
  | .islandStepBoundary part scene => Sys2Proof.Machine.execIslandStepBoundary part scene s
  | .islandFillDone task => Sys2Proof.Machine.execIslandFillDone task s
  | .igrowProceed gang tk slot => Sys2Proof.Machine.execIgrowProceed gang tk slot s
  | .islandRelaunch part scene island => Sys2Proof.Machine.execIslandRelaunch part scene island s
  | .sliceEnd part => Sys2Proof.Machine.execSliceEnd part s
  | .drainDeadline part => Sys2Proof.Machine.execDrainDeadline part s
  | .tenantRestore part => Sys2Proof.Machine.execTenantRestore part s
  | .intervalStart => Sys2Proof.Machine.execIntervalStart s
  | .bucketSweep => Sys2Proof.Machine.execBucketSweep s
  | .thermalStepDown die => Sys2Proof.Machine.execThermalStepDown die s
  | .thermalStepUp die => Sys2Proof.Machine.execThermalStepUp die s
  | .arbiterServe channel => Sys2Proof.Machine.execArbiterServe channel s
  | .patrolScrub word => Sys2Proof.Machine.execPatrolScrub word s
  | .portLinkDown port => Sys2Proof.Machine.execPortLinkDown port s
  | .peerUnreachable part rank => Sys2Proof.Machine.execPeerUnreachable part rank s
  | .remoteSpawnReceive m => Sys2Proof.Machine.execRemoteSpawnReceive m s
  | .remoteTsigReceive m => Sys2Proof.Machine.execRemoteTsigReceive m s
  | .remoteAckReceive m => Sys2Proof.Machine.execRemoteAckReceive m s
  | .remoteCompletion m => Sys2Proof.Machine.execRemoteCompletion m s
  | .partCreate m => Sys2Proof.Machine.execPartCreate m s
  | .partDestroy m => Sys2Proof.Machine.execPartDestroy m s
  | .memWrite m => Sys2Proof.Machine.execMemWrite m s
  | .memRead m => Sys2Proof.Machine.execMemRead m s
  | .launch m => Sys2Proof.Machine.execLaunch m s
  | .preempt m => Sys2Proof.Machine.execPreempt m s
  | .resume m => Sys2Proof.Machine.execResume m s
  | .faultFetch m => Sys2Proof.Machine.execFaultFetch m s
  | .replay m => Sys2Proof.Machine.execReplay m s
  | .migrate m => Sys2Proof.Machine.execMigrate m s
  | .ckptCommand m => Sys2Proof.Machine.execCkptCommand m s
  | .restore m => Sys2Proof.Machine.execRestore m s
  | .attest m => Sys2Proof.Machine.execAttest m s
  | .peerNonce m => Sys2Proof.Machine.execPeerNonce m s
  | .peerAdd m => Sys2Proof.Machine.execPeerAdd m s
  | .fwLoad m => Sys2Proof.Machine.execFwLoad m s
  | .telemCoreMask m => Sys2Proof.Machine.execTelemCoreMask m s
  | .telemJobRecords m => Sys2Proof.Machine.execTelemJobRecords m s
  | .telemServiceUnits m => Sys2Proof.Machine.execTelemServiceUnits m s
  | .telemErrorLog m => Sys2Proof.Machine.execTelemErrorLog m s
  | .resetPartition m => Sys2Proof.Machine.execResetPartition m s
  | .resetDevice m => Sys2Proof.Machine.execResetDevice m s
  | .powerOnReset => Sys2Proof.Machine.execPowerOnReset s
  | .bootRomLoad image => Sys2Proof.Machine.execBootRomLoad image s
  | .mctpAddressList list => Sys2Proof.Machine.execMctpAddressList list s
  | .taskUnitRequestDone op => Sys2Proof.Machine.execTaskUnitRequestDone op s
  | .longLatencyCompletion op => Sys2Proof.Machine.execLongLatencyCompletion op s
  | .jtagInjCtlWrite w => Sys2Proof.Machine.execJtagInjCtlWrite w s

end Sys2Proof.Machine
end

