-- ==== Sys2Proof/Machine/Due.lean ====
section
/-! DEFINITION. Which step comes next: the events that are due, and what an input from outside means (log 6). -/

namespace Sys2Proof.Machine

open Sys2Proof

/-! ### Events -/

/-- A step that no instruction word makes, with what it names (R47, log 6). Each is an `Instr` of the same name. -/
inductive Event where
  | issueSelect (core oct : Nat)
  | resultLand (op : Nat)
  | loadComplete (op : Nat)
  | storePerformed (op acc : Nat)
  | stageComplete (op : Nat)
  | btLineLand (op : Nat)
  | longWaitSatisfied (gang tk slot : Nat)
  | placeGang (task : Nat)
  | activateTussock (gang tk : Nat)
  | stagingDone (gang tk : Nat)
  | parkTussock (gang tk : Nat)
  | deadwait (gang tk slot : Nat)
  | orderedUnload (gang : Nat)
  | windowFillDone (op : Nat)
  | engineStart (op : Nat)
  | leaveGrant (req : Nat)
  | enginePieceCredit (op : Nat)
  | shufComplete (op : Nat)
  | mrgkComplete (op : Nat)
  | mloopStepEnd (op : Nat)
  | tileOpComplete (op : Nat)
  | pushLand (op : Nat)
  | streamFetch (gang tk n : Nat)
  | faultRecordEnter (part : Nat)
  | migrationCopyDone (op : Nat)
  | swapDone (op : Nat)
  | islandStepBoundary (part scene : Nat)
  | islandFillDone (task : Nat)
  | igrowProceed (gang tk slot : Nat)
  | islandRelaunch (part scene island : Nat)
  | sliceEnd (part : Nat)
  | drainDeadline (part : Nat)
  | tenantRestore (part : Nat)
  | intervalStart
  | bucketSweep
  | thermalStepDown (die : Nat)
  | thermalStepUp (die : Nat)
  | arbiterServe (channel : Nat)
  | patrolScrub (word : Nat)
  | portLinkDown (port : Nat)
  | peerUnreachable (part rank : Nat)
  | remoteSpawnReceive (m : JcpMsg)
  | remoteTsigReceive (m : JcpMsg)
  | remoteAckReceive (m : JcpMsg)
  | remoteCompletion (m : JcpMsg)
  | partCreate (m : JcpMsg)
  | partDestroy (m : JcpMsg)
  | memWrite (m : JcpMsg)
  | memRead (m : JcpMsg)
  | launch (m : JcpMsg)
  | preempt (m : JcpMsg)
  | resume (m : JcpMsg)
  | faultFetch (m : JcpMsg)
  | replay (m : JcpMsg)
  | migrate (m : JcpMsg)
  | ckptCommand (m : JcpMsg)
  | restore (m : JcpMsg)
  | attest (m : JcpMsg)
  | peerNonce (m : JcpMsg)
  | peerAdd (m : JcpMsg)
  | fwLoad (m : JcpMsg)
  | telemCoreMask (m : JcpMsg)
  | telemJobRecords (m : JcpMsg)
  | telemServiceUnits (m : JcpMsg)
  | telemErrorLog (m : JcpMsg)
  | resetPartition (m : JcpMsg)
  | resetDevice (m : Option JcpMsg)
  | powerOnReset
  | bootRomLoad (image : List Byte)
  | mctpAddressList (list : List (BitVec 64))
  | taskUnitRequestDone (op : Nat)
  | longLatencyCompletion (op : Nat)
  | jtagInjCtlWrite (w : InjWrite)
  deriving DecidableEq, Repr, Inhabited

/-- Runs an event. -/
def Event.run (e : Event) (s : State) : Out :=
  match e with
  | .issueSelect core oct => execIssueSelect core oct s
  | .resultLand op => execResultLand op s
  | .loadComplete op => execLoadComplete op s
  | .storePerformed op acc => execStorePerformed op acc s
  | .stageComplete op => execStageComplete op s
  | .btLineLand op => execBtLineLand op s
  | .longWaitSatisfied gang tk slot => execLongWaitSatisfied gang tk slot s
  | .placeGang task => execPlaceGang task s
  | .activateTussock gang tk => execActivateTussock gang tk s
  | .stagingDone gang tk => execStagingDone gang tk s
  | .parkTussock gang tk => execParkTussock gang tk s
  | .deadwait gang tk slot => execDeadwait gang tk slot s
  | .orderedUnload gang => execOrderedUnload gang s
  | .windowFillDone op => execWindowFillDone op s
  | .engineStart op => execEngineStart op s
  | .leaveGrant req => execLeaveGrant req s
  | .enginePieceCredit op => execEnginePieceCredit op s
  | .shufComplete op => execShufComplete op s
  | .mrgkComplete op => execMrgkComplete op s
  | .mloopStepEnd op => execMloopStepEnd op s
  | .tileOpComplete op => execTileOpComplete op s
  | .pushLand op => execPushLand op s
  | .streamFetch gang tk n => execStreamFetch gang tk n s
  | .faultRecordEnter part => execFaultRecordEnter part s
  | .migrationCopyDone op => execMigrationCopyDone op s
  | .swapDone op => execSwapDone op s
  | .islandStepBoundary part scene => execIslandStepBoundary part scene s
  | .islandFillDone task => execIslandFillDone task s
  | .igrowProceed gang tk slot => execIgrowProceed gang tk slot s
  | .islandRelaunch part scene island => execIslandRelaunch part scene island s
  | .sliceEnd part => execSliceEnd part s
  | .drainDeadline part => execDrainDeadline part s
  | .tenantRestore part => execTenantRestore part s
  | .intervalStart => execIntervalStart s
  | .bucketSweep => execBucketSweep s
  | .thermalStepDown die => execThermalStepDown die s
  | .thermalStepUp die => execThermalStepUp die s
  | .arbiterServe channel => execArbiterServe channel s
  | .patrolScrub word => execPatrolScrub word s
  | .portLinkDown port => execPortLinkDown port s
  | .peerUnreachable part rank => execPeerUnreachable part rank s
  | .remoteSpawnReceive m => execRemoteSpawnReceive m s
  | .remoteTsigReceive m => execRemoteTsigReceive m s
  | .remoteAckReceive m => execRemoteAckReceive m s
  | .remoteCompletion m => execRemoteCompletion m s
  | .partCreate m => execPartCreate m s
  | .partDestroy m => execPartDestroy m s
  | .memWrite m => execMemWrite m s
  | .memRead m => execMemRead m s
  | .launch m => execLaunch m s
  | .preempt m => execPreempt m s
  | .resume m => execResume m s
  | .faultFetch m => execFaultFetch m s
  | .replay m => execReplay m s
  | .migrate m => execMigrate m s
  | .ckptCommand m => execCkptCommand m s
  | .restore m => execRestore m s
  | .attest m => execAttest m s
  | .peerNonce m => execPeerNonce m s
  | .peerAdd m => execPeerAdd m s
  | .fwLoad m => execFwLoad m s
  | .telemCoreMask m => execTelemCoreMask m s
  | .telemJobRecords m => execTelemJobRecords m s
  | .telemServiceUnits m => execTelemServiceUnits m s
  | .telemErrorLog m => execTelemErrorLog m s
  | .resetPartition m => execResetPartition m s
  | .resetDevice m => execResetDevice m s
  | .powerOnReset => execPowerOnReset s
  | .bootRomLoad image => execBootRomLoad image s
  | .mctpAddressList list => execMctpAddressList list s
  | .taskUnitRequestDone op => execTaskUnitRequestDone op s
  | .longLatencyCompletion op => execLongLatencyCompletion op s
  | .jtagInjCtlWrite w => execJtagInjCtlWrite w s

/-! ### Commands and messages as steps -/

/-- The step of a command by its OP; none for an unknown one. -/
def commandStep (m : JcpMsg) : Option Event :=
  match hdrOp m.hdr with
  | 0x01 => some (.partCreate m)
  | 0x02 => some (.partDestroy m)
  | 0x03 => some (.memWrite m)
  | 0x04 => some (.memRead m)
  | 0x05 => some (.launch m)
  | 0x06 => some (.preempt m)
  | 0x07 => some (.resume m)
  | 0x08 => some (.faultFetch m)
  | 0x09 => some (.replay m)
  | 0x0A => some (.migrate m)
  | 0x0B => some (.ckptCommand m)
  | 0x0C => some (.restore m)
  | 0x0D => match Config.vendorRequest m.payload with
    | 1 => some (.peerNonce m)
    | 2 => some (.peerAdd m)
    | _ => some (.attest m)
  | 0x0E => some (.fwLoad m)
  | 0x0F => match argOf m 0 with
    | 0 => some (.telemCoreMask m)
    | 1 => some (.telemJobRecords m)
    | 2 => some (.telemServiceUnits m)
    | 3 => some (.telemErrorLog m)
    | _ => none
  | 0x10 => if (hdrArg m.hdr 0).getLsbD 0 then some (.resetDevice (some m)) else some (.resetPartition m)
  | _ => none

/-- The step of a data message by its OP (log 13). -/
def dataStep (m : JcpMsg) : Option Event :=
  match hdrOp m.hdr with
  | 0x40 => some (.remoteSpawnReceive m)
  | 0x41 => some (.remoteTsigReceive m)
  | 0x42 => some (.remoteAckReceive m)
  | 0x43 => some (.remoteCompletion m)
  | _ => none

/-- What an input means: a step of its own, or a change of state. -/
inductive Taken where
  | run (i : Event) (s : State)
  | done (s : State)
  deriving Repr, Inhabited

/-- Whether a message is a copy of the command that its endpoint runs: it waits for the response (R379). -/
def State.runs (s : State) (m : JcpMsg) : Bool := ((s.endpoint? (hdrPart m.hdr) (endpointOf m)).bind (·.busy)) == some m

/-- Takes an input. A message with an unknown code gets its refusal from the endpoint (R380). -/
def State.input (s : State) : Input → Taken
  | .jcp m =>
    if hdrType m.hdr == 3 then (match dataStep m with
      | some i => .run i s
      | none => .done s)
    else if s.runs m then .done (s.modEndpoint (hdrPart m.hdr) (endpointOf m) (fun e => { e with queue := e.queue ++ [m] }))
    else (match commandStep m with
      | some i => .run i s
      | none => .done (match s.accept m with
        | .over s => s
        | .start s => s.respond m 2 0 []
        | .again => s))
  | .peerLost part rank => .run (.peerUnreachable part rank) s
  | .portLink port up => .done (s.portLink port up)
  | .dieHot die hot => .done (s.dieHot die hot)
  | .jtagReset => .run (.resetDevice none) s
  | .jtagInj w => .run (.jtagInjCtlWrite w) s
  | .mctpList l => .run (.mctpAddressList l) s
  | .firstStage image => .run (.bootRomLoad image) s
  | .powerOn => .run .powerOnReset s
  | .upset i => .done (s.upset i)

/-! ### Operations -/

/-- Whether every operation that another waits for is performed or gone. -/
def State.clear (s : State) (o : Op) : Bool := o.waits.all s.settled

/-- The first access of an operation that can be performed now. -/
def State.readyAcc (s : State) (o : Op) (accs : List Acc) : Option Nat :=
  (List.range accs.length).find? (fun k => ((accs[k]?).map (fun a => accReady (s.accClk o a) accs k)).getD false)

/-- Whether a request of the task unit or an island unit is done now. -/
def State.requestDue (s : State) (o : Op) (r : TaskReq) : Bool :=
  decide (o.at_ ≤ s.now) && s.atFront o && (match r with
    | .istep .. | .remote .. => false
    | .isceneDel n => (((s.partOf o).bind s.part?).bind (fun x => x.scenes.find? (fun sc => sc.num == n))).all Scene.stepOver
    | _ => true)

/-- The step of an ISTEP at the front of its unit whose scene's gangs have ended. -/
def State.boundaryDue (s : State) (o : Op) (n : Nat) : Option Event :=
  match s.partOf o with
  | none => none
  | some p =>
    let sc := (s.part? p).bind (fun x => x.scenes.find? (fun sc => sc.num == n))
    if o.at_ ≤ s.now && s.atFront o && sc.all Scene.stepOver then some (.islandStepBoundary p n) else none

/-- Whether a merge advances or ends now. -/
def State.mergeDue (s : State) (o : Op) (m : Merge) : Bool :=
  m.started && m.paused.isNone && decide (o.at_ ≤ s.opClk o) && (if m.ended then s.clear o else !s.opAsks o.id)

/-- Whether a tensor copy performs or credits a piece now. -/
def State.pieceDueNow (s : State) (o : Op) (c : Copy) : Bool :=
  c.started && c.paused.isNone && s.clear o && (c.owed != 0 || (decide (c.done < copyPieces c.desc) && decide (o.at_ ≤ s.opClk o)))

/-- Whether a page move, or a portion that waits for one, is dealt with now. -/
def State.moveDue (s : State) (o : Op) : Bool :=
  decide (o.at_ ≤ s.now) && s.clear o && (match o.kind with
    | .moveReq m => (match s.part? m.part with
      | none => true
      | some p => (match walk s.mem p m.tenant m.va .host true with
        | .moving _ => false
        | _ => true))
    | _ => true)

/-- The step that an operation in flight is due for. -/
def State.opEvent (s : State) (o : Op) : Option Event :=
  let when_ := fun (b : Bool) (i : Event) => if b then some i else none
  let due := s.opDue o
  match o.kind with
  | .result _ => when_ due (.resultLand o.id)
  | .tagOnly | .tbind .. | .subl _ | .rbind .. | .migrQueued .. => when_ due (.loadComplete o.id)
  | .load _ _ accs _ => when_ (due && allDone accs) (.loadComplete o.id)
  | .store accs =>
    (match s.readyAcc o accs with
    | some k => some (.storePerformed o.id k)
    | none => when_ (allDone accs && s.clear o) (.storePerformed o.id 0))
  | .atom _ accs _ =>
    (match s.readyAcc o accs with
    | some k => some (.storePerformed o.id k)
    | none => when_ (due && allDone accs) (.loadComplete o.id))
  | .stage _ | .spill _ => when_ due (.stageComplete o.id)
  | .btLine .. => when_ due (.btLineLand o.id)
  | .unsub slots => when_ (due && !s.pushComing o.gang slots) (.loadComplete o.id)
  | .acqE _ a => when_ (due && a.done && decide (a.at_ ≤ s.now)) (.loadComplete o.id)
  | .relE a _ => when_ (if a.done then s.clear o else decide (a.at_ ≤ s.now)) (.storePerformed o.id 0)
  | .barrier .. => when_ due (.storePerformed o.id 0)
  | .desc accs => when_ (due && allDone accs) (.longLatencyCompletion o.id)
  | .values .. | .rtstate .. | .rdsr .. | .inject .. | .ckpt .. => when_ due (.longLatencyCompletion o.id)
  | .tile .. => when_ (decide (o.at_ ≤ s.opClk o)) (.tileOpComplete o.id)
  | .loop l =>
    if l.started && l.stepEnd != 0 && l.stepEnd ≤ s.opClk o then some (.mloopStepEnd o.id)
    else when_ (s.engineCanStart o) (.engineStart o.id)
  | .copy c =>
    if s.engineCanStart o then some (.engineStart o.id)
    else if s.pieceDueNow o c then some (.enginePieceCredit o.id)
    else when_ (c.window.isSome && c.started && c.owed == 0 && decide (copyPieces c.desc ≤ c.done)) (.windowFillDone o.id)
  | .shuf f =>
    if s.engineCanStart o then some (.engineStart o.id)
    else when_ (f.started && decide (o.at_ ≤ s.opClk o)) (.shufComplete o.id)
  | .merge m => if s.engineCanStart o then some (.engineStart o.id) else when_ (s.mergeDue o m) (.mrgkComplete o.id)
  | .push slot _ _ _ => when_ (due && !s.pushBehind o slot) (.pushLand o.id)
  | .move _ | .moveReq _ => when_ (s.moveDue o) (.migrationCopyDone o.id)
  | .swap .. => when_ (decide (o.at_ ≤ s.now)) (.swapDone o.id)
  | .task (.istep n _) _ => s.boundaryDue o n
  | .task r _ => when_ (s.requestDue o r) (.taskUnitRequestDone o.id)
  | .fill q => when_ (q.isNone && decide (o.at_ ≤ s.now)) (.islandFillDone o.gang)

/-- Whether a result clears flags: such a one lands before others of its clock (R225). -/
def Op.clears (o : Op) : Bool :=
  match o.kind with
  | .result r => r.clear != 0
  | _ => false

/-- The step of the first operation that is due, in the order of issue. -/
def State.opsEvent (s : State) : Option Event :=
  ((s.ops.filter Op.clears).findSome? s.opEvent).orElse (fun _ => s.ops.findSome? s.opEvent)

/-! ### Slots and tussocks -/

/-- Puts a gang into a list that rises by core position, behind those of its core. -/
def coreOrder (x : Gang) : List Gang → List Gang
  | [] => [x]
  | y :: rest => if x.core.getD 0 < y.core.getD 0 then x :: y :: rest else y :: coreOrder x rest

/-- The tussocks that are on cores, by core position (R413): gang, index, tussock. -/
def State.onCores (s : State) : List (Gang × Nat × Tussock) :=
  ((s.gangs.filter (fun x => x.core.isSome)).foldl (fun l x => coreOrder x l) []).flatMap (fun x => x.tks.zipIdx.map (fun e => (x, e.2, e.1)))

/-- A step for one slot of one tussock where a test holds. -/
def slotEvent (test : Gang → Tussock → Nat → Nat → Bool) (mk : Nat → Nat → Nat → Event) (r : Gang × Nat × Tussock) : Option Event :=
  ((List.range 2).find? (fun k => test r.1 r.2.2 r.2.1 k)).map (fun k => mk r.1.id r.2.1 k)

/-- A step for one tussock where a test holds. -/
def tkEvent (test : Gang → Tussock → Nat → Bool) (mk : Nat → Nat → Event) (r : Gang × Nat × Tussock) : Option Event :=
  if test r.1 r.2.2 r.2.1 then some (mk r.1.id r.2.1) else none

/-- Whether the staging of an activation is done (R42). -/
def State.stagedNow (s : State) (x : Gang) (y : Tussock) : Bool :=
  match x.core, y.staging with
  | some core, some c => decide (c ≤ s.clk core)
  | _, _ => false

/-- The stream register of a tussock that fetches an entry now (R281). -/
def State.fetching (s : State) (y : Tussock) : Option Nat :=
  (List.range 4).find? (fun n => match y.s[n]? with
    | some st => st.started && !st.faulted && decide (st.fifo.length < 16) && decide (st.next < st.count) && decide (st.due ≤ s.now)
    | none => false)

/-- Whether a slot stalled in IGROW goes on (R308). -/
def State.growNow (s : State) (x : Gang) (y : Tussock) (k : Nat) : Bool :=
  (y.slots.getD k {}).stall == some .absorbed && s.growFree x

/-- The step of a slot or tussock that is due: parks of YIELD before the ends of waits, and those before the watchdog. -/
def State.slotsEvent (s : State) : Option Event :=
  let rs := s.onCores
  let try_ := fun (f : Gang × Nat × Tussock → Option Event) (more : Unit → Option Event) => (rs.findSome? f).orElse more
  try_ (tkEvent (fun x y t => y.slots.any s.justYielded && s.parkNow x t y) .parkTussock) fun _ =>
  try_ (slotEvent (fun x y t k => s.waitOver x y t k) .longWaitSatisfied) fun _ =>
  try_ (slotEvent (fun x y _ k => s.growNow x y k) .igrowProceed) fun _ =>
  try_ (slotEvent (fun x y _ k => s.deadDue x y k) .deadwait) fun _ =>
  try_ (tkEvent (fun x y t => s.parkNow x t y) .parkTussock) fun _ =>
  try_ (tkEvent (fun x y _ => s.stagedNow x y) .stagingDone) fun _ =>
  try_ (tkEvent (fun x y t => (s.activateAt x t y).isSome) .activateTussock) fun _ =>
  rs.findSome? (fun r => (s.fetching r.2.2).map (fun n => .streamFetch r.1.id r.2.1 n))

/-! ### Partitions and the device -/

/-- The survivor of a scene that is launched again (R306). -/
def Scene.relaunchDue (sc : Scene) : Option Nat :=
  (sc.islands.find? (fun i => i.state == .growfail && i.tasks.isEmpty && (sc.pending i.num).all (fun k => k.state != .absorbed))).map (·.num)

/-- The step of a partition that is due. -/
def State.partEvent (s : State) (p : Partition) : Option Event :=
  if !p.waitRecs.isEmpty && decide (p.records.length < 4096) then some (.faultRecordEnter p.num)
  else if s.deadlineDue p then some (.drainDeadline p.num)
  else if s.sliceOver p then some (.sliceEnd p.num)
  else if (s.turnDue p).isSome then some (.tenantRestore p.num)
  else match p.scenes.findSome? (fun sc => (Scene.relaunchDue sc).map (fun i => Event.islandRelaunch p.num sc.num i)) with
  | some i => some i
  | none => match (s.gangs.filter (fun x => x.part == p.num)).find? s.unloadDue with
    | some x => some (.orderedUnload x.id)
    | none => (s.nextPlaced p).map (fun w => .placeGang w.task.id)

/-- The request that the pool serves now (R428). -/
def State.leaveDue (s : State) : Option Event :=
  match s.poolHead with
  | some r => if !s.asks r || r.tokens ≤ s.dev.pool then some (.leaveGrant r.id) else none
  | none => none

/-- A step of the device's own clockwork that is due. -/
def State.clockEvent (s : State) : Option Event :=
  if s.intervalDue then some .intervalStart
  else if s.sweepDue then some .bucketSweep
  else match (List.range 8).find? s.downDue with
  | some d => some (.thermalStepDown d)
  | none => match (List.range 8).find? s.upDue with
    | some d => some (.thermalStepUp d)
    | none => match (List.range 32).find? s.portLost with
      | some k => some (.portLinkDown k)
      | none =>
        let w := s.dev.scrub % nearWords
        if s.scrubDue w then some (.patrolScrub w) else none

/-! ### Commands that can go on -/

/-- Whether a host's range is not waiting for a page that moves. -/
def HostMap.known : HostMap → Bool
  | .wait => false
  | _ => true

/-- Whether the command that an endpoint of a partition runs can go on now. -/
def State.canGo (s : State) (p : Partition) (e : Endpoint) (m : JcpMsg) : Bool :=
  let gone := fun (l : List Nat) => l.all (fun w => (s.op? w).isNone)
  let ts := namedTenants m
  match hdrOp m.hdr with
  | 0x02 | 0x10 => !s.draining p.num
  | 0x03 => (match e.waits with
    | some l => gone l
    | none => (s.memRange m p m.payload.length).known)
  | 0x04 => (s.memRange m p (argOf m 2)).known
  | 0x06 => p.ckpts.all (fun x => !ts.contains x.1) && (ts.any (fun t => !p.held.contains t) ||
      !(p.running.any (fun t => ts.contains t) || s.unacked p.num ts))
  | 0x07 => if e.waits.isSome then s.reinstated p ts else p.halting.isNone
  | 0x0B => s.quiet p (hdrTenant m.hdr) &&
      (s.hostMap p (hdrTenant m.hdr) (argOf m 0) (imageSize (s.sections p (hdrTenant m.hdr)))).known
  | 0x0C => (s.hostMap p (hdrTenant m.hdr) (argOf m 0) (argOf m 1)).known
  | _ => false

/-- The step of a command that can go on. -/
def State.commandEvent (s : State) : Option Event :=
  s.parts.findSome? (fun p => p.eps.findSome? (fun e => match e.busy with
    | some m => if s.canGo p e m then commandStep m else none
    | none => none))

/-! ### All of them -/

/-- The event that comes next, if any is due. -/
def State.due (s : State) : Option Event :=
  s.clockEvent.orElse fun _ => s.opsEvent.orElse fun _ => s.slotsEvent.orElse fun _ => s.leaveDue.orElse fun _ =>
  (s.parts.findSome? s.partEvent).orElse fun _ => s.commandEvent.orElse fun _ =>
  (s.dev.demand.find? (fun e => (s.serveNext e.ch).isSome)).map (fun e => .arbiterServe e.ch)

end Sys2Proof.Machine
end

