-- ==== Sys2Proof/Machine/Loader.lean ====
section
/-! DEFINITION. A program of one word where the next step fetches: a loaded partition with one task on a core (log 6). -/

namespace Sys2Proof.Machine

open Sys2Proof

/-- The page tables of tenant 0 of partition 0 that map virtual 0x1_0000 to the frame at 0x20_0000, readable, writable and
executable (R392 to R394). -/
def loadTables (m : Memory) : Memory :=
  (((m.write 0 8 0x140001).write 0x140000 8 0x141001).write 0x141000 8 0x142001).write 0x142008 8 0x20000F

/-- Partition 0 on granule 0 with one job. -/
def loadPart : Partition :=
  { num := 0, granules := 1, cxl := 1, eth := 1, sys := false, root := 0, weights := [], fabric := [], powerMin := 0
    floors := List.replicate 32 0, eps := List.replicate 4 {}, running := some 0, last := 0, sliceEnd := 27000000
    jobs := [{ part := 0, tenant := 0, rcb := 0, out := 1 }] }

/-- The task of the loaded program. -/
def loadTask : Task :=
  { id := 1, part := 0, tenant := 0, job := 0, launch := 0, group := 0, ready := true, placed := true
    foot := { entry := 0x10000, regs := 4, sp := 256 } }

/-- The gang of the loaded program: one active tussock on core 0, as placement and activation leave it. -/
def State.loadGang (s : State) : Gang :=
  { id := 1, part := 0, tenant := 0, core := some 0, foot := loadTask.foot, windows := List.replicate 16 none
    wqs := List.replicate 4 none
    tks := [{ s.entryTussock loadPart loadTask 0 0 0 0 0 with active := some 0 }] }

/-- The machine with a partition, a task and its gang loaded, whose slot 0 issues next. -/
def State.loaded (s : State) : State :=
  { s with
    mem := loadTables s.mem
    dev := { s.dev with boot := .ready, points := s.dev.points.set 0 .p0 }
    parts := [loadPart]
    tasks := [loadTask]
    gangs := [s.loadGang]
    nextTask := 2
    cur := some { gang := 1, tk := 0, slot := 0 } }

/-- The physical address of the word that the selected slot fetches; none where no slot is selected or its fetch would
fault. -/
def State.fetchAddr (s : State) : Option Nat :=
  match s.cur with
  | none => none
  | some q =>
    match s.gang? q.gang, s.slot? q.gang q.tk q.slot with
    | some x, some sl =>
      (match s.part? x.part with
      | none => none
      | some p =>
        match walk s.mem p x.tenant sl.pc.toNat .fetch (((s.tk? q.gang q.tk).map (·.sup)).getD false) with
        | .pa a .. => some a
        | _ => none)
    | _, _ => none

/-- The selected slot keeps no line of code that it fetched before. -/
def State.refetch (s : State) : State :=
  match s.cur with
  | none => s
  | some q => s.modSlot q.gang q.tk q.slot (fun z => { z with fline := none, bregs := z.bregs.map (fun b => { b with lines := [] }) })

/-- The machine with a word where the next step fetches: at the selected slot's PC, or in a program that is loaded now. -/
def State.putWord (s : State) (w : Nat) : State :=
  match s.fetchAddr with
  | some a => ({ s with mem := s.mem.write a 8 w } : State).refetch
  | none => { s.loaded with mem := s.loaded.mem.write 0x200000 8 w }

end Sys2Proof.Machine
end

