-- ==== Sys2Proof/Machine/Step.lean ====
section
/-! DEFINITION. One step of the machine (log 6). -/

namespace Sys2Proof.Machine

open Sys2Proof

/-- One step: the selected slot's instruction; else the oldest input from outside; else the event that is due; else the
next octant's selection; else one reference clock passes. -/
def step (s : State) : Host.Outcome State Fault Refusal :=
  match s.cur with
  | some q =>
    match s.nextInstr q with
    | .run s' i => exec i s'
    | .stop o => o
  | none =>
    match s.inbox with
    | i :: rest =>
      match ({ s with inbox := rest } : State).input i with
      | .run e s' => e.run s'
      | .done s' => .next s'
    | [] =>
      match s.due with
      | some e => e.run s
      | none =>
        match s.sweep with
        | (core, oct) :: _ => execIssueSelect core oct s
        | [] => .next s.tick

/-- The machine with an instruction where the next step fetches; bits above nbits are 0. -/
def State.withFetchWord (s : State) (nbits w : Nat) : State := s.putWord (w % 2 ^ min nbits 64)

end Sys2Proof.Machine
end

