-- ==== Sys2Proof/Certificates/Slice0/Says.lean ====
section
/-! DEFINITION. The words in which the obligations speak: a slot that issues, what a result leaves behind, the values of
the instructions as numbers, and what a statement calls unchanged. -/

namespace Sys2Proof.Says

open Sys2Proof Sys2Proof.Machine

/-! ### Issue -/

/-- The state once the selected slot's instruction has been taken up. -/
def spent (s : State) : State := { s with cur := none }

/-- A slot is selected and its word with tail `t` issues (R47, R64): `c` is the slot's context, every tag of the word's SBW
mask counts 0, and the tag that it allocates counts less than 15. -/
structure Issues (s : State) (t : Tail) (c : Ctx) : Prop where
  ctx  : s.ctx? t = some c
  met  : ∀ i, i < 7 → t.sbw.getLsbD i = true → c.sl.tags.getD i 0 = 0
  room : t.sba ≠ 0 → c.sl.tags.getD (t.sba.toNat - 1) 0 < 15

/-- A word of the class of R230 issues: no acquire of its slot is still on its way. -/
structure Passes (s : State) (t : Tail) (c : Ctx) : Prop extends Issues s t c where
  free : ∀ o ∈ c.sl.hold, s.op? o = none

/-- The slot's instruction retires in state `s'` and the slot goes to the next word (R47, R64, R163). -/
def retired (t : Tail) (c : Ctx) (s' : State) (held : Bool) : Out := .next (c.retire t s' held (c.sl.pc + 8))

/-- The instruction traps: nothing of it has happened but the trap (R181, R227, R409). -/
def trapped (c : Ctx) (s : State) (code : TrapCode) (lanes : Mask) (addr : Nat) (arg : BitVec 16) : Out :=
  .next ((spent s).takeTrap c.g c.t c.k { code := code, lanes := lanes, addr := addr, arg := arg })

/-- The word issues at a slot of which at least one lane is active (R163). -/
structure Acts (s : State) (t : Tail) (c : Ctx) : Prop extends Passes s t c where
  act : c.act ≠ 0

/-- The common tail of a word; format L holds it elsewhere (R162, R166). -/
def wordTail (w : Word) : Tail := if opF w = 0x0C then tailLF w else tailF w

/-! ### Results of fixed latency (R53, R60, R61, R125) -/

/-- A result on its way from the issuing slot that lands `lat` clocks after issue. -/
def onItsWay (c : Ctx) (s : State) (lat : Nat) (r : Result) : State :=
  { s with
    ops := s.ops ++ [{ id := s.nextOp, gang := c.g, tk := c.t, slot := c.k, core := some c.core, at_ := c.clk + lat,
                       tag := c.tag, tagSlots := [c.k], mask := c.act, kind := .result r }]
    nextOp := s.nextOp + 1 }

/-- An operation of the issuing slot, for its active lanes, that ends or comes due `lat` clocks after issue (R49). -/
def inFlight (c : Ctx) (s : State) (lat : Nat) (k : OpKind) : State :=
  { s with
    ops := s.ops ++ [{ id := s.nextOp, gang := c.g, tk := c.t, slot := c.k, core := some c.core, at_ := c.clk + lat,
                       tag := c.tag, tagSlots := [c.k], mask := c.act, kind := k }]
    nextOp := s.nextOp + 1 }

/-- The slot has made one more push (R53). -/
def pushed (c : Ctx) (s : State) : State := s.modSlot c.g c.t c.k (fun x => { x with pushes := x.pushes + 1 })

/-- The gang queue that a w destination names, if it is configured. -/
def wqueue (c : Ctx) (s : State) (k : BitVec 2) : Option WQueue := ((s.gang? c.g).bind (fun x => x.wqs[k.toNat]?)).join

/-- The destination takes a result now: a w queue is configured, and has room unless the push is non-blocking (R125). -/
def Room (c : Ctx) (s : State) : Dst → Prop
  | .wq k nb => c.act = 0 ∨ ∃ q, wqueue c s k = some q ∧ (nb = true ∨ q.tail - q.head < q.entries)
  | _ => True

/-- The write of p6 by a status (R61). -/
def status (c : Ctx) : Option Bool → List (Nat × Mask)
  | some ok => [(6, if ok then c.act else 0)]
  | none => []

/-- What a lane result leaves at issue, by its destination (R53, R60, R61, R125, R163): the state, and whether the result
is on its way. With no active lane a pushing word still claims its push, and nothing is on its way. -/
def sent (c : Ctx) (s : State) (lat : Nat) (d : Dst) (words : Nat) (vals : Lanes 64) (flags : Lanes 5) (p6 : Option Bool) :
    State × Bool :=
  let r : Result := { mask := c.act, vals := vals, flags := flags, preds := status c p6, inHandler := c.tk.sup }
  let entry := c.sl.pushes % 16
  match d with
  | .push => if c.act = 0 then (pushed c s, false)
      else (onItsWay c (pushed c s) lat { r with entry := some entry, qslots := [c.k] }, true)
  | .n x => if c.act = 0 then (pushed c s, false)
      else (onItsWay c (pushed c s) lat { r with entry := some entry, qslots := [c.k], nreg := some (x.toNat, words) }, true)
  | .discard => if c.act = 0 then (s, false) else (onItsWay c s lat r, true)
  | .g x hi => if c.act = 0 then (s, false) else (onItsWay c s lat { r with greg := some (x.toNat, hi) }, true)
  | .p x => if c.act = 0 then (s, false)
      else (onItsWay c s lat { r with preds := (if x = 6 then [] else status c p6) ++
        [(x.toNat, maskOf (fun l => (vals.at_ l).getLsbD 0))] }, true)
  | .wq k nb => if c.act = 0 then (s, false) else
      match wqueue c s k with
      | none => (s, false)
      | some q =>
        if q.tail - q.head < q.entries then
          let s := s.modGang c.g (fun y => { y with wqs := y.wqs.set k.toNat (some { q with tail := q.tail + 1 }) })
          (onItsWay c s lat { r with wpush := some (k.toNat, q.tail),
                                     preds := if nb then status c (some (p6.getD true)) else r.preds }, true)
        else (onItsWay c s lat { r with preds := status c (some false) }, true)

/-- Instruction `i` with tail `t`, a lane instruction of a latency. Where its word issues: if its sources cannot be read,
it ends as that says; if its destination takes a result, it retires, and the values `val` with the flags `flags` are on
their way to `d`; a w destination that is not configured raises #QERR, and a blocking push to a full one stalls. -/
def Lanewise (i : Instr) (t : Tail) (lat : Nat) (d : Dst) (words : Nat) (ws : List Want)
    (val : Ctx → List (Lanes 64) → Nat → BitVec 64) (flags : Ctx → List (Lanes 64) → Nat → BitVec 5) : Prop :=
  ∀ s c, Issues s t c →
    (∀ e, c.read (spent s) ws = .error e → exec i s = c.finish t (spent s) e) ∧
    ∀ rd, c.read (spent s) ws = .ok rd →
      (Room c rd.s d →
        let r := sent c rd.s lat d words (laneNums.map (val c rd.v)) (laneNums.map (flags c rd.v)) rd.p6
        exec i s = retired t c r.1 r.2) ∧
      (∀ k nb, d = .wq k nb → c.act ≠ 0 →
        (wqueue c rd.s k = none → exec i s = trapped c s .qerr c.act 0 0) ∧
        (∀ q, wqueue c rd.s k = some q → nb = false → q.entries ≤ q.tail - q.head →
          exec i s = .next ((spent s).modSlot c.g c.t c.k (fun z => { z with stall := some (.pushFull k.toNat) }))))

/-- No flag. -/
def quiet : Ctx → List (Lanes 64) → Nat → BitVec 5 := fun _ _ _ => 0

/-! ### Integer values as numbers (R187, R189, R200, R201) -/

/-- x read as signed two's complement of W bits. -/
def signed (W : Nat) (x : Nat) : Int := if x < 2 ^ (W - 1) then x else (x : Int) - 2 ^ W

/-- IMM18 as a number of W bits: sign-extended or zero-extended (R189). -/
def immediate (sx : Bool) (W : Nat) (v : BitVec 18) : Nat :=
  if sx then ((v.toInt) % (2 ^ W : Nat)).toNat else v.toNat

/-- The width of an integer instruction: 64 for a uniform one, else 32 (R177, R187). -/
def width : Dst → Nat
  | .g _ _ => 64
  | _ => 32

/-- The sources before an operand that may be an immediate, and the immediate (R165, R189). -/
def operands (xs : List Src) : SrcI → List Src
  | .src b => xs ++ [b]
  | .imm _ => xs

/-- The operand that may be an immediate as a number, if it is one. -/
def immediates (sx : Bool) (W : Nat) : SrcI → List Nat
  | .src _ => []
  | .imm v => [immediate sx W v]

/-- Instruction `i` computes `f W operands` mod 2^W, in each active lane or once for a uniform operation, 2 clocks after
issue (R177, R182, R187). -/
def Integer (i : Instr) (t : Tail) (d : Dst) (xs : List Src) (imms : Nat → List Nat) (f : Nat → List Nat → Int) : Prop :=
  let W := width d
  Lanewise i t 2 d (W / 32) (xs.map (fun x => (x, .int, W / 32)))
    (fun _ v l => BitVec.ofInt 64
      (f W (v.map (fun x => (x.at_ (if W = 64 then 0 else l)).toNat % 2 ^ W) ++ imms W) % (2 ^ W : Nat))) quiet

/-- The k-th operand. -/
def kth (xs : List Nat) (k : Nat) : Nat := xs.getD k 0

/-- An instruction whose second operand may be IMM18. -/
def Integer2 (i : Instr) (t : Tail) (d : Dst) (a : Src) (b : SrcI) (sx : Bool) (f : Nat → Nat → Nat → Int) : Prop :=
  Integer i t d (operands [a] b) (fun W => immediates sx W b) (fun W xs => f W (kth xs 0) (kth xs 1))

/-- The number of bits of x below W for which a test holds. -/
def bitsThat (W : Nat) (p : Nat → Bool) : Nat := ((List.range W).filter p).length

/-- The leading zero bits of a number of W bits. -/
def leadingZeros (W x : Nat) : Nat := ((List.range W).reverse.takeWhile (fun k => !x.testBit k)).length

/-- Bit i at position W − 1 − i. -/
def reversed (W x : Nat) : Nat := (List.range W).foldl (fun n i => n + if x.testBit i then 2 ^ (W - 1 - i) else 0) 0

/-- The field (A >> pos) mod 2^len of BFX, as a signed number unless `u` (R201). -/
def field (u : Bool) (W a c : Nat) : Int :=
  let pos := c % 64 % W
  let len := min (c / 256 % 128) W
  let f := a / 2 ^ pos % 2 ^ len
  if !u && 0 < len && f.testBit (len - 1) then (f : Int) - 2 ^ len else f

/-- BFI (R201). -/
def inserted (W a b c : Nat) : Nat :=
  let pos := c % 64 % W
  let len := min (c / 256 % 128) W
  let mask := (2 ^ len - 1) * 2 ^ pos % 2 ^ W
  (a &&& (2 ^ W - 1 - mask)) ||| (b * 2 ^ pos &&& mask)

/-! ### Predicates and cross-lane moves (R61, R202 to R208) -/

/-- Instruction `i` writes predicate `p` in each active lane, 2 clocks after issue (R61). -/
def Predicate (i : Instr) (t : Tail) (p : BitVec 3) (ws : List Want) (val : Ctx → List (Lanes 64) → Nat → Bool)
    (flags : Ctx → List (Lanes 64) → Nat → BitVec 5) : Prop :=
  Lanewise i t 2 (.p p) 1 ws (fun c v l => if val c v l then 1 else 0) flags

/-- Operand k of lane l as a number of W bits. -/
def num (v : List (Lanes 64)) (k l W : Nat) : Nat := ((v.getD k []).getD l 0).toNat % 2 ^ W

/-- The conditions of ICMP on two numbers of W bits (R202). -/
def compares (W : Nat) (cond : BitVec 3) (x y : Nat) : Bool :=
  let a := signed W x
  let b := signed W y
  match cond.toNat with
  | 0 => x == y
  | 1 => x != y
  | 2 => decide (a < b)
  | 3 => decide (a ≤ b)
  | 4 => decide (b < a)
  | 5 => decide (b ≤ a)
  | 6 => decide (x < y)
  | _ => decide (y ≤ x)

/-- A predicate of a lane, negated where asked; p7 is true (R61). -/
def truth (c : Ctx) (neg : Bool) (p : BitVec 3) (l : Nat) : Bool :=
  let b := if p = 7 then decide (l < 32) else (c.tk.p.getD p.toNat 0).getLsbD l
  neg ^^ b

/-- The active lanes in which a predicate is true, ascending (R206). -/
def chosen (c : Ctx) (neg : Bool) (p : BitVec 3) : List Nat :=
  (List.range 32).filter (fun l => c.act.getLsbD l && truth c neg p l)

/-- The source lane of SHFL for lane l of a segment of w lanes (R207). -/
def sourceLane (mode w l v : Nat) : Nat :=
  let base := l / w * w
  let r := l % w
  base + (match mode with
    | 0 => v % w
    | 1 => (r + v % w) % w
    | 2 => (w - 1 - r + v % w) % w
    | _ => r ^^^ (v % w))

/-- A SHFL: the source lane's value, or 0 with `.z` where that lane is not active, 6 clocks after issue (R207). -/
def Shuffles (i : Instr) (t : Tail) (mode : Nat) (z : Bool) (d : Dst) (a : Src) (v : ShflAmt) (k : BitVec 3) : Prop :=
  let amount := fun (vs : List (Lanes 64)) (l : Nat) => match v with
    | .src _ => num vs 1 l 32
    | .imm n => n.toNat
  let ws : List Want := (a, .int, 1) :: (match v with
    | .src b => [(b, .int, 1)]
    | .imm _ => [])
  Lanewise i t 6 d 1 ws (fun c vs l =>
    let j := sourceLane mode (2 ^ k.toNat) l (amount vs l)
    if z ∧ c.act.getLsbD j = false then 0 else (vs.getD 0 []).getD j 0) quiet

/-! ### Floating-point values as numbers (R71 to R78, R203, R209 to R218) -/

/-- A lane's word element by element: one element, or two of 16 bits, whose flags are joined (R74, R209). -/
def elements (e : Elem) (v : List (Lanes 64)) (l : Nat) (f : List Nat → Nat × BitVec 5) : BitVec 64 × BitVec 5 :=
  let part := fun (lo len : Nat) => f (v.map (fun x => (x.getD l 0).toNat / 2 ^ lo % 2 ^ len))
  if e.packed then
    let a := part 0 16
    let b := part 16 16
    (BitVec.ofNat 64 (a.1 + 2 ^ 16 * b.1), a.2 ||| b.2)
  else
    let a := part 0 32
    (BitVec.ofNat 64 a.1, a.2)

/-- Instruction `i` computes `f` of each element of its operands, with the flags it raises, after a latency. -/
def Float (e : Elem) (i : Instr) (t : Tail) (lat : Nat) (d : Dst) (xs : List Src) (f : Ctx → List Nat → Nat × BitVec 5) :
    Prop :=
  Lanewise i t lat d 1 (xs.map (fun x => (x, if e.packed then CK.packed e.f else CK.fp e.f, 1)))
    (fun c v l => (elements e v l (f c)).1) (fun c v l => (elements e v l (f c)).2)

/-- The rounding mode of a word: its own, or FPCTL's (R68, R211). -/
def mode (c : Ctx) (rm : BitVec 2) (dyn : Bool) : BitVec 2 := if dyn then c.tk.fpctl.extractLsb' 0 2 else rm

/-- FPCTL.FTZ (R68, R71). -/
def ftz (c : Ctx) : Bool := c.tk.fpctl.getLsbD 2

/-- The arithmetic words of an element type (R212, R213, R215). -/
def FloatFamily (e : Elem) (add sub mul : Tail → BitVec 2 → Bool → Dst → Src → Src → Instr)
    (fma : Tail → BitVec 2 → Dst → Src → Src → Src → Instr) (mn mx : Tail → Dst → Src → Src → Instr)
    (cls : Tail → Dst → Src → Instr) : Prop :=
  ∀ (t : Tail) (rm : BitVec 2) (dyn : Bool) (d : Dst) (a b k : Src),
    Float e (add t rm dyn d a b) t 4 d [a, b] (fun c xs => arith2 e.f (ftz c) (mode c rm dyn) 0 (kth xs 0) (kth xs 1)) ∧
    Float e (sub t rm dyn d a b) t 4 d [a, b] (fun c xs => arith2 e.f (ftz c) (mode c rm dyn) 1 (kth xs 0) (kth xs 1)) ∧
    Float e (mul t rm dyn d a b) t 4 d [a, b] (fun c xs => arith2 e.f (ftz c) (mode c rm dyn) 2 (kth xs 0) (kth xs 1)) ∧
    Float e (fma t rm d a b k) t 4 d [a, b, k] (fun c xs => arith3 e.f (ftz c) rm (kth xs 0) (kth xs 1) (kth xs 2)) ∧
    Float e (mn t d a b) t 4 d [a, b] (fun c xs => fMinMax e.f (ftz c) false (kth xs 0) (kth xs 1)) ∧
    Float e (mx t d a b) t 4 d [a, b] (fun c xs => fMinMax e.f (ftz c) true (kth xs 0) (kth xs 1)) ∧
    Float e (cls t d a) t 4 d [a] (fun _ xs => (fClass e.f (kth xs 0), 0))

/-- The function words of an element type in the order of R214. -/
def FunctionFamily (e : Elem) (fs : List (Tail → BitVec 2 → Dst → Src → Instr)) : Prop :=
  ∀ (t : Tail) (rm : BitVec 2) (d : Dst) (a : Src) (k : Nat) (f : Tail → BitVec 2 → Dst → Src → Instr), fs[k]? = some f →
    Float e (f t rm d a) t 12 d [a] (fun c xs => fFunc e.f rm (ftz c) k (kth xs 0))

/-- A code with its sign bit. -/
def negative (f : Fmt) (x : Nat) : Bool := x.testBit (f.eb + f.fb)

/-- A code without its sign bit. -/
def magnitude (f : Fmt) (x : Nat) : Nat := x % 2 ^ (f.eb + f.fb)

/-- The real number of a finite code (R73). -/
def real (f : Fmt) (x : Nat) : ℚ :=
  let e := magnitude f x / 2 ^ f.fb
  let m := x % 2 ^ f.fb
  let v : ℚ := if e = 0 then m * 2 ^ (f.emin - f.fb) else (2 ^ f.fb + m : Nat) * 2 ^ ((e : ℤ) - f.bias - f.fb)
  if negative f x then -v else v

/-- Whether a code is a finite number. -/
def finite (f : Fmt) (x : Nat) : Bool := decide (magnitude f x < f.infBits)

/-- A real number rounded to an integer by a mode (R75, R211): RNE, RTZ, RUP, RDN. -/
def toInteger (rm : BitVec 2) (z : ℚ) : ℤ :=
  match rm.toNat with
  | 0 => if z - ⌊z⌋ < 1 / 2 then ⌊z⌋ else if 1 / 2 < z - ⌊z⌋ then ⌊z⌋ + 1 else if ⌊z⌋ % 2 = 0 then ⌊z⌋ else ⌊z⌋ + 1
  | 1 => if z < 0 then ⌈z⌉ else ⌊z⌋
  | 2 => ⌈z⌉
  | _ => ⌊z⌋

/-- `r` is Round of x with its flags (R75, R76): `s` is the sign of an exact zero. -/
def IsRound (f : Fmt) (rm : BitVec 2) (z : Bool) (x : ℚ) (s : Bool) (r : Nat × BitVec 5) : Prop :=
  let neg := decide (x < 0)
  let tiny := |x| < 2 ^ f.emin
  let q : ℚ := 2 ^ (max (Int.log 2 |x|) f.emin - f.fb)
  let y := toInteger rm (x / q) * q
  let top := if rm = 0 ∨ (rm = 2 ∧ 0 < x) ∨ (rm = 3 ∧ x < 0) then f.infBits else f.infBits - 1
  if x = 0 then r = (f.signed s 0, 0)
  else if tiny ∧ z = true then r = (f.signed neg 0, flUF ||| flNX)
  else if 2 ^ (f.bias + 1) ≤ |y| then r = (f.signed neg top, flOF ||| flNX)
  else r.1 < 2 ^ f.width ∧ finite f r.1 = true ∧ negative f r.1 = neg ∧ real f r.1 = y ∧
    r.2 = (if y = x then 0 else if tiny then flNX ||| flUF else flNX)

/-- A code through FlushIn (R71). -/
def flushed (f : Fmt) (z : Bool) (x : Nat) : Nat :=
  if z && f != f64 && decide (magnitude f x < 2 ^ f.fb) then f.signed (negative f x) 0 else x

/-- Whether a code is a NaN. -/
def isNaN (f : Fmt) (x : Nat) : Bool := decide (f.infBits < magnitude f x)

/-- Whether a code is a signalling NaN. -/
def isSNaN (f : Fmt) (x : Nat) : Bool := isNaN f x && !x.testBit (f.fb - 1)

/-- The order of the codes of numbers, −0 below +0 (R213). -/
def rank (f : Fmt) (x : Nat) : Int := if negative f x then -1 - (magnitude f x : Int) else magnitude f x

/-- The order of numbers, −0 equal to +0 (R203). -/
def order (f : Fmt) (x : Nat) : Int := if negative f x then -(magnitude f x : Int) else magnitude f x

/-- The bit of FCLASS for a code (R215). -/
def classBit (f : Fmt) (x : Nat) : Nat :=
  let m := magnitude f x
  if isNaN f x then (if isSNaN f x then 8 else 9)
  else
    let k := if m = f.infBits then 0 else if m = 0 then 3 else if m < 2 ^ f.fb then 2 else 1
    if negative f x then k else 7 - k

/-- The real number of a decoded value. -/
def valueOf : FVal → ℚ
  | .fin s m e _ => (if s then -1 else 1) * (m : ℚ) * 2 ^ e
  | _ => 0

/-- Whether a decoded value is a finite number. -/
def isReal : FVal → Prop
  | .zero _ => True
  | .fin _ m _ _ => m ≠ 0
  | _ => False

/-- IntConv of a finite number (R218). -/
def intConverted (rm : BitVec 2) (lo hi : Int) (x : ℚ) : Int × BitVec 5 :=
  let n := toInteger rm x
  if n < lo then (lo, flNV) else if hi < n then (hi, flNV) else (n, if (n : ℚ) = x then 0 else flNX)

/-- The RN8 code of an integer: its residues modulo 3, 5 and 7 (R79, R80). -/
def rn8 (n : Int) : Nat := (n % 3).toNat * 2 ^ 6 + (n % 5).toNat * 2 ^ 3 + (n % 7).toNat

/-- EncodeL4 of a finite number (R83). -/
def l4 (x : ℚ) : Nat × BitVec 5 :=
  let a := |x|
  let e : Nat := if a ≤ 1 / 8 then 0 else if a < 3 / 8 then 1 else if a ≤ 3 / 4 then 2 else if a < 3 / 2 then 3
    else if a ≤ 3 then 4 else if a < 6 then 5 else if a ≤ 12 then 6 else 7
  let fits := if e = 0 then a = 0 else a = 2 ^ ((e : ℤ) - 3)
  (if e = 0 then 0 else if x < 0 then 8 + e else e,
   if fits then 0 else if e = 0 then flNX ||| flUF else if 16 < a then flOF ||| flNX else flNX)

/-- The sum of a list of integers. -/
def total (vs : List Int) : Int := vs.foldl (· + ·) 0

/-! ### Operands (R52, R54, R58, R172 to R174) -/

/-- Whether a source pops (R175). -/
def pops : Src → Bool
  | .fifo _ _ | .wq _ _ => true
  | _ => false

/-- The registers that a source marks as read for the last time (R58). -/
def marked (words : Nat) : Src → List Nat
  | .n r true => (List.range words).map (fun k => r.toNat + k)
  | _ => []

/-- What lane l reads of a source that does not pop, at 64 bits or at 32 zero-extended (R52, R54, R172 to R174). -/
def sourceValue (c : Ctx) (now : Nat) (ck : CK) (w64 : Bool) (x : Src) (l : Nat) : BitVec 64 :=
  let word := fun (r : Nat) => ((c.tk.n.getD r []).getD l 0).toNat
  let v : Nat := match x with
    | .q age => ((c.sl.queue.getD ((c.sl.pushes + 31 - age.toNat) % 16) []).getD l 0).toNat
    | .n r _ => word r.toNat + if w64 then 2 ^ 32 * word (r.toNat + 1) else 0
    | .g r hi => let g := (c.tk.g.getD r.toNat 0).toNat
      if hi && !w64 then g / 2 ^ 32 else g
    | .const k => (constVal ck k).toNat
    | .special .lane => l
    | .special .tk => c.t
    | .special .gang => c.g % 2 ^ 24
    | .special .octant => c.tk.oct
    | .special .core => c.core
    | .special .grove => c.core / 8
    | .special .clk => now
    | .special .clkh => now / 2 ^ 32 % 2 ^ 32
    | .special .slot => c.k
    | .special .mask => c.sl.mask.toNat
    | _ => 0
  BitVec.ofNat 64 (if w64 then v else match x with
    | .special .clk => v % 2 ^ 32
    | .special _ => v
    | _ => v % 2 ^ 32)

/-- No storage error can be met in the fast register file of a core (R435). -/
def fastFileSound (s : State) (core : Nat) : Prop := ∀ i ∈ s.dev.injs, ¬ (i.array = 3 ∧ i.home = core)

/-! ### What a statement calls unchanged -/

/-- The state but for the issuing slot, the operations in flight and the selection. -/
def elsewhere (c : Ctx) (s : State) : State :=
  { s.modSlot c.g c.t c.k (fun _ => {}) with ops := [], nextOp := 0, cur := none }

/-- The parts of a state that hold data: memory, scratchpads, tiles, registers, predicates, flags, special registers. -/
def slotsAside (s : State) : State :=
  { s with ops := [], nextOp := 0, cur := none, gangs := s.gangs.map (fun x =>
      { x with tks := x.tks.map (fun y => { y with slots := [], stack := [] }) }) }

/-! ### Accesses to memory (R134, R227, R234) -/

/-- What a word leaves alone that only sends something on its way. -/
structure SameData (s s' : State) : Prop where
  mem     : s'.mem = s.mem
  gangs   : (slotsAside s').gangs = (slotsAside s).gangs
  tasks   : s'.tasks = s.tasks
  dev     : s'.dev = s.dev
  cores   : s'.cores = s.cores
  subs    : s'.subs = s.subs
  waiters : s'.waiters = s.waiters

/-- An operation of the issuing slot: on the core's clock or on the reference clock, and the status it will write (R61). -/
def opOf (c : Ctx) (s : State) (core : Option Nat) (at_ : Nat) (p6 : Option Bool) (k : OpKind) : Op :=
  { id := s.nextOp, gang := c.g, tk := c.t, slot := c.k, core := core, at_ := at_, tag := c.tag, tagSlots := [c.k],
    mask := c.act, p6 := p6, kind := k }

/-- An operation of the issuing slot that goes to global memory or to a unit: on the core's clock or on the reference clock,
and for whom (R136, R383, R424). -/
def sentOut (c : Ctx) (s : State) (core : Option Nat) (at_ : Nat) (p6 : Option Bool) (k : OpKind) : Op :=
  { opOf c s core at_ p6 k with src := some c.core, who := some (c.x.part, c.x.tenant) }

/-- A word with operands that are checked (R56, R163, R227): where a check stops it, it ends as the check says and has popped
nothing; with no active lane it only retires; else it retires, holding its tag, and `post` says what it leaves of the state
in which its operands are read. -/
def Checks {α : Type} (i : Instr) (t : Tail) (ws : List Want) (check : Ctx → Read → State → Except Res (State × α))
    (post : Ctx → Read → α → State → State → Prop) : Prop :=
  ∀ s c, Passes s t c →
    (∀ e, c.read (spent s) ws = .error e → exec i s = c.finish t (spent s) e) ∧
    ∀ rd, c.read (spent s) ws = .ok rd →
      (c.act = 0 → exec i s = retired t c rd.s false) ∧
      (∀ e, c.act ≠ 0 → check c rd (spent s) = .error e → exec i s = c.finish t (spent s) e) ∧
      ∀ s1 a, c.act ≠ 0 → check c rd (spent s) = .ok (s1, a) → s1.sound = true →
        (∀ e, c.read s1 ws = .error e → exec i s = c.finish t (spent s) e) ∧
        ∀ rd1, c.read s1 ws = .ok rd1 → ∃ s2, exec i s = retired t c s2 true ∧ post c rd1 a rd1.s s2

/-- The active lanes' offsets: the first operand's low 32 bits plus a number of bytes (R98, R234). -/
def lanesAt (c : Ctx) (rd : Read) (bytes : Int) : List (Nat × Int) :=
  ((List.range 32).filter (fun l => c.act.getLsbD l)).map (fun l =>
    (l, (((rd.v.getD 0 []).getD l 0).toNat % 2 ^ 32 : Nat) + bytes))

/-- A load to a g register is made once, at the lowest active lane (R234). -/
def once {α : Type} (d : Dst) (ls : List α) : List α :=
  match d with
  | .g _ _ => ls.take 1
  | _ => ls

/-- The check of lanes at gang-relative addresses modulo 2^32: lane and address (R227, R234). -/
def scratchCheck (c : Ctx) (s : State) (os : List (Nat × Int)) (size : Nat) (writes : Bool) : Except Res (State × List LanePa) :=
  let as := os.map (fun o => (o.1, (o.2 % 2 ^ 32).toNat))
  match c.spCheck s as size size writes true with
  | some r => .error r
  | none => .ok (s, as.map (fun a => (a.1, a.2, a.2)))

/-- What an access is, apart from when it is performed. -/
def access (a : Acc) : Nat × Bool × Nat × Nat × AccAct × Bool := (a.lane, a.glob, a.addr, a.size, a.act, a.done)

/-- One operation goes out with one access for each lane, none of them performed yet: at least 100 reference clocks from now in
global memory, 10 clocks from issue in scratchpad. A load or atomic (`lands`) completes no earlier than its accesses, one to
global memory at least 200 of its core's own clocks after issue, and an acquire holds back the slot (R130, R230, R234, R373,
R424). -/
def Requests (c : Ctx) (s s2 : State) (glob : Bool) (ls : List LanePa) (size : Nat) (act : Nat → AccAct) (p6 : Option Bool)
    (kind : List Acc → OpKind) (lands acquire : Bool) : Prop :=
  ∃ accs due, s2.ops = s.ops ++ [if glob then sentOut c s (if lands then some c.core else none) due p6 (kind accs)
      else opOf c s (some c.core) due p6 (kind accs)] ∧
    accs.map access = ls.map (fun e => (e.1, glob, e.2.2, size, act e.1, false)) ∧
    (∀ a ∈ accs, (if glob then s.now + 100 else c.clk + 10) ≤ a.at_ ∧
      (lands = true → if glob then a.at_ + 100 + c.clk ≤ due + s.now else a.at_ ≤ due)) ∧
    SameData s s2 ∧
    (s2.slot? c.g c.t c.k).map (fun z => z.hold) =
      (s.slot? c.g c.t c.k).map (fun z => if acquire then s.nextOp :: z.hold else z.hold)

/-- The data that a store of a size code takes in a lane: the low bits of its second operand, or four registers (R234). -/
def stored (rd : Read) (size : BitVec 3) (l : Nat) : BitVec 128 :=
  if size = 4 then (rd.wide.getD 1 []).getD l 0 else ((rd.v.getD 1 []).getD l 0).setWidth 128

/-- The registers of an operand of a size code (R169). -/
def regsOf (size : BitVec 3) : Nat := if size = 4 then 4 else if size = 3 then 2 else 1

/-- Where a long-latency value goes (R226). -/
def goesTo (d : Dst) (words : Nat) : LDest :=
  match d with
  | .n r => .n r.toNat words
  | .g r _ => .g r.toNat
  | _ => .none

/-! ### Tiles (R85) -/

/-- Cells as an instruction reads them in a form: a cell that was last written in the other form reads as any value. -/
def reads (t : YTile) (fp : Bool) (cells : List (BitVec 40)) : Prop :=
  cells.length = t.cells.length ∧
  ∀ i, (if fp then t.res else t.fp).getLsbD i = false → cells.getD i 0 = t.cells.getD i 0

/-! ### Events (R383) -/

/-- No retired write of a partition is left to be performed and none of its events waits: an event is sent as it arises. -/
def Prompt (s : State) (part : Nat) : Prop := s.released part = [] ∧ ∀ p, s.part? part = some p → p.unsent = []

/-! ### Commands (R377, R379, R380) -/

/-- The endpoint of a message at its partition. -/
def epOf (m : JcpMsg) : Nat := if hdrPart m.hdr = 63 then 0 else hdrEp m.hdr

/-- The addresses from which an endpoint takes messages (R377). -/
def senders (s : State) (m : JcpMsg) : List (BitVec 64) :=
  if hdrPart m.hdr = 63 then s.dev.mgmtAddrs
  else ((s.part? (hdrPart m.hdr)).map (fun p => (p.fabric.drop (8 * epOf m)).take 8)).getD []

/-- The steps that a command endpoint makes. -/
def Command (m : JcpMsg) (i : Instr) : Prop :=
  i = .partCreate m ∨ i = .partDestroy m ∨ i = .memWrite m ∨ i = .memRead m ∨ i = .launch m ∨ i = .preempt m ∨ i = .resume m ∨
  i = .faultFetch m ∨ i = .replay m ∨ i = .migrate m ∨ i = .ckptCommand m ∨ i = .restore m ∨ i = .attest m ∨ i = .peerNonce m ∨
  i = .peerAdd m ∨ i = .fwLoad m ∨ i = .telemCoreMask m ∨ i = .telemJobRecords m ∨ i = .telemServiceUnits m ∨ i = .telemErrorLog m ∨
  i = .resetPartition m ∨ i = .resetDevice (some m)

/-- The state in which an endpoint has taken a command. -/
def taken (s : State) (m : JcpMsg) : State :=
  s.modEndpoint (hdrPart m.hdr) (epOf m) (fun e => { e with busy := some m, seq := e.seq + 1 })

/-- A message comes from an authorised sender to an endpoint that has no answer to its SEQ. -/
structure Comes (s : State) (m : JcpMsg) (e : Endpoint) : Prop where
  here  : s.endpoint? (hdrPart m.hdr) (epOf m) = some e
  known : m.src ≠ 0 ∧ m.src ∈ senders s m
  awake : s.dev.boot ≠ .locked
  fresh : ∀ x ∈ e.stored, x.1 ≠ hdrSeq m.hdr

/-- The partition that a message names is not being destroyed or reset. -/
def opened (s : State) (m : JcpMsg) : Prop := ∀ p, s.part? (hdrPart m.hdr) = some p → p.closing = false

/-- The operations that a device on the other side still has to acknowledge (R292, R294). -/
def remote : OpKind → Bool
  | .task (.remote ..) _ | .task (.rspawn ..) _ | .task (.rsig ..) _ => true
  | _ => false

/-- A command that an endpoint takes and begins: `s1` is the state in which its effect is made. -/
structure Begins (s : State) (m : JcpMsg) (e : Endpoint) (s1 : State) : Prop extends Comes s m e where
  free  : e.busy = none
  open_ : opened s m
  next  : hdrSeq m.hdr = e.seq
  runs  : s1 = taken s m
  sound : s1.refusal m = none

/-- A command that an endpoint of a partition takes and begins. -/
structure PartBegins (s : State) (m : JcpMsg) (e : Endpoint) (s1 : State) (p : Partition) : Prop extends Begins s m e s1 where
  mine : hdrPart m.hdr ≠ 63
  part : s1.part? (hdrPart m.hdr) = some p

/-- What a response says (R380). -/
def responds (m : JcpMsg) (o : OutMsg) (status : Nat) (arg0 : BitVec 64) (payload : List Byte) : Prop :=
  o.dest = m.src ∧ o.part = hdrPart m.hdr ∧ o.payload = payload ∧ hdrVer o.hdr = 1 ∧ hdrType o.hdr = 1 ∧ hdrOp o.hdr = hdrOp m.hdr ∧
  hdrPart o.hdr = hdrPart m.hdr ∧ hdrEp o.hdr = hdrEp m.hdr ∧ hdrTenant o.hdr = hdrTenant m.hdr ∧ hdrStatus o.hdr = status ∧
  hdrSeq o.hdr = hdrSeq m.hdr ∧ hdrLen o.hdr = payload.length % 2 ^ 32 ∧ hdrTag o.hdr = hdrTag m.hdr ∧ hdrArg o.hdr 0 = arg0

/-- A command is answered: its response goes out and is kept, the endpoint is free, and what waited behind it comes next. -/
def Answered (s u : State) (m : JcpMsg) (status : Nat) (arg0 : BitVec 64) (payload : List Byte) : Prop :=
  ∃ (o : OutMsg) (e e' : Endpoint), u.outbox = s.outbox ++ [o] ∧ responds m o status arg0 payload ∧
    s.endpoint? (hdrPart m.hdr) (epOf m) = some e ∧ u.endpoint? (hdrPart m.hdr) (epOf m) = some e' ∧
    e'.busy = none ∧ e'.queue = [] ∧ e'.seq = e.seq ∧ e'.stored.length ≤ 64 ∧
    e'.stored.getLast? = some (hdrSeq m.hdr, { src := o.dest, hdr := o.hdr, payload := o.payload }) ∧
    u.inbox = e.queue.map Input.jcp ++ s.inbox

end Sys2Proof.Says
end

