-- ==== Sys2Proof/Certificates/Slice0/Obligations.lean ====
section
/-! DEFINITION. The statements for the provers. -/

open Sys2Proof Sys2Proof.Machine Sys2Proof.Says

/-- R47, R62, R63, R161, R181, R398: a step with a slot selected fetches the eight bytes at its PC, from the line that it keeps or from
memory, and runs the instruction that they decode to; a word that decodes to none raises #ILLOP in every lane of the mask; a page without
mapping raises #XLATE, one that may not be fetched #PROT. -/
def Obligations.StepRunsTheDecodedWord : Prop :=
  ∀ (s : State) (q : Cur) (x : Gang) (y : Tussock) (z : Slot) (p : Partition) (core : Nat), s.cur = some q →
    s.gang? q.gang = some x → x.core = some core → x.tks[q.tk]? = some y → y.slots[q.slot]? = some z → z.valid = true →
    s.part? x.part = some p →
    let line := z.pc.toNat / 64
    let reader := s.readerOf q.gang
    let keeps := fun (s : State) (bits : BitVec 512) =>
      s.modSlot q.gang q.tk q.slot (fun k => { k with fline := some (line, bits) })
    let traps := fun (s : State) (code : TrapCode) (addr : Nat) => Host.Outcome.next
      (({ s with cur := none } : State).takeTrap q.gang q.tk q.slot { code := code, lanes := z.mask, addr := addr })
    (∀ bits i, z.buffered = some bits → decode (bytesOfWord (wordIn bits z.pc)) = .ok (i, []) →
      step s = exec i (keeps s bits)) ∧
    (∀ bits e, z.buffered = some bits → decode (bytesOfWord (wordIn bits z.pc)) = .error e →
      step s = traps (keeps s bits) .illop 0) ∧
    (∀ s' a frame page entry b w e lines, z.buffered = none →
      s.translate core p x.tenant (64 * line) .fetch y.sup reader = (s', .pa a frame page entry b w e lines) → s'.sound = true →
      (∀ i, decode (bytesOfWord (wordIn (s'.codeLine a) z.pc)) = .ok (i, []) → step s = exec i (keeps s' (s'.codeLine a))) ∧
      (∀ r, decode (bytesOfWord (wordIn (s'.codeLine a) z.pc)) = .error r → step s = traps (keeps s' (s'.codeLine a)) .illop 0) ∧
      (z.pc.toNat % 8 = 0 →
        bytesOfWord (wordIn (s'.codeLine a) z.pc) = (List.range 8).map (fun k => s'.mem.get (a + z.pc.toNat % 64 + k)))) ∧
    (∀ s', z.buffered = none → z.mask ≠ 0 → s.translate core p x.tenant (64 * line) .fetch y.sup reader = (s', .xlate) →
      step s = traps s' .xlate z.pc.toNat) ∧
    (∀ s', z.buffered = none → z.mask ≠ 0 → s.translate core p x.tenant (64 * line) .fetch y.sup reader = (s', .prot) →
      step s = traps s' .prot z.pc.toNat)

/-- Log 6: a step with no slot selected takes the oldest input from outside, else runs the event that is due, else lets the next octant
select, else lets one reference clock pass; the event that it runs is the instruction of its name. -/
def Obligations.StepRunsTheDueEvent : Prop :=
  (∀ (s : State) (i : Input) (rest : List Input), s.cur = none → s.inbox = i :: rest →
    step s = match ({ s with inbox := rest } : State).input i with
      | .run e s' => e.run s'
      | .done s' => .next s') ∧
  (∀ (s : State) (e : Event), s.cur = none → s.inbox = [] → s.due = some e → step s = e.run s) ∧
  (∀ (s : State) (core oct : Nat) (rest : List (Nat × Nat)), s.cur = none → s.inbox = [] → s.due = none →
    s.sweep = (core, oct) :: rest → step s = exec (.issueSelect core oct) s) ∧
  (∀ s : State, s.cur = none → s.inbox = [] → s.due = none → s.sweep = [] → step s = .next s.tick ∧ s.tick.now = s.now + 1) ∧
  (∀ (core oct : Nat) (s : State), Event.run (.issueSelect core oct) s = exec (.issueSelect core oct) s) ∧
  (∀ (op : Nat) (s : State), Event.run (.resultLand op) s = exec (.resultLand op) s) ∧
  (∀ (op : Nat) (s : State), Event.run (.loadComplete op) s = exec (.loadComplete op) s) ∧
  (∀ (op acc : Nat) (s : State), Event.run (.storePerformed op acc) s = exec (.storePerformed op acc) s) ∧
  (∀ (op : Nat) (s : State), Event.run (.stageComplete op) s = exec (.stageComplete op) s) ∧
  (∀ (op : Nat) (s : State), Event.run (.btLineLand op) s = exec (.btLineLand op) s) ∧
  (∀ (gang tk slot : Nat) (s : State), Event.run (.longWaitSatisfied gang tk slot) s = exec (.longWaitSatisfied gang tk slot) s) ∧
  (∀ (task : Nat) (s : State), Event.run (.placeGang task) s = exec (.placeGang task) s) ∧
  (∀ (gang tk : Nat) (s : State), Event.run (.activateTussock gang tk) s = exec (.activateTussock gang tk) s) ∧
  (∀ (gang tk : Nat) (s : State), Event.run (.stagingDone gang tk) s = exec (.stagingDone gang tk) s) ∧
  (∀ (gang tk : Nat) (s : State), Event.run (.parkTussock gang tk) s = exec (.parkTussock gang tk) s) ∧
  (∀ (gang tk slot : Nat) (s : State), Event.run (.deadwait gang tk slot) s = exec (.deadwait gang tk slot) s) ∧
  (∀ (gang : Nat) (s : State), Event.run (.orderedUnload gang) s = exec (.orderedUnload gang) s) ∧
  (∀ (op : Nat) (s : State), Event.run (.windowFillDone op) s = exec (.windowFillDone op) s) ∧
  (∀ (op : Nat) (s : State), Event.run (.engineStart op) s = exec (.engineStart op) s) ∧
  (∀ (req : Nat) (s : State), Event.run (.leaveGrant req) s = exec (.leaveGrant req) s) ∧
  (∀ (op : Nat) (s : State), Event.run (.enginePieceCredit op) s = exec (.enginePieceCredit op) s) ∧
  (∀ (op : Nat) (s : State), Event.run (.shufComplete op) s = exec (.shufComplete op) s) ∧
  (∀ (op : Nat) (s : State), Event.run (.mrgkComplete op) s = exec (.mrgkComplete op) s) ∧
  (∀ (op : Nat) (s : State), Event.run (.mloopStepEnd op) s = exec (.mloopStepEnd op) s) ∧
  (∀ (op : Nat) (s : State), Event.run (.tileOpComplete op) s = exec (.tileOpComplete op) s) ∧
  (∀ (op : Nat) (s : State), Event.run (.pushLand op) s = exec (.pushLand op) s) ∧
  (∀ (gang tk n : Nat) (s : State), Event.run (.streamFetch gang tk n) s = exec (.streamFetch gang tk n) s) ∧
  (∀ (part : Nat) (s : State), Event.run (.faultRecordEnter part) s = exec (.faultRecordEnter part) s) ∧
  (∀ (op : Nat) (s : State), Event.run (.migrationCopyDone op) s = exec (.migrationCopyDone op) s) ∧
  (∀ (op : Nat) (s : State), Event.run (.swapDone op) s = exec (.swapDone op) s) ∧
  (∀ (part scene : Nat) (s : State), Event.run (.islandStepBoundary part scene) s = exec (.islandStepBoundary part scene) s) ∧
  (∀ (task : Nat) (s : State), Event.run (.islandFillDone task) s = exec (.islandFillDone task) s) ∧
  (∀ (gang tk slot : Nat) (s : State), Event.run (.igrowProceed gang tk slot) s = exec (.igrowProceed gang tk slot) s) ∧
  (∀ (part scene island : Nat) (s : State), Event.run (.islandRelaunch part scene island) s = exec (.islandRelaunch part scene island) s) ∧
  (∀ (part : Nat) (s : State), Event.run (.sliceEnd part) s = exec (.sliceEnd part) s) ∧
  (∀ (part : Nat) (s : State), Event.run (.drainDeadline part) s = exec (.drainDeadline part) s) ∧
  (∀ (part : Nat) (s : State), Event.run (.tenantRestore part) s = exec (.tenantRestore part) s) ∧
  (∀ (s : State), Event.run (.intervalStart) s = exec (.intervalStart) s) ∧
  (∀ (s : State), Event.run (.bucketSweep) s = exec (.bucketSweep) s) ∧
  (∀ (die : Nat) (s : State), Event.run (.thermalStepDown die) s = exec (.thermalStepDown die) s) ∧
  (∀ (die : Nat) (s : State), Event.run (.thermalStepUp die) s = exec (.thermalStepUp die) s) ∧
  (∀ (channel : Nat) (s : State), Event.run (.arbiterServe channel) s = exec (.arbiterServe channel) s) ∧
  (∀ (word : Nat) (s : State), Event.run (.patrolScrub word) s = exec (.patrolScrub word) s) ∧
  (∀ (port : Nat) (s : State), Event.run (.portLinkDown port) s = exec (.portLinkDown port) s) ∧
  (∀ (part rank : Nat) (s : State), Event.run (.peerUnreachable part rank) s = exec (.peerUnreachable part rank) s) ∧
  (∀ (m : JcpMsg) (s : State), Event.run (.remoteSpawnReceive m) s = exec (.remoteSpawnReceive m) s) ∧
  (∀ (m : JcpMsg) (s : State), Event.run (.remoteTsigReceive m) s = exec (.remoteTsigReceive m) s) ∧
  (∀ (m : JcpMsg) (s : State), Event.run (.remoteAckReceive m) s = exec (.remoteAckReceive m) s) ∧
  (∀ (m : JcpMsg) (s : State), Event.run (.remoteCompletion m) s = exec (.remoteCompletion m) s) ∧
  (∀ (m : JcpMsg) (s : State), Event.run (.partCreate m) s = exec (.partCreate m) s) ∧
  (∀ (m : JcpMsg) (s : State), Event.run (.partDestroy m) s = exec (.partDestroy m) s) ∧
  (∀ (m : JcpMsg) (s : State), Event.run (.memWrite m) s = exec (.memWrite m) s) ∧
  (∀ (m : JcpMsg) (s : State), Event.run (.memRead m) s = exec (.memRead m) s) ∧
  (∀ (m : JcpMsg) (s : State), Event.run (.launch m) s = exec (.launch m) s) ∧
  (∀ (m : JcpMsg) (s : State), Event.run (.preempt m) s = exec (.preempt m) s) ∧
  (∀ (m : JcpMsg) (s : State), Event.run (.resume m) s = exec (.resume m) s) ∧
  (∀ (m : JcpMsg) (s : State), Event.run (.faultFetch m) s = exec (.faultFetch m) s) ∧
  (∀ (m : JcpMsg) (s : State), Event.run (.replay m) s = exec (.replay m) s) ∧
  (∀ (m : JcpMsg) (s : State), Event.run (.migrate m) s = exec (.migrate m) s) ∧
  (∀ (m : JcpMsg) (s : State), Event.run (.ckptCommand m) s = exec (.ckptCommand m) s) ∧
  (∀ (m : JcpMsg) (s : State), Event.run (.restore m) s = exec (.restore m) s) ∧
  (∀ (m : JcpMsg) (s : State), Event.run (.attest m) s = exec (.attest m) s) ∧
  (∀ (m : JcpMsg) (s : State), Event.run (.peerNonce m) s = exec (.peerNonce m) s) ∧
  (∀ (m : JcpMsg) (s : State), Event.run (.peerAdd m) s = exec (.peerAdd m) s) ∧
  (∀ (m : JcpMsg) (s : State), Event.run (.fwLoad m) s = exec (.fwLoad m) s) ∧
  (∀ (m : JcpMsg) (s : State), Event.run (.telemCoreMask m) s = exec (.telemCoreMask m) s) ∧
  (∀ (m : JcpMsg) (s : State), Event.run (.telemJobRecords m) s = exec (.telemJobRecords m) s) ∧
  (∀ (m : JcpMsg) (s : State), Event.run (.telemServiceUnits m) s = exec (.telemServiceUnits m) s) ∧
  (∀ (m : JcpMsg) (s : State), Event.run (.telemErrorLog m) s = exec (.telemErrorLog m) s) ∧
  (∀ (m : JcpMsg) (s : State), Event.run (.resetPartition m) s = exec (.resetPartition m) s) ∧
  (∀ (m : Option JcpMsg) (s : State), Event.run (.resetDevice m) s = exec (.resetDevice m) s) ∧
  (∀ (s : State), Event.run (.powerOnReset) s = exec (.powerOnReset) s) ∧
  (∀ (image : List Byte) (s : State), Event.run (.bootRomLoad image) s = exec (.bootRomLoad image) s) ∧
  (∀ (list : List (BitVec 64)) (s : State), Event.run (.mctpAddressList list) s = exec (.mctpAddressList list) s) ∧
  (∀ (op : Nat) (s : State), Event.run (.taskUnitRequestDone op) s = exec (.taskUnitRequestDone op) s) ∧
  (∀ (op : Nat) (s : State), Event.run (.longLatencyCompletion op) s = exec (.longLatencyCompletion op) s) ∧
  (∀ (w : InjWrite) (s : State), Event.run (.jtagInjCtlWrite w) s = exec (.jtagInjCtlWrite w) s)

/-- R181, R227, R409: no step is refused, and none faults but where the machine's own tables are broken: it always goes on. -/
def Obligations.StepNeverRefuses : Prop :=
  ∀ s : State, (∃ t, step s = .next t) ∨ step s = .fault .noIssuingSlot

/-- Every step keeps the canonical form of memory: of global memory, of each scratchpad and of its bank array. -/
def Obligations.MemoryStaysCanonical : Prop :=
  ∀ s t : State, step s = .next t →
    (s.mem.wf = true ∧ ∀ x ∈ s.gangs, Memory.wf x.sp = true ∧ Memory.wf x.arr = true) →
    t.mem.wf = true ∧ ∀ x ∈ t.gangs, Memory.wf x.sp = true ∧ Memory.wf x.arr = true

/-- R2, R425, R433, R434: what power-on reset leaves: no partition, task, gang or binding, no error log or injection, boot at the ROM, CLK
0, the pool full, every byte of memory reading 0 (the model's choice, log 1) in the canonical form. -/
def Obligations.ResetState : Prop :=
  let s := State.reset
  s.now = 0 ∧ s.parts = [] ∧ s.gangs = [] ∧ s.tasks = [] ∧ s.ops = [] ∧ s.subs = [] ∧ s.waiters = [] ∧
  s.dev.boot = .rom ∧ s.dev.logs = [] ∧ s.dev.injs = [] ∧ s.dev.fw = [] ∧ s.dev.mgmt = {} ∧
  s.dev.pool = 31635 * 192 / 10 ∧ s.cores.length = 192 ∧ (∀ c ∈ s.cores, c.tlb = [] ∧ c.locks = []) ∧
  s.mem.wf = true ∧ ∀ a, s.mem.get a = 0

/-- R161 to R186: Decoding the word of a well-formed instruction gives that instruction, with every operand at every value. A word has one
meaning: what decodes is well-formed and encodes to the word it came from. -/
def Obligations.DecodingAndEncodingAgree : Prop :=
  (∀ i : Instr, i.wellFormed = true → decode (bytesOfWord (encode i)) = .ok (i, [])) ∧
  (∀ (w : Word) (i : Instr), decode (bytesOfWord w) = .ok (i, []) → i.wellFormed = true ∧ encode i = w)

/-- R161 to R181, R188, R210, R231, R232, R266, R280, R313: words of the spec's worked examples decode to the instructions they stand for;
an opcode without an entry, GP = 7 with GN = 1, a must-be-0 field and an odd register pair decode to none. -/
def Obligations.DecodeSampleWords : Prop :=
  let t : Tail := { gn := false, gp := 7, sba := 0, sbw := 0, gap := 0, yld := false }
  let at1 : Tail := { t with sba := 1 }
  let at2 : Tail := { t with sba := 2 }
  let reads := fun (w : Word) (i : Instr) => decode (bytesOfWord w) = .ok (i, [])
  reads 0x0000000000070000 (.nop t) ∧
  reads 0x0200000000170000 (.pbt t 0 1) ∧
  reads 0x0474000000010081 (.xfer { t with gp := 1, sbw := 2 } 3 5 false true) ∧
  reads 0x1243213060070040 (.imul { t with sbw := 1 } (.n 6) (.n 4 false) (.src (.const 3))) ∧
  reads 0x1CF8A0B000470008 (.icmp { t with gap := 1 } 4 false 1 (.n 2 false) (.const 0)) ∧
  reads 0x30000010A0070088 (.faddF32 { t with sbw := 2, gap := 1 } 0 false .push (.q 0) (.n 5 false)) ∧
  reads 0x33420058B07A60C8 (.ffmaF32 { t with gn := true, gp := 2, sba := 3, sbw := 3, gap := 1 } 0 (.n 4) (.q 1) (.n 5 true) (.g 7 false)) ∧
  reads 0x5841A08000670000 (.cvt t 0 6 0 0 (.n 3) (.n 2 false)) ∧
  reads 0x5B44205140070003 (.rngCb t 3 (.n 8) (.n 1 false) (.n 10 false)) ∧
  reads 0x6043141248272000 (.ldg at1 { sx := false, scope := 4, kind := 2, size := 2 } (.n 6) 1 (.n 2 false) 2) ∧
  reads 0x6242841808072004 (.ldp { at1 with yld := true } { sx := false, scope := 0, kind := 0, size := 2 } (.n 5) (.n 3 false) 0) ∧
  reads 0x80442110D1074003 (.atomAdd at2 { sp := false, w64 := false, kind := 3, treg := 2, scope := 4 } (.n 8) (.n 4 false) (.n 6 false)) ∧
  reads 0x9600C54000074000 (.fget at2 false false .discard (.g 21 false)) ∧
  reads 0xA950444168072000 (.mloop at1 { p := 20, abs := 1 } { x := 4, sg := 2, yd := 0, var := 1, pair := 3, xa := false, xb := true }) ∧
  reads 0xD10045B038A14000 (.icon { at2 with gp := 1 } (.g 22 false) (.const 1) (.const 10)) ∧
  reads 0xE068004000070100 (.cpyt { t with sbw := 4 } { p := 26, abs := 1 }) ∧
  reads 0xF285000001172000 (.rdsr at1 (.g 10 false) 0x011) ∧
  (decode (bytesOfWord 0x0974000000010081)).toOption = none ∧
  (decode (bytesOfWord 0x00000000000F0000)).toOption = none ∧
  (decode (bytesOfWord 0x0474000000110081)).toOption = none ∧
  (decode (bytesOfWord 0x5040A09060070000)).toOption = none

/-- R47, R64, R163, R195: NOP has no effect beyond its tail. A word that retires away from its slot's join: the slot's PC, the clock of
its issue, GAP and YLD, one more operation on the tag that SBA names, which an operation that ends one clock later takes back unless one
holds it; nothing else changes. Any word whose slot still waits on a tag of its SBW mask only gives up its selection; one whose SBA tag
counts 15 stalls with reason QUEUE. Nothing else changes. -/
def Obligations.TailsAndNop : Prop :=
  (∀ (t : Tail) s c, Issues s t c → exec (.nop t) s = retired t c (spent s) false) ∧
  (∀ (t : Tail) (c : Ctx) (s : State) (held : Bool) (pc : Addr) (x : Slot),
     s.slot? c.g c.t c.k = some x → x.join ≠ some pc → x.mask ≠ 0 →
     let s' := c.retire t s held pc
     let clk := s.clk c.core
     s'.slot? c.g c.t c.k = some { x with
       pc := pc, lastIssue := some clk, gap := t.gap.toNat, yld := t.yld, stall := none, wait := none, phase := {},
       tags := if t.sba = 0 then x.tags else x.tags.modify (t.sba.toNat - 1) (· + 1) } ∧
     s'.ops = s.ops ++ (if t.sba ≠ 0 ∧ held = false then
       [{ id := s.nextOp, gang := c.g, tk := c.t, slot := c.k, core := some c.core, at_ := clk + 1, tag := t.sba.toNat,
          tagSlots := [c.k], kind := .tagOnly }] else []) ∧
     elsewhere c s' = elsewhere c s) ∧
  (∀ (w : Word) (i : Instr) (s : State) (c : Ctx), decode (bytesOfWord w) = .ok (i, []) → s.ctx? (wordTail w) = some c →
     let t := wordTail w
     let free := ∀ k, k < 7 → t.sbw.getLsbD k = true → c.sl.tags.getD k 0 = 0
     (¬ free → exec i s = .next (spent s)) ∧
     (free → t.sba ≠ 0 → 15 ≤ c.sl.tags.getD (t.sba.toNat - 1) 0 →
       exec i s = .next ((spent s).modSlot c.g c.t c.k (fun z => { z with stall := some (.tagFull t.sba.toNat) }))))

/-- R27, R312, R409, R410, R413: What taking a trap saves and where the handler starts; what it leaves as the interrupted code left it. A
trap at supervisor level, or where HANDLER_PC is 0, aborts the fault domain under the trap's code; a trap of the slot that a running
handler suspends is discarded, and its instruction issues again. -/
def Obligations.TakingATrap : Prop :=
  (∀ (s : State) (g t k : Nat) (tr : Trap) (x : Gang) (y : Tussock) (z : Slot),
     s.gang? g = some x → s.tk? g t = some y → s.slot? g t k = some z → y.suspended k = false → y.sup = false →
     x.handler ≠ 0 → tr.fatal = false →
     let s' := s.takeTrap g t k tr
     ∃ (y' : Tussock) (z' : Slot) (f : HFrame), s'.tk? g t = some y' ∧ s'.slot? g t k = some z' ∧ y'.frame = some f ∧
       y'.sup = true ∧ y'.trapPc = z.pc.setWidth 64 ∧
       y'.trapCode.extractLsb' 0 8 = BitVec.ofNat 8 tr.code.num ∧ y'.trapCode.extractLsb' 8 1 = BitVec.ofNat 1 k ∧
       y'.trapCode.extractLsb' 9 7 = 0 ∧ y'.trapCode.extractLsb' 16 16 = tr.arg ∧ y'.trapCode.extractLsb' 32 32 = 0 ∧
       y'.trapMask.extractLsb' 0 32 = tr.lanes ∧ y'.trapMask.extractLsb' 32 32 = z.mask ∧
       y'.trapAddr = (if tr.code ∈ [.xlate, .first, .prot, .align, .rlock, .mchk] then BitVec.ofNat 64 tr.addr else 0) ∧
       z'.pc = x.handler ∧ z'.mask = tr.lanes ∧ z'.join = none ∧ z'.bregs = List.replicate 8 {} ∧
       z'.queue = z.queue ∧ z'.pushes = z.pushes ∧ z'.tags = z.tags ∧
       f.slot = k ∧ f.pc = z.pc ∧ f.mask = z.mask ∧ f.join = z.join ∧ f.queue = z.queue ∧ f.pushes = z.pushes ∧
       f.bregs.map (fun b => b.target) = z.bregs.map (fun b => b.target) ∧ (∀ b ∈ f.bregs, b.state ≠ .prep) ∧
       y'.g = y.g ∧ y'.n = y.n ∧ y'.m = y.m ∧ y'.p = y.p ∧ y'.flags = y.flags ∧ y'.fpctl = y.fpctl ∧ y'.t = y.t ∧ y'.s = y.s ∧
       y'.sscr = y.sscr ∧ y'.stack = y.stack ∧ s'.mem = s.mem ∧ s'.parts = s.parts ∧ s'.tasks = s.tasks) ∧
  (∀ (s : State) (g t k : Nat) (tr : Trap) (x : Gang) (y : Tussock) (z : Slot),
     s.gang? g = some x → s.tk? g t = some y → s.slot? g t k = some z →
     let s' := s.takeTrap g t k tr
     (y.suspended k = false → (y.sup = true ∨ x.handler = 0) →
       s' = (s.withdraw g t k).abortDomain x.part x.tenant x.domain tr.code.num (z.pc.setWidth 64) ∧
       s'.gang? g = none) ∧
     (y.suspended k = true → ∃ (y' : Tussock) (z' : Slot), s'.tk? g t = some y' ∧ s'.slot? g t k = some z' ∧ y'.sup = y.sup ∧ y'.frame = y.frame ∧
       y'.trapPc = y.trapPc ∧ y'.trapCode = y.trapCode ∧ y'.trapMask = y.trapMask ∧ y'.trapAddr = y.trapAddr ∧
       z'.pc = z.pc ∧ z'.mask = z.mask ∧ z'.queue = z.queue ∧ z'.pushes = z.pushes ∧ z'.tags = z.tags ∧ s'.mem = s.mem))

/-- R177, R187, R189, R199, R200, R201: The integer and logic words compute their table's values, in every active lane or once. Shifts by
B[7:0], rotation, bit counts, bit order and bit fields. Constants, copies, selection and address arithmetic. -/
def Obligations.IntegerWords : Prop :=
  (∀ (t : Tail) (d : Dst) (a b c : Src) (bi : SrcI) (u : Bool),
     Integer2 (.iadd t d a bi) t d a bi true (fun _ x y => x + y) ∧
     Integer2 (.isub t d a bi) t d a bi true (fun _ x y => (x : Int) - y) ∧
     Integer2 (.imul t d a bi) t d a bi true (fun _ x y => x * y) ∧
     Integer2 (.imulh t u d a bi) t d a bi true (fun W x y => if u then (x : Int) * y / 2 ^ W else signed W x * signed W y / 2 ^ W) ∧
     Integer (.imad t d a b c) t d [a, b, c] (fun _ => []) (fun _ xs => kth xs 0 * kth xs 1 + kth xs 2) ∧
     Integer2 (.imin t u d a bi) t d a bi true (fun W x y => if u then min x y else min (signed W x) (signed W y)) ∧
     Integer2 (.imax t u d a bi) t d a bi true (fun W x y => if u then max x y else max (signed W x) (signed W y)) ∧
     Integer (.iabs t d a) t d [a] (fun _ => []) (fun W xs => (signed W (kth xs 0)).natAbs) ∧
     Integer2 (.and t d a bi) t d a bi false (fun _ x y => (x &&& y : Nat)) ∧
     Integer2 (.or t d a bi) t d a bi false (fun _ x y => (x ||| y : Nat)) ∧
     Integer2 (.xor t d a bi) t d a bi false (fun _ x y => (x ^^^ y : Nat)) ∧
     Integer (.not t d a) t d [a] (fun _ => []) (fun W xs => 2 ^ W - 1 - (kth xs 0 : Int))) ∧
  (∀ (t : Tail) (d : Dst) (a b c : Src) (bi : SrcI) (u : Bool),
     Integer2 (.shl t d a bi) t d a bi false (fun W x n => if W ≤ n % 256 then 0 else x * 2 ^ (n % 256)) ∧
     Integer2 (.shr t d a bi) t d a bi false (fun _ x n => x / 2 ^ (n % 256)) ∧
     Integer2 (.sar t d a bi) t d a bi false (fun W x n => signed W x / 2 ^ (n % 256)) ∧
     Integer2 (.rot t d a bi) t d a bi false (fun W x n => x * 2 ^ (n % 256 % W) + x / 2 ^ (W - n % 256 % W)) ∧
     Integer (.popc t d a) t d [a] (fun _ => []) (fun W xs => bitsThat W (kth xs 0).testBit) ∧
     Integer (.clz t d a) t d [a] (fun _ => []) (fun W xs => leadingZeros W (kth xs 0)) ∧
     Integer (.brev t d a) t d [a] (fun _ => []) (fun W xs => reversed W (kth xs 0)) ∧
     Integer (.bfx t u d a c) t d [a, c] (fun _ => []) (fun W xs => field u W (kth xs 0) (kth xs 1)) ∧
     Integer (.bfi t d a b c) t d [a, b, c] (fun _ => []) (fun W xs => inserted W (kth xs 0) (kth xs 1) (kth xs 2))) ∧
  (∀ (t : Tail) (d : Dst) (a b c : Src) (i18 : BitVec 18) (i32 : BitVec 32),
     (∀ s k, Issues s t k → Room k (spent s) d →
       let r := sent k (spent s) 2 d (width d / 32) (splat (BitVec.ofInt 64 (i18.toInt % (2 ^ width d : Nat)))) noFlags none
       exec (.movi t d i18) s = retired t k r.1 r.2) ∧
     (∀ s k, Issues s t k → Room k (spent s) d →
       let r := sent k (spent s) 2 d 1 (splat (BitVec.ofNat 64 i32.toNat)) noFlags none
       exec (.movw t d i32) s = retired t k r.1 r.2) ∧
     Integer (.mov t d a) t d [a] (fun _ => []) (fun _ xs => kth xs 0) ∧
     Integer (.sel t d a b c) t d [a, b, c] (fun _ => []) (fun _ xs => if kth xs 2 ≠ 0 then kth xs 0 else kth xs 1) ∧
     Integer (.lea t d a (.src b c)) t d [a, b, c] (fun _ => []) (fun _ xs => kth xs 0 + kth xs 1 * 2 ^ (kth xs 2 % 8)) ∧
     Integer (.lea t d a (.imm i18)) t d [a] (fun _ => [])
       (fun _ xs => (kth xs 0 : Int) + (i18.toInt / 8) * 2 ^ (i18.toNat % 8)))

/-- R202, R204, R205, R206, R207, R208: ICMP and PLOG write a predicate in each active lane. PMOV.r reads the lane's eight predicates,
PMOV.w sets p0 to p6 from A[6:0] two clocks after issue. VOTE reduces a predicate over the active lanes, and writes one result to every
active lane. SHFL takes each lane's value from a source lane of its segment, BCAST that of one lane. -/
def Obligations.PredicatesAndLanes : Prop :=
  (∀ (t : Tail) (cond p pa pb : BitVec 3) (a b : Src) (table : BitVec 4) (na nb : Bool),
     Predicate (.icmp t cond false p a b) t p [(a, .int, 1), (b, .int, 1)]
       (fun _ v l => compares 32 cond (num v 0 l 32) (num v 1 l 32)) quiet ∧
     Predicate (.icmp t cond true p a b) t p [(a, .int, 2), (b, .int, 2)]
       (fun _ v l => compares 64 cond (num v 0 l 64) (num v 1 l 64)) quiet ∧
     Predicate (.plog t table p na pa nb pb) t p []
       (fun c _ l => table.getLsbD ((if truth c na pa l then 2 else 0) + (if truth c nb pb l then 1 else 0))) quiet) ∧
  (∀ (t : Tail) (d : Dst) (a : Src),
     Lanewise (.pmovR t d) t 2 d 1 [] (fun c _ l =>
       BitVec.ofNat 64 ((List.range 8).foldl (fun n k => n + if truth c false (BitVec.ofNat 3 k) l then 2 ^ k else 0) 0)) quiet ∧
     (∀ s c rd, Issues s t c → c.read (spent s) [(a, .int, 1)] = .ok rd →
       exec (.pmovW t a) s =
         if c.act = 0 then retired t c rd.s false
         else retired t c (onItsWay c rd.s 2
           { mask := c.act, inHandler := c.tk.sup,
             preds := (List.range 7).map (fun k => (k, maskOf (fun l => (num rd.v 0 l 32).testBit k))) }) true)) ∧
  (∀ (t : Tail) (d : Dst) (p pa : BitVec 3) (na : Bool),
     let P := fun (i : Instr) (f : Ctx → Bool) => Lanewise i t 6 (.p p) 1 [] (fun c _ _ => if f c then 1 else 0) quiet
     let R := fun (i : Instr) (f : Ctx → Nat) => Lanewise i t 6 d 1 [] (fun c _ _ => BitVec.ofNat 64 (f c)) quiet
     P (.voteAnd t p na pa) (fun c => (List.range 32).all (fun l => !c.act.getLsbD l || (chosen c na pa).contains l)) ∧
     P (.voteOr t p na pa) (fun c => !(chosen c na pa).isEmpty) ∧
     P (.votePar t p na pa) (fun c => (chosen c na pa).length % 2 == 1) ∧
     R (.voteMask t d na pa) (fun c => ((chosen c na pa).map (fun l => 2 ^ l)).sum) ∧
     R (.voteCnt t d na pa) (fun c => (chosen c na pa).length) ∧
     R (.voteLead t d na pa) (fun c => (chosen c na pa).headD 32)) ∧
  (∀ (t : Tail) (z : Bool) (d : Dst) (a : Src) (v : ShflAmt) (k : BitVec 3) (b : USrc),
     Shuffles (.shflSel t z d a v k) t 0 z d a v k ∧ Shuffles (.shflRot t z d a v k) t 1 z d a v k ∧
     Shuffles (.shflRev t z d a v k) t 2 z d a v k ∧ Shuffles (.shflXor t z d a v k) t 3 z d a v k ∧
     Lanewise (.bcast t d a b) t 6 d 1 [(a, .int, 1)]
       (fun c vs _ => (vs.getD 0 []).getD ((c.tk.uval b).toNat % 32) 0) quiet)

/-- R209, R211 to R213, R214, R215, R216: The FP32 and packed arithmetic words, element by element, 4 clocks after issue. The function
words, element by element, 12 clocks after issue. The FP64 words follow R212 and R213 on 64-bit values, without FTZ, 8 clocks after issue.
-/
def Obligations.FloatWords : Prop :=
  (FloatFamily eF32 .faddF32 .fsubF32 .fmulF32 .ffmaF32 .fminF32 .fmaxF32 .fclassF32 ∧
   FloatFamily eF16 .faddF16X2 .fsubF16X2 .fmulF16X2 .ffmaF16X2 .fminF16X2 .fmaxF16X2 .fclassF16X2 ∧
   FloatFamily eBF16 .faddBF16X2 .fsubBF16X2 .fmulBF16X2 .ffmaBF16X2 .fminBF16X2 .fmaxBF16X2 .fclassBF16X2) ∧
  (FunctionFamily eF32 [.frcpF32, .frsqF32, .fsqrtF32, .fexp2F32, .flog2F32, .fsinF32, .fcosF32] ∧
   FunctionFamily eF16 [.frcpF16X2, .frsqF16X2, .fsqrtF16X2, .fexp2F16X2, .flog2F16X2, .fsinF16X2, .fcosF16X2] ∧
   FunctionFamily eBF16 [.frcpBF16X2, .frsqBF16X2, .fsqrtBF16X2, .fexp2BF16X2, .flog2BF16X2, .fsinBF16X2, .fcosBF16X2]) ∧
  (∀ (t : Tail) (rm : BitVec 2) (dyn : Bool) (d : Dst) (a b c : Src),
     let D := fun (i : Instr) (xs : List Src) (f : Ctx → List Nat → Nat × BitVec 5) =>
       Lanewise i t 8 d 2 (xs.map (fun x => (x, .fp f64, 2)))
         (fun k v l => BitVec.ofNat 64 (f k (v.map (fun x => (x.getD l 0).toNat))).1)
         (fun k v l => (f k (v.map (fun x => (x.getD l 0).toNat))).2)
     D (.dadd t rm dyn d a b) [a, b] (fun k xs => arith2 f64 false (mode k rm dyn) 0 (kth xs 0) (kth xs 1)) ∧
     D (.dmul t rm dyn d a b) [a, b] (fun k xs => arith2 f64 false (mode k rm dyn) 2 (kth xs 0) (kth xs 1)) ∧
     D (.dfma t rm d a b c) [a, b, c] (fun _ xs => arith3 f64 false rm (kth xs 0) (kth xs 1) (kth xs 2)) ∧
     D (.dmin t d a b) [a, b] (fun _ xs => fMinMax f64 false false (kth xs 0) (kth xs 1)) ∧
     D (.dmax t d a b) [a, b] (fun _ xs => fMinMax f64 false true (kth xs 0) (kth xs 1)))

/-- R75, R76, R212: on finite operands FADD, FSUB, FMUL and FFMA deliver Round of the exact real result, which is exact sums, differences
and products rounded once; an exact zero takes the sign of R76. -/
def Obligations.FloatResultsAreRounded : Prop :=
  ∀ f ∈ [f64, f32, f16, bf16], ∀ (rm : BitVec 2) (z : Bool) (x y w : Nat),
    x < 2 ^ f.width → y < 2 ^ f.width → w < 2 ^ f.width →
    finite f x = true → finite f y = true → finite f w = true →
    let a := flushed f z x
    let b := flushed f z y
    let c := flushed f z w
    let sum := fun (s s' : Bool) (zeros : Prop) [Decidable zeros] => if zeros ∧ s = s' then s else rm == 3
    IsRound f rm z (real f a + real f b) (sum (negative f a) (negative f b) (real f a = 0 ∧ real f b = 0)) (arith2 f z rm 0 x y) ∧
    IsRound f rm z (real f a - real f b) (sum (negative f a) (!negative f b) (real f a = 0 ∧ real f b = 0)) (arith2 f z rm 1 x y) ∧
    IsRound f rm z (real f a * real f b) (negative f a != negative f b) (arith2 f z rm 2 x y) ∧
    IsRound f rm z (real f a * real f b + real f c)
      (sum (negative f a != negative f b) (negative f c) (real f a * real f b = 0 ∧ real f c = 0)) (arith3 f z rm x y w)

/-- R73, R203, R212, R213, R214, R215: NaNs and invalid operations give the canonical NaN; NV is raised by a signalling NaN or an invalid
operation, and by 0 × ∞ in FFMA even when c is a NaN. FMIN and FMAX return one of their operands unchanged, or the canonical NaN; a number
wins over a NaN; −0 stands below +0; only a signalling NaN raises NV. FCLASS sets exactly the bit of the code's class. FCMP compares as
its type and condition say, −0 equal to +0, after FlushIn; NV by the condition. The table of special operands of the function words, and
FRCP as Round of the exact reciprocal. -/
def Obligations.FloatSpecialOperands : Prop :=
  (∀ f ∈ [f64, f32, f16, bf16], ∀ (rm : BitVec 2) (z : Bool) (x y w : Nat),
     x < 2 ^ f.width → y < 2 ^ f.width → w < 2 ^ f.width →
     let nv := fun (l : List Nat) => if l.any (isSNaN f) then flNV else 0
     let inf := fun (v : Nat) => magnitude f v = f.infBits
     let zero := fun (v : Nat) => magnitude f (flushed f z v) = 0
     (isNaN f x = true ∨ isNaN f y = true → ∀ op, op < 3 → arith2 f z rm op x y = (f.canon, nv [x, y])) ∧
     (inf x → inf y → negative f x ≠ negative f y → arith2 f z rm 0 x y = (f.canon, flNV)) ∧
     (inf x → inf y → negative f x = negative f y → arith2 f z rm 1 x y = (f.canon, flNV)) ∧
     (zero x → inf y → arith2 f z rm 2 x y = (f.canon, flNV) ∧ arith3 f z rm x y w = (f.canon, flNV)) ∧
     (inf x → zero y → arith2 f z rm 2 x y = (f.canon, flNV) ∧ arith3 f z rm x y w = (f.canon, flNV)) ∧
     (isNaN f x = true ∨ isNaN f y = true ∨ isNaN f w = true → ¬ (zero x ∧ inf y) → ¬ (inf x ∧ zero y) →
       arith3 f z rm x y w = (f.canon, nv [x, y, w]))) ∧
  (∀ f ∈ [f64, f32, f16, bf16], ∀ (z mx : Bool) (x y : Nat), x < 2 ^ f.width → y < 2 ^ f.width →
     let a := flushed f z x
     let b := flushed f z y
     fMinMax f z mx x y =
       (if isNaN f x && isNaN f y then f.canon else if isNaN f x then b else if isNaN f y then a
        else if (if mx then rank f b ≤ rank f a else rank f a ≤ rank f b) then a else b,
        if isSNaN f x || isSNaN f y then flNV else 0) ∧
     fClass f x = 2 ^ classBit f x) ∧
  ((∀ (t : Tail) (cond p : BitVec 3) (ty : BitVec 2) (e : Bool) (a b : Src),
     let f := [f32, f64, f16, bf16].getD ty.toNat f32
     let word := if ty = 1 then 2 else 1
     let ck : CK := if ty.toNat < 2 then .fp f else .packed f
     let pick := fun (v : List (Lanes 64)) (k l : Nat) =>
       let x := ((v.getD k []).getD l 0).toNat
       if ty = 1 then x else if ty = 0 then x % 2 ^ 32 else x / 2 ^ (if e then 16 else 0) % 2 ^ 16
     Predicate (.fcmp t cond ty e p a b) t p [(a, ck, word), (b, ck, word)]
       (fun c v l => (fCompare f (ftz c) cond.toNat (pick v 0 l) (pick v 1 l)).1)
       (fun c v l => (fCompare f (ftz c) cond.toNat (pick v 0 l) (pick v 1 l)).2)) ∧
   (∀ f ∈ [f64, f32, f16, bf16], ∀ (z : Bool) (cond : BitVec 3) (x y : Nat), x < 2 ^ f.width → y < 2 ^ f.width →
     let u := isNaN f x || isNaN f y
     let a := order f (flushed f z x)
     let b := order f (flushed f z y)
     let is := fun (n : Nat) => cond.toNat = n
     fCompare f z cond.toNat x y =
       (if u then decide (is 1 ∨ is 6)
        else decide ((is 0 ∧ a = b) ∨ (is 1 ∧ a ≠ b) ∨ (is 2 ∧ a < b) ∨ (is 3 ∧ a ≤ b) ∨ (is 4 ∧ b < a) ∨ (is 5 ∧ b ≤ a) ∨ is 7),
        if (if 2 ≤ cond.toNat ∧ cond.toNat ≤ 5 then u else isSNaN f x || isSNaN f y) then flNV else 0))) ∧
  (∀ f ∈ [f32, f16, bf16], ∀ (rm : BitVec 2) (z : Bool) (x : Nat), x < 2 ^ f.width →
     let a := flushed f z x
     let fn := fFunc f rm z
     let bad := (f.canon, flNV)
     let one := f.bias * 2 ^ f.fb
     let infinite := fun (s : Bool) => f.signed s f.infBits
     let neg := negative f x
     (isNaN f x = true → ∀ n, n < 7 → fn n x = (f.canon, if isSNaN f x then flNV else 0)) ∧
     (magnitude f a = 0 → fn 0 x = (infinite neg, flDZ) ∧ fn 1 x = (infinite neg, flDZ) ∧ fn 2 x = (a, 0) ∧
       fn 4 x = (infinite true, flDZ) ∧ fn 5 x = (a, 0) ∧ fn 6 x = (one, 0)) ∧
     (x = infinite false → fn 0 x = (0, 0) ∧ fn 1 x = (0, 0) ∧ fn 2 x = (x, 0) ∧ fn 3 x = (x, 0) ∧ fn 4 x = (x, 0) ∧
       fn 5 x = bad ∧ fn 6 x = bad) ∧
     (x = infinite true → fn 0 x = (f.signBit, 0) ∧ fn 1 x = bad ∧ fn 2 x = bad ∧ fn 3 x = (0, 0) ∧ fn 4 x = bad ∧
       fn 5 x = bad ∧ fn 6 x = bad) ∧
     (finite f x = true → magnitude f a ≠ 0 → neg = true → fn 1 x = bad ∧ fn 2 x = bad ∧ fn 4 x = bad) ∧
     (x = one → fn 4 x = (0, 0)) ∧
     (finite f x = true → magnitude f a ≠ 0 → IsRound f rm z (1 / real f a) neg (fn 0 x)))

/-- R80, R81, R83, R217, R218, R219: CVT reads its source element, converts it, and delivers 12 clocks after issue with the flags of both.
What CVT reads as a real number, and what it makes of a finite real number for each destination type. -/
def Obligations.Conversion : Prop :=
  (∀ (t : Tail) (rm : BitVec 2) (dst src e : BitVec 3) (d : Dst) (a : Src),
     let conv := fun (c : Ctx) (v : List (Lanes 64)) (l : Nat) =>
       let x := cvtSource (ftz c) src.toNat e.toNat ((v.getD 0 []).getD l 0)
       let r := cvtResult (ftz c) rm dst.toNat x.1
       (BitVec.ofNat 64 r.1, x.2 ||| r.2)
     Lanewise (.cvt t rm dst src e d a) t 12 d (if dst = 3 then 2 else 1)
       [(a, cvtCk src.toNat, if src = 3 then 2 else 1)] (fun c v l => (conv c v l).1) (fun c v l => (conv c v l).2)) ∧
  ((∀ (z : Bool) (v : BitVec 64) (e : Nat),
     let at_ := fun (w k : Nat) => v.toNat / 2 ^ (w * k) % 2 ^ w
     (∀ ty f w, (ty = 0 ∧ f = f32 ∧ w = 32 ∧ e = 0) ∨ (ty = 1 ∧ f = f16 ∧ w = 16 ∧ e < 2) ∨ (ty = 2 ∧ f = bf16 ∧ w = 16 ∧ e < 2) →
       cvtSource z ty e v = (decF f (flushed f z (at_ w e)), 0)) ∧
     cvtSource z 3 0 v = (decF f64 v.toNat, 0) ∧
     valueOf (cvtSource z 4 0 v).1 = signed 32 (at_ 32 0) ∧
     valueOf (cvtSource z 5 0 v).1 = at_ 32 0 ∧
     (∀ n : Int, -52 ≤ n → n ≤ 52 → e < 4 → at_ 8 e = rn8 n →
       valueOf (cvtSource z 6 e v).1 = n ∧ (cvtSource z 6 e v).2 = 0) ∧
     (e < 4 → (∀ n : Int, -52 ≤ n → n ≤ 52 → at_ 8 e ≠ rn8 n) → cvtSource z 6 e v = (.zero false, flNV)) ∧
     (e < 8 → valueOf (cvtSource z 7 e v).1 =
       (if at_ 4 e % 8 = 0 then 0 else (if 8 ≤ at_ 4 e then -1 else 1) * 2 ^ ((at_ 4 e % 8 : Nat) - 3 : Int)))) ∧
   (∀ (z : Bool) (rm : BitVec 2) (x : FVal), isReal x →
     (∀ ty f, (ty = 0 ∧ f = f32) ∨ (ty = 1 ∧ f = f16) ∨ (ty = 2 ∧ f = bf16) ∨ (ty = 3 ∧ f = f64) →
       IsRound f rm (z && ty != 3) (valueOf x) x.sign (cvtResult z rm ty x)) ∧
     (let r := intConverted rm (-(2 ^ 31)) (2 ^ 31 - 1) (valueOf x)
      cvtResult z rm 4 x = ((r.1 % 2 ^ 32).toNat, r.2)) ∧
     (let r := intConverted rm 0 (2 ^ 32 - 1) (valueOf x)
      cvtResult z rm 5 x = (r.1.toNat, r.2)) ∧
     (let r := intConverted 0 (-52) 52 (valueOf x)
      cvtResult z rm 6 x = (rn8 r.1, r.2)) ∧
     cvtResult z rm 7 x = l4 (valueOf x)) ∧
   (∀ (z : Bool) (rm : BitVec 2) (sig s : Bool),
     (∀ ty, 4 ≤ ty → ty ≤ 7 → cvtResult z rm ty (.nan sig) = (0, flNV)) ∧
     cvtResult z rm 4 (.inf s) = (if s then 2 ^ 31 else 2 ^ 31 - 1, flNV) ∧
     cvtResult z rm 5 (.inf s) = (if s then 0 else 2 ^ 32 - 1, flNV) ∧
     cvtResult z rm 6 (.inf s) = (rn8 (if s then -52 else 52), flNV) ∧
     cvtResult z rm 7 (.inf s) = (if s then 0xF else 0x7, flNV)))

/-- R220, R221, R222, R223, R224, R225: PACK4 and UNPK4 move the fields of their tables, 2 clocks after issue, without a flag. The rounds
of RNG.CB on a key and a counter. VTOPK ranks the active lanes of each group by magnitude and selects the first k. FLAGS.RD samples the
lane's flags at issue; FLAGS.CLR clears the masked flags of the active lanes when it retires, 2 clocks after issue. -/
def Obligations.PackingRandomTopKAndFlags : Prop :=
  (∀ (t : Tail) (d : Dst) (a b : Src) (hi : Bool),
     let P := fun (i : Instr) (f : Nat → Nat → Nat) => Lanewise i t 2 d 1 [(a, .int, 1), (b, .int, 1)]
       (fun _ v l => BitVec.ofNat 64 (f (num v 0 l 32) (num v 1 l 32))) quiet
     let U := fun (i : Instr) (f : Nat → Nat) => Lanewise i t 2 d 1 [(a, .int, 1)]
       (fun _ v l => BitVec.ofNat 64 (f (num v 0 l 32))) quiet
     let bits := fun (x lo len : Nat) => x / 2 ^ lo % 2 ^ len
     let h := if hi then 1 else 0
     let sum := fun (n : Nat) (f : Nat → Nat) => ((List.range n).map f).sum
     P (.pack4N4 t d a b) (fun x y => sum 4 (fun i => bits x (8 * i) 4 * 2 ^ (4 * i) + bits y (8 * i) 4 * 2 ^ (4 * (4 + i)))) ∧
     P (.pack4B8 t d a b) (fun x y => bits x 0 8 + bits x 16 8 * 2 ^ 8 + bits y 0 8 * 2 ^ 16 + bits y 16 8 * 2 ^ 24) ∧
     P (.pack4H16 t d a b) (fun x y => bits x 0 16 + bits y 0 16 * 2 ^ 16) ∧
     U (.unpk4N4 t hi d a) (fun x => sum 4 (fun i => bits x (4 * (4 * h + i)) 4 * 2 ^ (8 * i))) ∧
     U (.unpk4B8 t hi d a) (fun x => bits x (8 * (2 * h)) 8 + bits x (8 * (2 * h + 1)) 8 * 2 ^ 16) ∧
     U (.unpk4H16 t hi d a) (fun x => bits x (16 * h) 16)) ∧
  (∀ (t : Tail) (rounds : BitVec 2) (d : Dst) (a b : Src),
     let round := fun (s : Nat × Nat × Nat) =>
       let p := s.2.1 * 0xD2511F53
       ((s.1 + 0x9E3779B9) % 2 ^ 32, (p / 2 ^ 32 ^^^ s.2.2) ^^^ s.1, p % 2 ^ 32)
     Lanewise (.rngCb t rounds d a b) t 12 d 1 [(a, .int, 1), (b, .int, 2)]
       (fun _ v l =>
         let s := round^[[10, 6, 4, 2].getD rounds.toNat 0] (num v 0 l 32, num v 1 l 64 % 2 ^ 32, num v 1 l 64 / 2 ^ 32)
         BitVec.ofNat 64 (s.2.1 ^^^ s.2.2)) quiet) ∧
  (∀ (t : Tail) (km1 : BitVec 3) (w : BitVec 2) (s32 rank : Bool) (d : Dst) (a : Src),
     Lanewise (.vtopk t km1 w s32 rank d a) t 6 d 1 [(a, .int, 1)] (fun c v l =>
       let x := fun (j : Nat) => num v 0 j 32
       let mag : Nat → Int := fun j => if s32 then (signed 32 (x j)).natAbs else if isNaN f32 (x j) then -1 else magnitude f32 (x j)
       let size := 2 ^ (3 + w.toNat)
       let above := (List.range 32).filter (fun j => c.act.getLsbD j && j / size == l / size &&
         (decide (mag l < mag j) || (decide (mag j = mag l) && decide (j < l))))
       let r := above.length
       BitVec.ofNat 64
         (if rank then (if r < km1.toNat + 1 then r else 0xFFFFFFFF)
          else if r < km1.toNat + 1 then (if !s32 && isNaN f32 (x l) then 0x7FC00000 else x l) else 0)) quiet) ∧
  ((∀ (t : Tail) (d : Dst), Lanewise (.flagsRd t d) t 2 d 1 []
     (fun c _ l => BitVec.ofNat 64 (c.tk.flags.getD l 0).toNat) quiet) ∧
   (∀ (t : Tail) (mask : BitVec 5) s c, Issues s t c →
     exec (.flagsClr t mask) s =
       if c.act = 0 then retired t c (spent s) false
       else retired t c (onItsWay c (spent s) 2 { mask := c.act, clear := mask, flags := noFlags, inHandler := c.tk.sup }) true))

/-- R86, R87, R88: a residue cell that starts at 0 decodes to the exact sum of what was added to it while that sum stays in the range of
R87, and a sum that leaves the range by fewer than 251 moduli sets WRAP. -/
def Obligations.ResidueCellsAreExact : Prop :=
  ∀ vs : List Int,
    let cell := vs.foldl residueAdd 0
    (-8388480 ≤ total vs → total vs ≤ 8388479 → crtDecode cell = (total vs, false)) ∧
    (∀ k : Int, k ≠ 0 → -251 < k → k < 251 → -8388480 ≤ total vs - k * 16776960 → total vs - k * 16776960 ≤ 8388479 →
      crtDecode cell = (total vs - k * 16776960, true))

/-- R62, R190, R191, R193: PBT, PBTR, BTINV and BTMOV on the issuing slot's branch-target registers, and the traps of PBTR. Preparing a
register loads its target, makes it PREP with an empty buffer, and leaves every other part of the slot, memory contents of the gang and
registers alone. -/
def Obligations.BranchTargetRegisters : Prop :=
  (∀ (t : Tail) (n d r : BitVec 3) (off : BitVec 30) (gk : BitVec 6) (mask : BitVec 8) s c, Issues s t c →
     let go := fun (s' : State) => retired t c (if c.act = 0 then spent s else s') false
     let v := c.tk.g.getD gk.toNat 0
     exec (.pbt t n off) s = go (c.prepare (spent s) n (BitVec.ofInt 48 (c.sl.pc.toNat + 8 * off.toInt))) ∧
     exec (.pbtr t n gk) s = (if c.act = 0 then retired t c (spent s) false
       else if 2 ^ 48 ≤ v.toNat then trapped c s .xlate c.act v.toNat 0
       else if v.toNat % 8 ≠ 0 then trapped c s .align c.act v.toNat 0
       else retired t c (c.prepare (spent s) n (BitVec.ofNat 48 v.toNat)) false) ∧
     exec (.btinv t mask) s = go (((spent s).dropLines c.g c.t c.k (fun k => mask.getLsbD k)).modSlot c.g c.t c.k (fun x =>
       { x with bregs := x.bregs.mapIdx (fun k b => if mask.getLsbD k then { b with state := .unprep, lines := [] } else b) })) ∧
     exec (.btmov t d r) s = (if d = r then retired t c (spent s) false else
       go (((spent s).dropLines c.g c.t c.k (fun k => k == d.toNat)).modSlot c.g c.t c.k (fun x =>
         let b := c.sl.bregs.getD r.toNat {}
         { x with bregs := x.bregs.set d.toNat { target := b.target, state := (if b.state = .prep then .stale else b.state) } })))) ∧
  (∀ (c : Ctx) (s : State) (n : BitVec 3) (target : Addr) (x : Slot), s.slot? c.g c.t c.k = some x →
     let s' := c.prepare s n target
     s'.slot? c.g c.t c.k = some { x with bregs := x.bregs.set n.toNat { target := target, state := .prep, lines := [] } } ∧
     (s'.modSlot c.g c.t c.k (fun _ => {})).gangs = (s.modSlot c.g c.t c.k (fun _ => {})).gangs)

/-- R37, R192: XFER: its traps in their order, the transfer of the whole slot, a guard that is true in no lane. The split of an XFER.d,
with the other slot free and with it taken: the records pushed, newest first, and the slots that go on. -/
def Obligations.TransferOfControl : Prop :=
  (∀ (t : Tail) (n j : BitVec 3) (link d : Bool) s c, Issues s t c →
     let b := c.sl.bregs.getD n.toNat {}
     let jb := c.sl.bregs.getD j.toNat {}
     let split := c.act ≠ 0 ∧ c.act ≠ c.sl.mask
     let i := Instr.xfer t n j link d
     let ret : Lanes 64 := splat ((c.sl.pc + 8).setWidth 64)
     let back : Result := { greg := some (62, false), mask := c.act, vals := ret, inHandler := c.tk.sup }
     let lands : Op := { opOf c s (some c.core) (c.clk + 2) none (.result back) with tag := 0, tagSlots := [] }
     (b.state = .unprep → exec i s = trapped c s .xferunp c.act 0 0) ∧
     (b.state ≠ .unprep → c.act = c.sl.mask → ∃ s', exec i s = .next (c.retire t s' false b.target) ∧
       s'.mem = s.mem ∧
       (s'.slot? c.g c.t c.k).map (fun x => (x.mask, x.join, (x.bregs.getD n.toNat {}).state)) =
         some (c.sl.mask, c.sl.join, if n.toNat < c.sl.bregs.length then .prep else .unprep) ∧
       s'.ops = s.ops ++ (if link then [lands] else [])) ∧
     (b.state ≠ .unprep → c.act = 0 → c.sl.mask ≠ 0 → exec i s = retired t c (spent s) false) ∧
     (b.state ≠ .unprep → split → d = false → exec i s = trapped c s .xferdiv c.act 0 0) ∧
     (b.state ≠ .unprep → split → d = true → jb.state = .unprep → exec i s = trapped c s .xferunp c.act 0 0) ∧
     (b.state ≠ .unprep → split → d = true → jb.state ≠ .unprep →
       64 < c.tk.stack.length + (if (c.tk.slots.getD (1 - c.k) {}).valid then 2 else 1) →
       exec i s = trapped c s .divstk c.act 0 0)) ∧
  (∀ (t : Tail) (n j : BitVec 3) (link : Bool) s c, Issues s t c → c.tk.slots.length = 2 →
     let b := c.sl.bregs.getD n.toNat {}
     let jb := c.sl.bregs.getD j.toNat {}
     let o := c.tk.slots.getD (1 - c.k) {}
     let reconv : StackRec := { pc := jb.target, mask := c.sl.mask, join := c.sl.join, owner := c.k, isPath := false }
     let path : StackRec := { pc := c.sl.pc + 8, mask := c.sl.mask &&& ~~~c.act, join := some jb.target, owner := c.k, isPath := true }
     let view := fun (x : Slot) => (x.valid, x.mask, x.join, x.pushes)
     b.state ≠ .unprep → jb.state ≠ .unprep → c.act ≠ 0 → c.act ≠ c.sl.mask → b.target ≠ jb.target → o.lone = false →
     c.tk.stack.length + (if o.valid then 2 else 1) ≤ 64 →
     (o.valid = false → ∃ s' y, exec (.xfer t n j link true) s = retired t c s' false ∧ s'.mem = s.mem ∧ s'.tk? c.g c.t = some y ∧
       y.stack = reconv :: c.tk.stack ∧
       view (y.slots.getD c.k {}) = (true, c.sl.mask &&& ~~~c.act, some jb.target, c.sl.pushes) ∧
       view (y.slots.getD (1 - c.k) {}) = (true, c.act, some jb.target, c.sl.pushes) ∧
       (y.slots.getD (1 - c.k) {}).pc = b.target ∧ (y.slots.getD (1 - c.k) {}).queue = c.sl.queue ∧
       (y.slots.getD (1 - c.k) {}).tags = c.sl.tags) ∧
     (o.valid = true → ∃ s' y, exec (.xfer t n j link true) s = .next (c.retire t s' false b.target) ∧ s'.mem = s.mem ∧
       s'.tk? c.g c.t = some y ∧ y.stack = path :: reconv :: c.tk.stack ∧
       view (y.slots.getD c.k {}) = (true, c.act, some jb.target, c.sl.pushes)))

/-- R42, R57, R162, R194, R196, R197, R198: EXIT takes the active lanes out of the slot's mask; YIELD obeys its tail's hints and goes, in
a long wait, to its continuation, before which a fetch bubble comes. STAGE and SPILL: the traps of #STAGE, the homes, and the transfer
that completes 8 + ⌈c ÷ 4⌉ clocks after issue. ICINV does nothing without an active lane; it waits for the slot's earlier stores; then it
discards fetched code of the range on its core and makes STALE the prepared registers whose target lies there. -/
def Obligations.ExitStagingAndCode : Prop :=
  (∀ (t : Tail) (off : BitVec 18) (gk : BitVec 6) s c, Issues s t c →
     let next := BitVec.ofInt 48 (c.sl.pc.toNat + 8 * off.toInt)
     let v := (c.tk.g.getD gk.toNat 0).toNat
     let waits := fun (w : WaitCond) => Host.Outcome.next ((spent s).modSlot c.g c.t c.k (fun x =>
       { x with fline := none, fetchOp := none, fetchAt := c.clk + 2, lastIssue := some c.clk, gap := t.gap.toNat, yld := t.yld,
                stall := none, wait := some { cond := w, start := s.now, d := .none, mask := c.act, next := next, tl := t } }))
     exec (.exit t) s = retired t c (if c.act = 0 then spent s else (spent s).modTk c.g c.t (fun y => { y with
       dead := y.dead ||| c.act
       frame := y.frame.map (fun f => { f with ended := f.ended ||| c.act })
       slots := y.slots.modify c.k (fun x => { x with mask := x.mask &&& ~~~c.act }) })) false ∧
     (c.act = 0 → exec (.yield t .none off) s = retired t c (spent s) false ∧
       exec (.yield t (.barrier gk) off) s = retired t c (spent s) false) ∧
     (c.act ≠ 0 → c.act ≠ c.sl.mask → exec (.yield t .none off) s = trapped c s .xferdiv c.act 0 0 ∧
       exec (.yield t (.barrier gk) off) s = trapped c s .xferdiv c.act 0 0) ∧
     (c.act ≠ 0 → c.act = c.sl.mask → exec (.yield t .none off) s = waits .yieldReady) ∧
     (c.act ≠ 0 → c.act = c.sl.mask → 2 ^ 33 ≤ v → exec (.yield t (.barrier gk) off) s = trapped c s .qerr c.act v 0) ∧
     (c.act ≠ 0 → c.act = c.sl.mask → v < 2 ^ 33 → v % 2 ^ 32 < c.x.foot.sp → v % 16 = 0 →
       exec (.yield t (.barrier gk) off) s = waits (.yieldBarrier (v % 2 ^ 32) (v.testBit 32)))) ∧
  (∀ (t : Tail) (n cm1 : BitVec 5) (m : BitVec 8) (rel : Bool) s c, Issues s t c →
     let cnt := cm1.toNat + 1
     let regs := (List.range cnt).map (fun i => n.toNat + i)
     let homeOf := fun (r : Nat) => c.tk.home.getD r none
     let both := c.tk.slots.all (fun x => x.valid) = true
     let taken := ∃ r h, c.tk.home[r]? = some (some h) ∧ (r < n.toNat ∨ n.toNat + cnt ≤ r) ∧ m.toNat ≤ h ∧ h < m.toNat + cnt
     let later := fun (s' : State) (k : OpKind) => retired t c (inFlight c s' (8 + (cnt + 3) / 4) k) true
     (both ∨ c.tk.m.length < m.toNat + cnt ∨ taken → exec (.stage t n cm1 m) s = trapped c s .stage c.act 0 0) ∧
     (both ∨ (∃ r ∈ regs, homeOf r = none) → exec (.spill t n rel cm1) s = trapped c s .stage c.act 0 0) ∧
     (¬ both → m.toNat + cnt ≤ c.tk.m.length → ¬ taken → (∀ i ∈ s.dev.injs, ¬ (i.array = 2 ∧ i.home = c.core)) →
       let homed := (spent s).modTk c.g c.t (fun y => { y with
         home := (List.range cnt).foldl (fun h i => h.set (n.toNat + i) (some (m.toNat + i))) y.home })
       exec (.stage t n cm1 m) s = if c.act = 0 then retired t c homed false
         else later homed (.stage ((List.range cnt).map (fun i => (n.toNat + i, m.toNat + i, []))))) ∧
     (¬ both → (∀ r ∈ regs, homeOf r ≠ none) → fastFileSound s c.core →
       exec (.spill t n false cm1) s = if c.act = 0 then retired t c (spent s) false
         else later (spent s) (.spill (regs.map (fun r => ((homeOf r).getD 0, c.tk.n.getD r (splat 0)))))) ∧
     (¬ both → (∀ r ∈ regs, homeOf r ≠ none) → fastFileSound s c.core →
       let freed := (spent s).freeN c.g c.t regs
       exec (.spill t n true cm1) s = if c.act = 0 then retired t c freed false
         else later freed (.spill (regs.map (fun r => ((homeOf r).getD 0, c.tk.n.getD r (splat 0))))))) ∧
  (∀ (t : Tail) (a b : BitVec 6) s c, Passes s t c →
     let lo := (c.tk.g.getD a.toNat 0).toNat
     let hi := min (lo + (c.tk.g.getD b.toNat 0).toNat) (2 ^ 48)
     (c.act = 0 → exec (.icinv t a b) s = retired t c (spent s) false) ∧
     (c.act ≠ 0 → (spent s).ownWrites c.g c.t c.k = [] → (spent s).fifoAll (c.core / 8) ≤ s.now → ∃ s',
       exec (.icinv t a b) s = retired t c s' false ∧ s'.mem = s.mem ∧
       (c.tk.active.isSome = true → c.x.core = some c.core → ∀ (k : Nat) (x : Slot), s.slot? c.g c.t k = some x → ∃ y : Slot, s'.slot? c.g c.t k = some y ∧
         y.pc = x.pc ∧ y.mask = x.mask ∧ y.queue = x.queue ∧ y.bregs.length = x.bregs.length ∧
         ∀ (r : Nat) (b : BReg), x.bregs[r]? = some b → ∃ b' : BReg, y.bregs[r]? = some b' ∧ b'.target = b.target ∧
           b'.state = (if b.state = .prep ∧ lo ≤ b.target.toNat ∧ b.target.toNat < hi then .stale else b.state) ∧
           ∀ l ∈ b'.lines, l ∈ b.lines ∧ (lo < hi → ¬ (64 * l.1 < hi ∧ lo < 64 * l.1 + 64)))))

/-- R52, R54, R58, R60, R125, R126, R173, R174, R175, R283: What each lane reads of sources that pop nothing, and what last-read marks
free: the home of each marked register becomes none and its value open, unless both slots are valid; nothing else changes. A source that
pops: an unconfigured queue or unbound stream, the oldest visible entry, an empty queue, an exhausted stream; two sources that name one
queue pop it once; no active lane pops nothing (log 22). -/
def Obligations.SourcesAreRead : Prop :=
  (∀ (c : Ctx) (s : State) (ws : List Want), fastFileSound s c.core → (∀ w ∈ ws, pops w.1 = false) →
     ∃ rd, c.read s ws = .ok rd ∧ rd.p6 = none ∧ rd.v.length = ws.length ∧
       (∀ (k : Nat) (w : Want) (l : Nat), ws[k]? = some w → l < 32 →
         (rd.v.getD k []).getD l 0 = sourceValue c s.now w.2.1 (w.2.2 != 1) w.1 l) ∧
       let regs := ws.flatMap (fun w => marked w.2.2 w.1)
       let both := c.tk.slots.all (fun z => z.valid) = true
       (regs = [] ∨ both → rd.s = s) ∧
       (¬ both → ∀ y, s.tk? c.g c.t = some y → ∃ y' : Tussock, rd.s.tk? c.g c.t = some y' ∧
         (∀ r ∈ regs, r < y.home.length → y'.home[r]? = some none) ∧
         (∀ r, r ∉ regs → y'.home[r]? = y.home[r]? ∧ y'.n[r]? = y.n[r]?) ∧
         y'.g = y.g ∧ y'.m = y.m ∧ y'.p = y.p ∧ y'.slots = y.slots ∧ y'.flags = y.flags ∧
         rd.s.mem = s.mem ∧ rd.s.ops = s.ops ∧ rd.s.parts = s.parts)) ∧
  (∀ (c : Ctx) (s : State) (x : Gang) (y : Tussock) (p : Partition) (k : BitVec 2) (nb : Bool) (ck : CK),
     fastFileSound s c.core → (∀ i ∈ s.dev.injs, ¬ (i.array = 1 ∧ i.home = c.core)) → s.gang? c.g = some x → s.tk? c.g c.t = some y → s.part? c.x.part = some p →
     let read := fun (src : Src) => c.read s [(src, ck, 1)]
     let gives := fun (rd : Read) (s' : State) (p6 : Option Bool) (v : Nat → BitVec 32) =>
       rd.s = s' ∧ rd.p6 = p6 ∧ ∀ l, l < 32 → (rd.v.getD 0 []).getD l 0 = (v l).setWidth 64
     let won := if nb then some true else none
     (c.act = 0 → ∃ rd rd', read (.wq k nb) = .ok rd ∧ rd.s = s ∧ read (.fifo k nb) = .ok rd' ∧ rd'.s = s) ∧
     (c.act ≠ 0 → wqueue c s k = none → read (.wq k nb) = .error (c.trap .qerr)) ∧
     (∀ q, c.act ≠ 0 → wqueue c s k = some q → q.head ∈ q.visible →
       let q' : WQueue := { q with head := q.head + 1, visible := q.visible.filter (fun e => e != q.head) }
       let s' := s.modGang c.g (fun z => { z with wqs := z.wqs.set k.toNat (some q') })
       let v := fun (l : Nat) => BitVec.ofNat 32 (Memory.read x.sp (q.base + 128 * (q.head % q.entries) + 4 * l) 4)
       (∃ rd, read (.wq k nb) = .ok rd ∧ gives rd s' won v) ∧
       (∃ rd, c.read s [(.wq k nb, ck, 1), (.wq k nb, ck, 1)] = .ok rd ∧ gives rd s' won v ∧ rd.v.getD 1 [] = rd.v.getD 0 [])) ∧
     (∀ q, c.act ≠ 0 → wqueue c s k = some q → q.head ∉ q.visible →
       (nb = false → read (.wq k nb) = .error (.stall s (.popEmpty k.toNat))) ∧
       (nb = true → ∃ rd, read (.wq k nb) = .ok rd ∧ gives rd s (some false) (fun _ => 0))) ∧
     (∀ st, c.act ≠ 0 → y.s[k.toNat]? = some st →
       (st.bound = false → read (.fifo k nb) = .error (c.trap .qerr)) ∧
       (∀ v rest, st.bound = true → st.fifo = v :: rest →
         let st' : Stream := { st with fifo := rest, cursor := max st.cursor (min (st.cursor + 32) st.count) }
         ∃ rd, read (.fifo k nb) = .ok rd ∧
           gives rd (s.modTk c.g c.t (fun z => { z with s := z.s.set k.toNat st' })) won (fun l => v.getD l 0)) ∧
       (st.bound = true → st.fifo = [] → st.count ≤ st.next →
         (nb = false → read (.fifo k nb) = .error (c.trap .qerr)) ∧
         (nb = true → ∃ rd, read (.fifo k nb) = .ok rd ∧ gives rd s (some false) (fun _ => 0))) ∧
       (st.bound = true → st.fifo = [] → st.next < st.count → st.faulted = false →
         (nb = false → read (.fifo k nb) = .error (.stall s (.fifoEmpty k.toNat))) ∧
         (nb = true → ∃ rd, read (.fifo k nb) = .ok rd ∧ gives rd s (some false) (fun _ => 0)))))

/-- R53, R59 to R61, R64, R69, R125, R317: At its clock a result is written: its queue entry, its n registers, its g register, its
predicates, its flags, in its lanes only; its operation is gone; every other register, other gangs' memory and every byte of global memory
are as they were. A write to a special register that lands two clocks after its WRSR: FPCTL or a scratch register, and no other. The push
of a result to a gang queue writes lane L's low 32 bits at bytes 4L to 4L + 3 of the entry that it reserved, leaves every other byte of
the scratchpad, and makes the entry visible. -/
def Obligations.ResultsLand : Prop :=
  (∀ (s : State) (id : Nat) (o : Op) (r : Result) (y : Tussock), s.op? id = some o → o.kind = .result r → s.opDue o = true →
     s.tk? o.gang o.tk = some y → r.wpush = none → r.wrsr = none →
     ∃ (t : State) (y' : Tussock), exec (.resultLand id) s = .next t ∧ t.op? id = none ∧ t.tk? o.gang o.tk = some y' ∧
       t.mem = s.mem ∧ t.parts = s.parts ∧ t.tasks = s.tasks ∧ t.cores = s.cores ∧ t.dev = s.dev ∧
       (∀ g, g ≠ o.gang → t.gang? g = s.gang? g) ∧ (∀ k, k ≠ o.tk → t.tk? o.gang k = s.tk? o.gang k) ∧
       (t.gang? o.gang).map (fun x => x.sp) = (s.gang? o.gang).map (fun x => x.sp) ∧
       y'.home = y.home ∧ y'.t = y.t ∧ y'.s = y.s ∧ y'.stack = y.stack ∧ y'.sup = y.sup ∧ y'.trapPc = y.trapPc ∧
       y'.fpctl = y.fpctl ∧ y'.sscr = y.sscr ∧
       (∀ j, y'.g[j]? = match r.greg with
         | some (g, hi) => if g = j ∧ j < y.g.length then
             some (let v := r.vals.getD (lowLane r.mask) 0
                   if hi then v.extractLsb' 0 32 ++ (y.g.getD j 0).extractLsb' 0 32 else v) else y.g[j]?
         | none => y.g[j]?) ∧
       (∀ j, (∀ e ∈ r.preds, e.1 ≠ j) ∨ j = 7 → y'.p[j]? = y.p[j]?) ∧
       (∀ j vals old, r.preds = [(j, vals)] → j ≠ 7 → y.p[j]? = some old →
         y'.p[j]? = some ((old &&& ~~~r.mask) ||| (vals &&& r.mask))) ∧
       (r.nreg = none → y'.n = y.n ∧ y'.m = y.m) ∧
       (∀ n words j l, r.nreg = some (n, words) → y.parked = false → words ≤ 2 → j < y.n.length → l < 32 →
         (y'.n.getD j []).getD l 0 =
           if n ≤ j ∧ j < n + words ∧ r.mask.getLsbD l = true ∧ y.dead.getLsbD l = false then
             ((r.vals.getD l 0).setWidth 128).extractLsb' (32 * (j - n)) 32
           else (y.n.getD j []).getD l 0) ∧
       (∀ l, l < 32 → y'.flags.getD l 0 =
         if r.mask.getLsbD l then (y.flags.getD l 0 &&& ~~~r.clear) ||| r.flags.getD l 0 else y.flags.getD l 0) ∧
       (∀ k z, y.slots[k]? = some z → ∃ z' : Slot, y'.slots[k]? = some z' ∧ z'.pc = z.pc ∧ z'.mask = z.mask ∧ z'.pushes = z.pushes ∧
         z'.join = z.join ∧ z'.bregs = z.bregs ∧
         ∀ e l, e < z.queue.length → l < 32 → (z'.queue.getD e []).getD l 0 =
           if r.entry = some e ∧ k ∈ r.qslots ∧ r.mask.getLsbD l = true then r.vals.getD l 0 else (z.queue.getD e []).getD l 0) ∧
       (o.tag ≠ 0 → ∀ k z, o.tagSlots = [k] → y.slots[k]? = some z → ∃ z' : Slot, y'.slots[k]? = some z' ∧
         ∀ j, z'.tags.getD j 0 = if j = o.tag - 1 ∧ z.tags.getD j 0 ≠ 0 then z.tags.getD j 0 - 1 else z.tags.getD j 0)) ∧
  (∀ (s : State) (id : Nat) (o : Op) (r : Result) (y : Tussock) (k : Nat) (v : BitVec 64),
     s.op? id = some o → o.kind = .result r → s.opDue o = true → s.tk? o.gang o.tk = some y →
     r = { mask := r.mask, inHandler := r.inHandler, wrsr := some (k, v) } →
     ∃ (t : State) (y' : Tussock), exec (.resultLand id) s = .next t ∧ t.tk? o.gang o.tk = some y' ∧ t.mem = s.mem ∧
       y'.fpctl = (if k = 0 then v else y.fpctl) ∧
       y'.sscr = (if k = 0 then y.sscr else y.sscr.set (k - 0x018) v) ∧
       y'.g = y.g ∧ y'.n = y.n ∧ y'.m = y.m ∧ y'.p = y.p ∧ y'.trapPc = y.trapPc ∧ y'.sup = y.sup) ∧
  (∀ (s : State) (id : Nat) (o : Op) (r : Result) (x : Gang) (core k e : Nat) (q : WQueue),
     s.op? id = some o → o.kind = .result r → s.opDue o = true → s.gang? o.gang = some x → x.core = some core →
     x.sp.wf = true → x.wqs[k]? = some (some q) →
     r = { mask := r.mask, vals := r.vals, inHandler := r.inHandler, wpush := some (k, e) } →
     let base := q.base + 128 * (e % q.entries)
     ∃ (t : State) (x' : Gang), exec (.resultLand id) s = .next t ∧ t.gang? o.gang = some x' ∧ t.mem = s.mem ∧
       x'.wqs[k]? = some (some { q with visible := q.visible ++ [e] }) ∧
       (∀ l, r.mask.getLsbD l = true → Memory.read x'.sp (base + 4 * l) 4 = (r.vals.getD l 0).toNat % 2 ^ 32) ∧
       (∀ a, (∀ l, r.mask.getLsbD l = true → a < base + 4 * l ∨ base + 4 * l + 4 ≤ a) → Memory.get x'.sp a = Memory.get x.sp a))

/-- R117, R227, R230, R234, R235, R236, R239, R393: LDG and LDP: the checks, then one read for each active lane, or one for a g
destination. STG, STP and ST.N4 in both spaces: the checks, then one write for each active lane; ST.N4 writes the nibble of byte ⌊element
÷ 2⌋ that the element's parity names. ATOM in its eight operations and RED, in both spaces: the checks, then one read-modify-write for
each active lane; ATOM returns the old values, RED nothing; a compare-and-swap does not yet set D. -/
def Obligations.AccessesGoOut : Prop :=
  (∀ (t : Tail) (md : MemMod) (d : Dst) (tr : BitVec 3) (a : Src) (off : BitVec 6),
     let size : Nat := 2 ^ md.size.toNat
     let os := fun (c : Ctx) (rd : Read) => once d (lanesAt c rd (off.toInt * (size : Int)))
     let kind := fun accs => OpKind.load (goesTo d (regsOf md.size)) md.sx accs (md.kind == 2)
     Checks (.ldg t md d tr a off) t [(a, .int, 1)]
       (fun c rd s => c.globalLanes s (c.part s) tr (os c rd) size .read 0 true)
       (fun c rd ls s s2 => Requests c s s2 true ls size (fun _ => .read) rd.p6 kind true (md.kind == 2)) ∧
     Checks (.ldp t md d a off) t [(a, .int, 1)]
       (fun c rd s => scratchCheck c s (os c rd) size false)
       (fun c rd ls s s2 => Requests c s s2 false ls size (fun _ => .read) rd.p6 kind true (md.kind == 2))) ∧
  (∀ (t : Tail) (md : MemMod) (m4 : N4Mod) (tr : BitVec 3) (a b : Src) (off : BitVec 6),
     let size : Nat := 2 ^ md.size.toNat
     let write := fun (rd : Read) (l : Nat) => AccAct.write (stored rd md.size l)
     let elems := fun (c : Ctx) (rd : Read) => lanesAt c rd off.toInt
     let halves := fun (c : Ctx) (rd : Read) => (elems c rd).map (fun e => (e.1, e.2 / 2))
     let nib := fun (c : Ctx) (rd : Read) (l : Nat) =>
       AccAct.nib (decide ((((elems c rd).lookup l).getD 0) % 2 = 1)) (((rd.v.getD 1 []).getD l 0).extractLsb' 0 4)
     Checks (.stg t md tr a b off) t [(a, .int, 1), (b, .int, regsOf md.size)]
       (fun c rd s => c.globalLanes s (c.part s) tr (lanesAt c rd (off.toInt * (size : Int))) size .write 1 true)
       (fun c rd ls s s2 => Requests c s s2 true ls size (write rd) rd.p6 OpKind.store false false) ∧
     Checks (.stp t md a b off) t [(a, .int, 1), (b, .int, regsOf md.size)]
       (fun c rd s => scratchCheck c s (lanesAt c rd (off.toInt * (size : Int))) size true)
       (fun c rd ls s s2 => Requests c s s2 false ls size (write rd) rd.p6 OpKind.store false false) ∧
     (m4.sp = false → Checks (.stN4 t m4 tr a b off) t [(a, .int, 1), (b, .int, 1)]
       (fun c rd s => c.globalLanes s (c.part s) tr (halves c rd) 1 .write 2 true)
       (fun c rd ls s s2 => Requests c s s2 true ls 1 (nib c rd) rd.p6 OpKind.store false false)) ∧
     (m4.sp = true → Checks (.stN4 t m4 tr a b off) t [(a, .int, 1), (b, .int, 1)]
       (fun c rd s => scratchCheck c s (halves c rd) 1 true)
       (fun c rd ls s s2 => Requests c s s2 false ls 1 (nib c rd) rd.p6 OpKind.store false false))) ∧
  (∀ (t : Tail) (md : AtomMod) (d : Dst) (a b : Src) (op : BitVec 3),
     let size : Nat := if md.w64 then 8 else 4
     let regs := fun (op : Nat) => if op = 7 then (if md.w64 then 4 else 2) else if md.w64 then 2 else 1
     let rmw := fun (op : Nat) (rd : Read) (l : Nat) => AccAct.rmw op
       (if op = 7 ∧ md.w64 = true then (rd.wide.getD 1 []).getD l 0 else ((rd.v.getD 1 []).getD l 0).setWidth 128)
     let acq := md.kind == 1 || md.kind == 3
     let does := fun (i : Instr) (op : Nat) (kind : List Acc → OpKind) (lands acq : Bool) =>
       (md.sp = false → Checks i t [(a, .int, 1), (b, .int, regs op)]
         (fun c rd s => c.globalLanes s (c.part s) md.treg (lanesAt c rd 0) size .write 2 true (decide (op ≠ 7)))
         (fun c rd ls s s2 => Requests c s s2 true ls size (rmw op rd) rd.p6 kind lands acq)) ∧
       (md.sp = true → Checks i t [(a, .int, 1), (b, .int, regs op)]
         (fun c rd s => scratchCheck c s (lanesAt c rd 0) size true)
         (fun c rd ls s s2 => Requests c s s2 false ls size (rmw op rd) rd.p6 kind lands acq))
     let atom := fun (i : Instr) (op : Nat) => does i op (fun accs => .atom (goesTo d (if md.w64 then 2 else 1)) accs acq) true acq
     atom (.atomAdd t md d a b) 0 ∧ atom (.atomMin t md d a b) 1 ∧ atom (.atomMax t md d a b) 2 ∧ atom (.atomAnd t md d a b) 3 ∧
     atom (.atomOr t md d a b) 4 ∧ atom (.atomXor t md d a b) 5 ∧ atom (.atomXchg t md d a b) 6 ∧ atom (.atomCas t md d a b) 7 ∧
     does (.red t md op a b) op.toNat OpKind.store false false)

/-- R98, R101, R227: where lanes reach through a translation register and in scratchpad, and the traps of an unbound register, a
misaligned lane, an address outside the allocation, and a page that may not be used so. -/
def Obligations.LaneAddresses : Prop :=
  (∀ (c : Ctx) (s : State) (p : Partition) (tr : BitVec 3) (os : List (Nat × Int)) (size : Nat) (acc : Access) (kind : Nat)
      (y : Tussock) (r : TReg), acc = .read ∨ acc = .write → os ≠ [] → s.tk? c.g c.t = some y → y.t = c.tk.t →
    c.tk.t[tr.toNat]? = some r → (∀ o ∈ os, o.1 < 32) →
    let va := fun (o : Int) => (((r.base.toNat : Int) + o) % 2 ^ 64).toNat
    let odd := os.filter (fun o => va o.2 % size ≠ 0)
    let go := c.globalLanes s p tr os size acc kind true
    let first := ((os.map (fun o => va o.2)).headD 0)
    let inside := ∀ o ∈ os, 0 ≤ o.2 ∧ o.2 + size ≤ r.limit
    (r.bound = false → go = .error (.trap { code := .prot, lanes := c.act, addr := first })) ∧
    (r.bound = true → odd ≠ [] →
      go = .error (.trap { code := .align, lanes := maskOfList (odd.map (fun o => o.1)), addr := ((odd.map (fun o => va o.2)).headD 0) })) ∧
    (r.bound = true → odd = [] → r.retrans = false → inside → ((acc = .write ∧ r.w = false) ∨ (r.s = true ∧ c.tk.sup = false)) →
      go = .error (.trap { code := .prot, lanes := maskOfList (os.map (fun o => o.1)), addr := first })) ∧
    (r.bound = true → odd = [] → r.retrans = false → inside → (acc = .write → r.w = true) → (r.s = true → c.tk.sup = true) →
      (s.core c.core).locks = [] → ∃ s', go = .ok (s', os.map (fun o => (o.1, va o.2, r.frame + o.2.toNat))) ∧
        (acc = .read → s' = s) ∧ s'.gangs = s.gangs ∧ s'.ops = s.ops ∧ s'.parts = s.parts)) ∧
  (∀ (c : Ctx) (s : State) (os : List (Nat × Int)) (size : Nat) (writes : Bool),
    let at_ := fun (o : Nat × Int) => (o.2 % 2 ^ 32).toNat
    let out := os.filter (fun o => c.x.foot.sp ≤ at_ o)
    let odd := os.filter (fun o => at_ o % size ≠ 0)
    let go := scratchCheck c s os size writes
    (out ≠ [] → go = .error (.trap { code := .prot, lanes := maskOfList (out.map (fun o => o.1)), addr := (out.map at_).headD 0 })) ∧
    (out = [] → odd ≠ [] →
      go = .error (.trap { code := .align, lanes := maskOfList (odd.map (fun o => o.1)), addr := (odd.map at_).headD 0 })) ∧
    (out = [] → odd = [] → (s.core c.core).locks = [] → (∀ x, s.gang? c.g = some x → ∀ w ∈ x.windows, w = none) →
      go = .ok (s, os.map (fun o => (o.1, at_ o, at_ o)))))

/-- R97, R111, R116, R117, R123, R136, R139, R226, R229, R234, R239, R393: A read access takes the bytes at its address when its clock
comes; a load or atomic of which every access is performed writes its values, extended, and its status, and ends; nothing else changes.
One access of a store or atomic whose clock has come is performed: the new bytes at its address, by the operation; every byte outside them
reads as before, but for what is undefined: cells of futures with waiters, bound sync objects and barriers that an arrival races to; a
compare that succeeds sets D of its leaf. -/
def Obligations.AccessesArePerformed : Prop :=
  ((∀ (s : State) (o : Op) (d : LDest) (sx q : Bool) (accs : List Acc), o ∈ s.ops → o.kind = .load d sx accs q →
     ∃ o' ∈ s.tick.ops, o'.id = o.id ∧ ∃ accs', o'.kind = .load d sx accs' q ∧ accs'.length = accs.length ∧
       ∀ (k : Nat) (a : Acc), accs[k]? = some a → a.glob = true → ∃ a', accs'[k]? = some a' ∧ access { a' with done := a.done } = access a ∧
         (a.act = .read → a.done = false → a.at_ ≤ s.now + 1 →
           a'.done = true ∧ a'.val = BitVec.ofNat 128 (s.mem.read a.addr a.size) ^^^ a.flip) ∧
         (a.done = true ∨ s.now + 1 < a.at_ → a' = a)) ∧
   (∀ (s : State) (id : Nat) (o : Op) (y : Tussock) (d : LDest) (sx q atom : Bool) (accs : List Acc), s.op? id = some o →
     o.kind = (if atom then .atom d accs q else .load d sx accs q) → s.opDue o = true → (∀ a ∈ accs, a.done = true ∧ a.lane < 32) →
     s.tk? o.gang o.tk = some y → (accs.map (fun a => a.lane)).Nodup →
     let W := match d with
       | .g _ => 64
       | _ => 32
     let value := fun (l : Nat) => match accs.find? (fun a => a.lane == l) with
       | none => (0 : BitVec 128)
       | some a => if atom then a.val else
           let n := a.val.toNat % 2 ^ (8 * a.size)
           BitVec.ofNat 128 (if sx = true ∧ 8 * a.size < W ∧ 2 ^ (8 * a.size - 1) ≤ n then n + 2 ^ W - 2 ^ (8 * a.size) else n)
     ∃ (t : State) (y' : Tussock), exec (.loadComplete id) s = .next t ∧ t.op? id = none ∧ t.tk? o.gang o.tk = some y' ∧
       t.mem = s.mem ∧ (atom = false → t.parts = s.parts) ∧ t.dev = s.dev ∧ (∀ g, g ≠ o.gang → t.gang? g = s.gang? g) ∧
       y'.home = y.home ∧ y'.flags = y.flags ∧ y'.t = y.t ∧
       (∀ j, y'.p[j]? = if j = 6 ∧ o.p6.isSome = true then
           y.p[j]?.map (fun old => (old &&& ~~~o.mask) ||| (if o.p6 = some true then o.mask else 0)) else y.p[j]?) ∧
       (∀ j, y'.g[j]? = if d = .g j ∧ j < y.g.length then some ((value (lowLane o.mask)).extractLsb' 0 64) else y.g[j]?) ∧
       (y.parked = false → ∀ j l, j < y.n.length → l < 32 → (y'.n.getD j []).getD l 0 = match d with
         | .n r words => if r ≤ j ∧ j < r + words ∧ o.mask.getLsbD l = true ∧ y.dead.getLsbD l = false then
             (value l).extractLsb' (32 * (j - r)) 32 else (y.n.getD j []).getD l 0
         | _ => (y.n.getD j []).getD l 0))) ∧
  (∀ (s : State) (id k : Nat) (o : Op) (accs : List Acc) (a : Acc) (x : Gang) (core : Nat) (d : LDest) (q atom : Bool),
     s.op? id = some o → o.kind = (if atom then .atom d accs q else .store accs) → accs[k]? = some a →
     accReady (s.accClk o a) accs k = true → s.gang? o.gang = some x → x.core = some core → 0 < a.size →
     s.mem.wf = true → Memory.wf x.sp = true →
     let reads := fun (s : State) (n b : Nat) => if a.glob then s.mem.read b n else
       (s.gang? o.gang).elim 0 (fun z => Memory.read z.sp b n)
     let old := reads s a.size a.addr
     let W := 8 * a.size
     let new : Nat := match a.act with
       | .read => old
       | .write v => v.toNat % 2 ^ W
       | .nib hi v => if hi then v.toNat * 16 + old % 16 else old / 16 * 16 + v.toNat
       | .rmw op b =>
         let v := b.toNat % 2 ^ W
         match op with
         | 0 => (old + v) % 2 ^ W
         | 1 => if signed W old ≤ signed W v then old else v
         | 2 => if signed W v ≤ signed W old then old else v
         | 3 => old &&& v
         | 4 => old ||| v
         | 5 => old ^^^ v
         | 6 => v
         | _ => if old = v then b.toNat / 2 ^ W % 2 ^ W else old
     let plain := match a.act with
       | .rmw _ _ => False
       | _ => True
     let swaps := a.glob = true ∧ ∃ v, a.act = .rmw 7 v ∧ old = v.toNat % 2 ^ W
     let future := fun (b : Nat) => plain ∧ ∃ w ∈ s.waiters, w.glob = a.glob ∧ w.addr ≤ b ∧ b < w.addr + 16 ∧ (w.glob = true ∨ w.gang = o.gang)
     let object := fun (s0 : State) (b : Nat) => a.glob = true ∧ ∃ w ∈ s0.objectWords a.addr a.size, w ≤ b ∧ b < w + 8
     let barrier := fun (b : Nat) => plain ∧ a.glob = false ∧ a.addr / 16 ≤ b / 16 ∧ b / 16 ≤ (a.addr + a.size - 1) / 16 ∧
       s.arrivalComing o (b / 16 * 16) false = true
     (∀ hi v, a.act = .nib hi v → a.size = 1) →
     ∃ t s0, exec (.storePerformed id k) s = .next t ∧ (¬ swaps → s0 = s) ∧ (swaps → s0 = s.markDirty a.leaf) ∧
       (∀ b, s0.mem.get b = s.mem.get b ∨ (swaps ∧ b = a.leaf ∧ s0.mem.get b = s.mem.get b ||| 0x80)) ∧
       let open_ := fun (b : Nat) => future b ∨ object s0 b ∨ barrier b
       ((∀ b, a.addr ≤ b → b < a.addr + a.size → ¬ open_ b) → reads t a.size a.addr = new) ∧
       (∀ b, (b < a.addr ∨ a.addr + a.size ≤ b) → ¬ open_ b → reads t 1 b = reads s0 1 b) ∧
       (a.glob = false → t.mem = s.mem) ∧
       (atom = true → ∃ o', t.op? id = some o' ∧ ∃ accs', o'.kind = .atom d accs' q ∧ (accs'[k]?).map (fun z => (z.done, z.val)) =
         some (true, match a.act with
           | .rmw _ _ => BitVec.ofNat 128 old
           | .read => BitVec.ofNat 128 old ^^^ a.flip
           | _ => 0)))

/-- R66, R98, R233, R237: PREF fills TLB entries and at most sets A bits, and does nothing in a misaligned lane; TBIND asks for a binding,
with its traps, and the binding that it completes with; TINV unbinds. A TBIND that completes binds its register: the frame is the physical
address of the base, the limit at most 2 MiB, S and W those of its leaf; every other register and all data are as before. -/
def Obligations.TranslationRegisters : Prop :=
  (∀ (t : Tail) (far : Bool) (tr n : BitVec 3) (a : Src) (off : BitVec 6) (g : BitVec 6) (mask : BitVec 8) s c p, Issues s t c →
     s.part? c.x.part = some p →
     (∀ rd, c.read (spent s) [(a, .int, 1)] = .ok rd → s.mem.wf = true → s.sound = true → ∃ s2, exec (.pref t far tr a off) s = retired t c s2 rd.p6.isSome ∧
       (slotsAside s2).gangs = (slotsAside rd.s).gangs ∧ s2.parts = rd.s.parts ∧ (rd.p6 = none → s2.ops = rd.s.ops) ∧
       (∀ b, s2.mem.get b ||| 0x40 = rd.s.mem.get b ||| 0x40) ∧
       ((c.tk.t.getD tr.toNat {}).bound = false ∨ (∀ l, c.act.getLsbD l = true → ((rd.v.getD 0 []).getD l 0).toNat % 128 ≠ 0) →
         rd.p6 = none → s2 = rd.s)) ∧
     (let v := c.tk.g.getD g.toNat 0
       let i := Instr.tbind t n g
       let walked := (spent s).translate c.core p c.x.tenant v.toNat .read c.tk.sup (c.reader s)
       (c.act = 0 → exec i s = retired t c (spent s) false) ∧
       (c.act ≠ 0 → 2 ^ 48 ≤ v.toNat → exec i s = trapped c s .xlate c.act v.toNat 0) ∧
       (c.act ≠ 0 → v.toNat < 2 ^ 48 → walked.2 = .xlate → exec i s = trapped c s .xlate c.act v.toNat 0) ∧
       (c.act ≠ 0 → v.toNat < 2 ^ 48 → walked.2 = .prot → exec i s = trapped c s .prot c.act v.toNat 0) ∧
       (∀ w r, c.act ≠ 0 → v.toNat < 2 ^ 48 → walked.2 = w → (∀ pa f pg e b wr x lines, w ≠ .pa pa f pg e b wr x lines) →
         c.walkFault walked.1 0 (((List.range 32).filter (fun l => c.act.getLsbD l)).map (fun l => (l, w, v.toNat))) = some r →
         exec i s = c.finish t (spent s) r) ∧
       (∀ pa f pg e b w x lines, c.act ≠ 0 → v.toNat < 2 ^ 48 → walked.2 = .pa pa f pg e b w x lines → ∃ s2 due,
         exec i s = retired t c s2 true ∧ SameData walked.1 s2 ∧ c.clk + 12 ≤ due ∧
         (((spent s).core c.core).tlb.any (fun e => e.hits p.num c.x.tenant v.toNat) = true → due = c.clk + 12) ∧
         s2.ops = s.ops ++ [opOf c s (some c.core) due none (.tbind n.toNat { bound := true, base := v.extractLsb' 0 48 })])) ∧
     exec (.tinv t mask) s = retired t c (if c.act = 0 then spent s else (spent s).modTk c.g c.t (fun y =>
       { y with t := y.t.mapIdx (fun k r => if mask.getLsbD k then { r with bound := false } else r) })) false) ∧
  (∀ (s : State) (id : Nat) (o : Op) (x : Gang) (y : Tussock) (p : Partition) (k : Nat) (want : TReg) (pa f pg e : Nat)
       (b w xb : Bool) (lines : List Nat),
     s.op? id = some o → o.kind = .tbind k want → s.opDue o = true → s.gang? o.gang = some x → s.tk? o.gang o.tk = some y →
     s.part? x.part = some p → walk s.mem p x.tenant want.base.toNat .host true = .pa pa f pg e b w xb lines → k < y.t.length →
     ∃ (t : State) (y' : Tussock) (r : TReg), exec (.loadComplete id) s = .next t ∧ t.op? id = none ∧ t.tk? o.gang o.tk = some y' ∧
       y'.t[k]? = some r ∧ r.bound = true ∧ r.base = want.base ∧ r.frame = pa ∧ r.s = b ∧ r.w = w ∧ r.retrans = false ∧
       r.limit ≤ 2 ^ 21 ∧ (∀ j, j ≠ k → y'.t[j]? = y.t[j]?) ∧ y'.n = y.n ∧ y'.g = y.g ∧ y'.p = y.p ∧ t.mem = s.mem)

/-- R107, R108, R238: what PTAG, PTSET and PTINV do to a table with one key, and the words: lanes in ascending order, the values on their
way, #QERR without a table. -/
def Obligations.TagTableOperations : Prop :=
  (∀ (tab : TagTable) (key : Nat),
    let line := key / tab.z
    let set := line % tab.sets
    let ways := [4 * set, 4 * set + 1, 4 * set + 2, 4 * set + 3]
    let at_ := fun (n : Nat) => tab.lines.getD n none
    let used := fun (t' : TagTable) (n : Nat) => t'.used = tab.used.set n (tab.stamp + 1) ∧ t'.stamp = tab.stamp + 1
    (∀ n, ways.find? (fun n => at_ n == some line) = some n →
      (tab.ptag key).1 = BitVec.ofNat 128 n ∧ (tab.ptag key).2.lines = tab.lines ∧ used (tab.ptag key).2 n ∧
      (tab.ptset key).1 = BitVec.ofNat 128 (n % 2 ^ 32 + 2 ^ 32 * 2 + 2 ^ 64 * (line * tab.z % 2 ^ 64)) ∧
      (tab.ptset key).2.lines = tab.lines ∧ used (tab.ptset key).2 n ∧
      (tab.ptinv key).1 = BitVec.ofNat 128 n ∧ (tab.ptinv key).2.lines = tab.lines.set n none) ∧
    ((∀ n ∈ ways, at_ n ≠ some line) →
      tab.ptag key = (0xFFFFFFFF, tab) ∧ tab.ptinv key = (0xFFFFFFFF, tab) ∧
      ∃ n ∈ ways, (tab.ptset key).2.lines = tab.lines.set n (some line) ∧ used (tab.ptset key).2 n ∧
        (tab.ptset key).1 = BitVec.ofNat 128 (n % 2 ^ 32 + match at_ n with
          | none => 0
          | some old => 2 ^ 32 + 2 ^ 64 * (old * tab.z % 2 ^ 64)) ∧
        (∀ m ∈ ways, m < n → at_ n = none → at_ m ≠ none) ∧
        (∀ m ∈ ways, at_ n ≠ none → at_ m ≠ none ∧ tab.used.getD n 0 ≤ tab.used.getD m 0))) ∧
  (∀ (t : Tail) (d : Dst) (a : Src) s c rd, Issues s t c → c.read (spent s) [(a, .int, 2)] = .ok rd →
    let does := fun (i : Instr) (words : Nat) (f : TagTable → Nat → BitVec 128 × TagTable) =>
      (c.act = 0 → exec i s = retired t c rd.s false) ∧
      (c.act ≠ 0 → ((rd.s.gang? c.g).bind (fun x => x.tags)) = none → exec i s = trapped c s .qerr c.act 0 0) ∧
      (∀ x tab, c.act ≠ 0 → rd.s.gang? c.g = some x → x.tags = some tab →
        let lanes := (List.range 32).filter (fun l => c.act.getLsbD l)
        let key := fun (l : Nat) => ((rd.v.getD 0 []).getD l 0).toNat
        let after := fun (ls : List Nat) => ls.foldl (fun q l => (f q (key l)).2) tab
        ∃ s2 due vals, exec i s = retired t c s2 true ∧ s2.mem = rd.s.mem ∧ c.clk < due ∧
          s2.ops = rd.s.ops ++ [opOf c rd.s (some c.core) due rd.p6 (.values (goesTo d words) vals none none)] ∧
          s2.gang? c.g = some { x with tags := some (after lanes) } ∧
          ∀ l ∈ lanes, vals.getD l 0 = (f (after (lanes.filter (fun k => k < l))) (key l)).1)
    does (.ptag t d a) 1 TagTable.ptag ∧ does (.ptset t d a) 4 TagTable.ptset ∧ does (.ptinv t d a) 1 TagTable.ptinv)

/-- R130, R133, R137, R138, R139, R141, R240, R241, R243, R244, R455: FENCE and FENCE.sc retire once the slot's loads, atomics and writes
are performed, and wait otherwise; PFENCE once the core's stores of its reach have left the store buffers and, for scratchpad, the bank
write queues. The guard does not matter, and no data changes. ACQ.E and REL.E go out as one access at the object for all lanes; RBIND: its
#ALIGN, a removal at issue, and the binding that it installs, or not, when it completes; REL.E adds 1 to the object when it is performed.
-/
def Obligations.FencesAndEntryConsistency : Prop :=
  (∀ (t : Tail) (scope : BitVec 3) s c, Passes s t c →
     let ops := (spent s).ownReads c.g c.t c.k ++
       (if 4 ≤ scope.toNat then (spent s).ownWrites c.g c.t c.k else c.ownBanks (spent s))
     let fifo := if 4 ≤ scope.toNat then (spent s).fifoAll (c.core / 8) else 0
     let fence := fun (i : Instr) (tickets : Nat) =>
       (c.sl.phase.started = true ∨ (ops = [] ∧ fifo ≤ s.now) → ∃ s2, exec i s = retired t c s2 false ∧ s2.mem = s.mem ∧
         s2.gangs = s.gangs ∧ s2.ops = s.ops ∧ s2.dev = { s.dev with ticket := s.dev.ticket + tickets }) ∧
       (c.sl.phase.started = false → ¬ (ops = [] ∧ fifo ≤ s.now) → exec i s = .next ((spent s).modSlot c.g c.t c.k (fun z =>
         { z with phase := { z.phase with started := true }, stall := some (.drain ops fifo) })))
     let p := fun (i : Instr) (sp gl : Bool) =>
       let left := (spent s).coreWrites c.core sp gl
       let fifo := if gl then (spent s).fifoAll (c.core / 8) else 0
       let banks := if sp then (spent s).banksEmptyAt c.core else 0
       let stored := (left = [] ∧ fifo ≤ s.now) ∨ c.sl.phase.started = true
       (stored → (banks ≤ c.clk ∨ c.sl.phase.granted = true) → exec i s = retired t c (spent s) false) ∧
       (¬ stored → exec i s = .next ((spent s).modSlot c.g c.t c.k (fun z =>
         { z with phase := { z.phase with started := true }, stall := some (.drain left fifo) }))) ∧
       (stored → c.clk < banks → c.sl.phase.granted = false →
         exec i s = .next ((spent s).modSlot c.g c.t c.k (fun z =>
           { z with phase := { z.phase with started := true, granted := true }, stall := some (.clock banks) })))
     fence (.fence t scope) 0 ∧ fence (.fenceSc t scope) 1 ∧
     p (.pfenceSp t) true false ∧ p (.pfenceGl t) false true ∧ p (.pfenceAll t) true true) ∧
  ((∀ (t : Tail) (d : Dst) (a b o : USrc) s c, Passes s t c →
     let va := c.tk.uval a
     let lo := va.toNat
     let n := (c.tk.uval b).toNat
     let obj := (c.tk.uval o).toNat
     let p := c.part s
     let i := Instr.rbind t a b o
     let lane := lowLane c.act
     (c.act = 0 → exec (.acqE t d a) s = retired t c (spent s) false ∧ exec (.relE t a) s = retired t c (spent s) false ∧
       exec i s = retired t c (spent s) false) ∧
     (c.act ≠ 0 → lo % 8 ≠ 0 → exec (.acqE t d a) s = trapped c s .align c.act lo 0 ∧ exec (.relE t a) s = trapped c s .align c.act lo 0) ∧
     (∀ s1 pa, c.act ≠ 0 → c.single (spent s) p va 8 .read 0 = .ok (s1, pa) → s1.sound = true → ∃ s2 due acc,
       exec (.acqE t d a) s = retired t c s2 true ∧ SameData s1 s2 ∧ access acc = (lane, true, pa, 8, .read, false) ∧ acc.at_ + 100 + c.clk ≤ due + s1.now ∧
       s2.ops = s1.ops ++ [sentOut c s1 (some c.core) due none (.acqE (goesTo d 2) acc)] ∧
       (s2.slot? c.g c.t c.k).map (fun z => z.hold) = (s1.slot? c.g c.t c.k).map (fun z => s1.nextOp :: z.hold)) ∧
     (∀ s1 pa, c.act ≠ 0 → c.single (spent s) p va 8 .write 2 = .ok (s1, pa) → ∃ s2 drain acc,
       let s1 := s1.setDirty p c.x.tenant va.toNat
       exec (.relE t a) s = retired t c s2 true ∧ SameData s1 s2 ∧ access acc = (lane, true, pa, 8, .rmw 0 1, false) ∧
       s2.ops = s1.ops ++ [sentOut c s1 none 0 none (.relE acc drain)] ∧ drain = s1.boundDrain p pa) ∧
     (c.act ≠ 0 → lo % 128 ≠ 0 → exec i s = trapped c s .align c.act lo 0) ∧
     (c.act ≠ 0 → lo % 128 = 0 → n % 128 ≠ 0 → exec i s = trapped c s .align c.act n 0) ∧
     (c.act ≠ 0 → lo % 128 = 0 → n % 128 = 0 → obj % 8 ≠ 0 → exec i s = trapped c s .align c.act obj 0) ∧
     (c.act ≠ 0 → lo % 128 = 0 → n % 128 = 0 → obj % 8 = 0 → ∃ s2 due ok bind waits, exec i s = retired t c s2 true ∧
       s2.mem = s.mem ∧ s.now < due ∧ { sentOut c s none due none (.rbind ok bind) with waits := waits } ∈ s2.ops ∧
       let mine := p.binds.find? (fun q => q.tenant == c.x.tenant && q.lo == lo)
       (n = 0 → bind = none ∧ ok = mine.isSome ∧ (∀ q, mine = some q → q.drain ≤ due ∧
         waits = (spent s).engineWrites c.x.part c.x.tenant q.lo (q.lo + q.len) ∧ ∀ p2, s2.part? c.x.part = some p2 → ∀ r ∈ p2.binds, r ≠ q)) ∧
       (n ≠ 0 → bind = some (lo, n, obj) ∧ waits = []))) ∧
   (∀ (s : State) (id : Nat) (o : Op) (x : Gang) (y : Tussock) (p : Partition) (bind : Option (Nat × Nat × Nat)) (ok : Bool) (old : Mask),
     s.op? id = some o → o.kind = .rbind ok bind → s.opDue o = true → s.gang? o.gang = some x → s.tk? o.gang o.tk = some y →
     o.who = some (x.part, x.tenant) → s.part? x.part = some p → y.p[6]? = some old →
     let room := ∀ b, bind = some b → p.binds.length < 1024 ∧ b.1 + b.2.1 ≤ 2 ^ 48 ∧
       ∀ q ∈ p.binds, q.tenant = x.tenant → ¬ (q.lo < b.1 + b.2.1 ∧ b.1 < q.lo + q.len)
     ∃ (t : State) (y' : Tussock) (p' : Partition), exec (.loadComplete id) s = .next t ∧ t.op? id = none ∧ t.mem = s.mem ∧
       t.tk? o.gang o.tk = some y' ∧ t.part? x.part = some p' ∧
       (bind = none → y'.p[6]? = some ((old &&& ~~~o.mask) ||| (if ok then o.mask else 0)) ∧ p'.binds = p.binds) ∧
       (∀ b, bind = some b → (room → y'.p[6]? = some ((old &&& ~~~o.mask) ||| o.mask) ∧
           p'.binds = p.binds ++ [{ tenant := x.tenant, lo := b.1, len := b.2.1, obj := b.2.2, drain := 0 }]) ∧
         (¬ room → y'.p[6]? = some (old &&& ~~~o.mask) ∧ p'.binds = p.binds))) ∧
   (∀ (s : State) (id : Nat) (o : Op) (a : Acc) (drain : Nat), s.op? id = some o → o.kind = .relE a drain → a.done = false →
     a.at_ ≤ s.now → a.glob = true → a.size = 8 → a.act = .rmw 0 1 → s.mem.wf = true →
     ∃ t, exec (.storePerformed id 0) s = .next t ∧ t.mem.read a.addr 8 = (s.mem.read a.addr 8 + 1) % 2 ^ 64 ∧
       ∀ b, b < a.addr ∨ a.addr + 8 ≤ b → t.mem.get b = s.mem.get b))

/-- R33, R110, R111, R163, R245: ABINIT, ABEXP and ABARR send one update to the barrier's bank; ABWAIT completes at once or begins a long
wait; a wrong link raises #QERR, an address outside the allocation #PROT, a misaligned one #ALIGN. R242: BARG arrives whatever its guard
holds, waits for the phase that it saw, and the last arrival flips it. An update of a barrier at its bank: ABINIT's sixteen bytes, ABEXP
and ABARR with the completion test; the rest of scratchpad and all of global memory read as before. -/
def Obligations.Barriers : Prop :=
  (∀ (t : Tail) (a b d : USrc) s c, Passes s t c →
     let v := c.tk.uval a
     let n := (c.tk.uval b).extractLsb' 0 32
     let link := c.tk.uval d
     let badLink := link.toNat / 2 ^ 24 % 2 ^ 7 ≠ 0 ∨ 2 ^ 32 ≤ link.toNat
     let words := [Instr.abinit t a b d, .abexp t a b, .abarr t a b, .abwait t a b]
     let sends := fun (i : Instr) (kind : Nat) (l : BitVec 32) => ∃ s2 due, exec i s = retired t c s2 true ∧ SameData s s2 ∧
       c.clk + 10 ≤ due ∧ s2.ops = s.ops ++ [opOf c s (some c.core) due none (.barrier v.toNat kind n l)]
     let waits := fun (s' : State) (w : WaitCond) => Host.Outcome.next (s'.modSlot c.g c.t c.k (fun z =>
       { z with lastIssue := some c.clk, gap := t.gap.toNat, yld := t.yld, stall := none,
                wait := some { cond := w, start := s.now, d := .none, mask := c.act, next := c.sl.pc + 8, tl := t } }))
     let here := v.toNat < 2 ^ 32 ∧ v.toNat < c.x.foot.sp
     let plain := here ∧ v.toNat % 16 = 0 ∧ (s.core c.core).locks = [] ∧ ∀ x, s.gang? c.g = some x → ∀ w ∈ x.windows, w = none
     (c.act = 0 → ∀ i ∈ words, exec i s = retired t c (spent s) false) ∧
     (c.act ≠ 0 → badLink → exec (.abinit t a b d) s = trapped c s .qerr c.act 0 0) ∧
     (c.act ≠ 0 → ¬ badLink → ¬ here → ∀ i ∈ words, exec i s = trapped c s .prot c.act v.toNat 0) ∧
     (c.act ≠ 0 → ¬ badLink → here → v.toNat % 16 ≠ 0 → ∀ i ∈ words, exec i s = trapped c s .align c.act v.toNat 0) ∧
     (c.act ≠ 0 → plain → (¬ badLink → sends (.abinit t a b d) 0 (link.extractLsb' 0 32)) ∧ sends (.abexp t a b) 1 0 ∧
       sends (.abarr t a b) 2 0) ∧
     (c.act ≠ 0 → plain → c.ownAt (spent s) false v.toNat 16 = [] → s.sound = true →
       exec (.abwait t a b) s = if c.x.phaseOf v.toNat ≠ (c.tk.uval b).getLsbD 0 then retired t c (spent s) false
         else waits (spent s) (.barrier v.toNat ((c.tk.uval b).getLsbD 0))) ∧
     (c.ownBanks (spent s) ≠ [] → exec (.barg t) s = .next ((spent s).modSlot c.g c.t c.k (fun z =>
       { z with stall := some (.drain (c.ownBanks (spent s)) 0) }))) ∧
     (c.ownBanks (spent s) = [] → s.gang? c.g = some c.x → ∃ s', exec (.barg t) s = waits s' (.barg c.x.phase) ∧ s'.mem = s.mem ∧
       s'.ops = s.ops ∧
       let arrived := c.x.arrived ++ [(c.t, c.k)]
       let all := ∀ (j : Nat) (y : Tussock), c.x.tks[j]? = some y → y.ended = true ∨
         ∀ (q : Nat) (z : Slot), y.slots[q]? = some z → z.valid = true → (j, q) ∈ arrived
       ∃ x', s'.gang? c.g = some x' ∧ x'.sp = c.x.sp ∧ x'.tks = c.x.tks ∧
         (all → x'.phase = !c.x.phase ∧ x'.arrived = []) ∧ (¬ all → x'.phase = c.x.phase ∧ x'.arrived = arrived))) ∧
  (∀ (s : State) (id addr kind : Nat) (o : Op) (n link : BitVec 32) (x : Gang), s.op? id = some o →
     o.kind = .barrier addr kind n link → s.opDue o = true → s.gang? o.gang = some x → Memory.wf x.sp = true →
     let old := Memory.read x.sp addr 16
     let expect := (old % 2 ^ 32 + if kind = 1 then n.toNat else 0) % 2 ^ 32
     let arrived := (old / 2 ^ 32 % 2 ^ 32 + if kind = 1 then 0 else n.toNat) % 2 ^ 32
     let phase := old / 2 ^ 64 % 2
     let top := old / 2 ^ 65 * 2 ^ 65
     let full := expect ≠ 0 ∧ expect ≤ arrived
     let new := if kind = 0 then link.toNat * 2 ^ 96 + n.toNat
       else if full then top + (1 - phase) * 2 ^ 64 + (arrived - expect) * 2 ^ 32 else top + phase * 2 ^ 64 + arrived * 2 ^ 32 + expect
     (kind = 0 → s.arrivalComing o addr true = false) → (kind ≠ 0 → s.storeRaces o.gang addr (some (o.tk, o.slot)) = false) →
     ∃ (t : State) (x' : Gang), exec (.storePerformed id 0) s = .next t ∧ t.op? id = none ∧ t.mem = s.mem ∧
       t.gang? o.gang = some x' ∧ Memory.read x'.sp addr 16 = new ∧
       (∀ b, b < addr ∨ addr + 16 ≤ b → Memory.get x'.sp b = Memory.get x.sp b) ∧
       (kind = 0 ∨ ¬ full ∨ old < 2 ^ 127 → t.tasks = s.tasks))

/-- R118 to R121, R163, R227, R246, R247: SUBL's request and what it registers when it completes; UNSUB; SLWAIT at once or as a long wait.
-/
def Obligations.Subscriptions : Prop :=
  (∀ (t : Tail) (tr : BitVec 3) (a b : Src) (off : BitVec 6),
    let slots := fun (c : Ctx) (rd : Read) => ((List.range 32).filter (fun l => c.act.getLsbD l)).map (fun l =>
      (l, ((rd.v.getD 1 []).getD l 0).toNat % 2 ^ 32))
    Checks (.subl t tr a b off) t [(a, .int, 1), (b, .int, 1)]
      (fun c rd s => c.sublCheck s (c.part s) tr (lanesAt c rd (off.toInt * 8)) (slots c rd))
      (fun c rd ls s s2 => SameData s s2 ∧ ∃ due lanes, s.now + 100 ≤ due ∧
        s2.ops = s.ops ++ [sentOut c s none due rd.p6 (.subl lanes)] ∧
        lanes.map (fun e => (e.1, e.2.1, e.2.2.1)) = (ls.zip (slots c rd)).map (fun e => (e.1.1, e.1.2.2, e.2.2)))) ∧
  (∀ (t : Tail) (a : Src) s c rd, Passes s t c → c.read (spent s) [(a, .int, 1)] = .ok rd → c.act ≠ 0 →
    let slots := ((List.range 32).filter (fun l => c.act.getLsbD l)).map (fun l => ((rd.v.getD 0 []).getD l 0).toNat % 2 ^ 32)
    (∀ a ∈ slots, a < c.x.foot.sp ∧ a % 16 = 0) → ∃ s2 due, exec (.unsub t a) s = retired t c s2 true ∧ s2.mem = s.mem ∧
      s.now < due ∧ s2.ops = s.ops ++ [sentOut c s none due rd.p6 (.unsub slots)] ∧
      ∀ e ∈ s2.subs, ∀ q ∈ e.subs, ¬ (q.gang = c.g ∧ q.slot ∈ slots)) ∧
  (∀ (t : Tail) (d : Dst) (a b : Src) s c rd, Passes s t c → c.read (spent s) [(a, .int, 1), (b, .int, 1)] = .ok rd → c.act ≠ 0 →
    (s.core c.core).locks = [] → (∀ x, s.gang? c.g = some x → ∀ w ∈ x.windows, w = none) → s.sound = true →
    let lanes := (List.range 32).filter (fun l => c.act.getLsbD l)
    let at_ := fun (l : Nat) => ((rd.v.getD 0 []).getD l 0).toNat % 2 ^ 32
    let seq := fun (l : Nat) => Memory.read c.x.sp (at_ l + 8) 2
    let known := fun (l : Nat) => ((rd.v.getD 1 []).getD l 0).toNat % 2 ^ 16
    let i := Instr.slwait t d a b
    (∀ l ∈ lanes, at_ l < c.x.foot.sp ∧ at_ l % 16 = 0 ∧ c.ownAt (spent s) false (at_ l) 16 = []) →
    ((∀ l ∈ lanes, seq l ≠ known l) → ∃ s2 vals, exec i s = retired t c s2 true ∧ SameData rd.s s2 ∧
      s2.ops = s.ops ++ [opOf c s (some c.core) (c.clk + 20) rd.p6 (.values (goesTo d 1) vals none none)] ∧
      ∀ l ∈ lanes, vals.getD l 0 = BitVec.ofNat 128 (seq l)) ∧
    ((∃ l ∈ lanes, seq l = known l) → ∃ s2, exec i s = .next (s2.modSlot c.g c.t c.k (fun z =>
        { z with
          lastIssue := some c.clk, gap := t.gap.toNat, yld := t.yld, stall := none
          wait := some { cond := .seq (lanes.map (fun l => (l, at_ l, if seq l ≠ known l then none else some (BitVec.ofNat 16 (known l)))))
                         start := s.now, d := goesTo d 1, mask := c.act, next := c.sl.pc + 8, tl := t, p6 := rd.p6 } })) ∧
      SameData rd.s s2)) ∧
  (∀ (s : State) (id l loc slot leaf : Nat) (o : Op) (x : Gang) (y : Tussock) (p : Partition) (old : Mask), s.op? id = some o →
    o.kind = .subl [(l, loc, slot, leaf)] → s.opDue o = true → s.gang? o.gang = some x → s.tk? o.gang o.tk = some y →
    o.who = some (x.part, x.tenant) → s.sound = true → s.part? x.part = some p → y.p[6]? = some old → l < 32 → Memory.wf x.sp = true →
    let entry := s.subs.find? (fun e => e.addr == loc)
    let ok := (∀ e ∈ s.subs, ∀ q ∈ e.subs, ¬ (q.gang = o.gang ∧ q.slot = slot)) ∧
      match entry with
      | some e => e.subs.length < 16
      | none => (s.subs.filter (fun e => e.home == homeOf p loc)).length < 4096
    let bit : Mask := BitVec.ofNat 32 (2 ^ l)
    ∃ (t : State) (x' : Gang) (y' : Tussock), exec (.loadComplete id) s = .next t ∧ t.op? id = none ∧ t.mem = s.mem ∧
      t.gang? o.gang = some x' ∧ t.tk? o.gang o.tk = some y' ∧
      (ok → y'.p[6]? = some ((old &&& ~~~o.mask) ||| (if o.p6 = some false then 0 else bit &&& o.mask)) ∧
        (∃ e ∈ t.subs, e.addr = loc ∧ { gang := o.gang, slot := slot, leaf := leaf } ∈ e.subs) ∧
        Memory.read x'.sp slot 16 = s.mem.read loc 8 ∧
        ∀ b, b < slot ∨ slot + 16 ≤ b → Memory.get x'.sp b = Memory.get x.sp b) ∧
      (¬ ok → y'.p[6]? = some (old &&& ~~~o.mask) ∧ t.subs = s.subs ∧ x'.sp = x.sp))

/-- R123 to R125, R163, R248, R249: FSET and FGET at a cell that is read, empty or full, blocking or not; QCFG's checks and what it
configures. -/
def Obligations.FuturesAndQueueConfiguration : Prop :=
  (∀ (t : Tail) (sp nb : Bool) (a b : USrc) (d : Dst) s c, Passes s t c →
    let v := c.tk.uval a
    let p := c.part s
    let cellOf := c.cell (spent s) p sp
    let core := if sp then some c.core else none
    (c.act = 0 → exec (.fset t sp nb a b) s = retired t c (spent s) false ∧ exec (.fget t sp nb d a) s = retired t c (spent s) false) ∧
    (∀ e, c.act ≠ 0 → cellOf true v = .error e → exec (.fset t sp nb a b) s = c.finish t (spent s) e) ∧
    (∀ e, c.act ≠ 0 → cellOf false v = .error e → exec (.fget t sp nb d a) s = c.finish t (spent s) e) ∧
    (∀ s1 x old, c.act ≠ 0 → cellOf true v = .ok (s1, x, old) → s1.mem.wf = true →
      (sp = true → c.ownBanks s1 = []) → (sp = false → s1.ownAccs c.g c.t c.k = [] ∧ s1.fifoAll (c.core / 8) ≤ s1.now) →
      let full := old.getLsbD 64
      (full = true → nb = false → exec (.fset t sp nb a b) s = trapped c s .futrew c.act 0 0) ∧
      (full = true → nb = true → ∃ s2 due, exec (.fset t sp nb a b) s = retired t c s2 true ∧ SameData s1 s2 ∧
        (if sp then opOf c s1 core due (some false) .tagOnly else sentOut c s1 core due (some false) .tagOnly) ∈ s2.ops) ∧
      (full = false → ∀ y, s1.gang? c.g = some y → Memory.wf y.sp = true → ∃ s2 y' o, exec (.fset t sp nb a b) s = retired t c s2 true ∧
        o ∈ s2.ops ∧ o.kind = .tagOnly ∧ o.gang = c.g ∧ o.tag = c.tag ∧ o.p6 = (if nb then some true else none) ∧
        s2.gang? c.g = some y' ∧
        (let new := old.toNat / 2 ^ 65 * 2 ^ 65 + 2 ^ 64 + (c.tk.uval b).toNat
         (sp = false → (let m := (s1.setDirty p c.x.tenant v.toNat).mem
           s2.mem.read x 16 = new ∧ y'.sp = y.sp ∧ ∀ k, k < x ∨ x + 16 ≤ k → s2.mem.get k = m.get k)) ∧
         (sp = true → y.core = some c.core → Memory.read y'.sp x 16 = new ∧ s2.mem = s1.mem ∧
           ∀ k, k < x ∨ x + 16 ≤ k → Memory.get y'.sp k = Memory.get y.sp k)) ∧
        ∀ w ∈ s2.waiters, ¬ (w.glob = !sp ∧ w.addr = x ∧ (sp = false ∨ w.gang = c.g)))) ∧
    (∀ s1 x old, c.act ≠ 0 → cellOf false v = .ok (s1, x, old) →
      let full := old.getLsbD 64
      (full = true ∨ nb = true → ∃ s2 due, exec (.fget t sp nb d a) s = retired t c s2 true ∧ SameData s1 s2 ∧ c.clk < due ∧
        let kind := OpKind.values (goesTo d 2) (List.replicate 32 (if full then BitVec.ofNat 128 (old.toNat % 2 ^ 64) else 0)) none none
        let p6 := if nb then some full else none
        s2.ops = s1.ops ++ [if sp then opOf c s1 (some c.core) due p6 kind else sentOut c s1 (some c.core) due p6 kind]) ∧
      (full = false → nb = false → exec (.fget t sp nb d a) s =
        .next (({ s1 with waiters := s1.waiters ++ [{ glob := !sp, addr := x, leaf := if sp then 0 else s1.leafOf p c.x.tenant v.toNat, gang := c.g, tk := c.t, slot := c.k }] } : State).modSlot c.g c.t c.k
          (fun z => { z with
            lastIssue := some c.clk, gap := t.gap.toNat, yld := t.yld, stall := none
            wait := some { cond := .future sp x, start := s1.now, d := goesTo d 2, mask := c.act, next := c.sl.pc + 8, tl := t } }))))) ∧
  (∀ (t : Tail) (n : BitVec 2) (a b : USrc) s c, Passes s t c →
    let base := (c.tk.uval a).toNat
    let count := (c.tk.uval b).toNat
    let i := Instr.qcfg t n a b
    let set := fun (q : Option WQueue) => retired t c ((spent s).modGang c.g (fun y => { y with wqs := y.wqs.set n.toNat q })) false
    (c.act = 0 → exec i s = retired t c (spent s) false) ∧
    (c.act ≠ 0 → count ≠ 0 → (count < 2 ∨ 1024 < count ∨ base % 128 ≠ 0) → exec i s = trapped c s .qerr c.act 0 0) ∧
    (c.act ≠ 0 → 2 ≤ count → count ≤ 1024 → base % 128 = 0 → base < 2 ^ 32 → c.x.foot.sp < base + 128 * count →
      exec i s = trapped c s .qerr c.act 0 0) ∧
    (c.act ≠ 0 → 2 ≤ count → count ≤ 1024 → base % 128 = 0 → 2 ^ 32 ≤ base → exec i s = trapped c s .prot c.act base 0) ∧
    (c.act ≠ 0 → (spent s).pushing c.g n.toNat = [] → count = 0 → exec i s = set none) ∧
    (c.act ≠ 0 → (spent s).pushing c.g n.toNat = [] → 2 ≤ count → count ≤ 1024 → base % 128 = 0 → base < 2 ^ 32 →
      base + 128 * count ≤ c.x.foot.sp → exec i s = set (some { base := base, entries := count, head := 0, tail := 0, visible := [] })) ∧
    (c.act ≠ 0 → (c.x.wqs[n.toNat]?).join ≠ none → (spent s).pushing c.g n.toNat ≠ [] → count = 0 →
      exec i s = .next ((spent s).modSlot c.g c.t c.k (fun z => { z with stall := some (.drain ((spent s).pushing c.g n.toNat) 0) }))))

/-- R85, R251, R253, R254, R257, R259 to R262, R277, R278: the tile instructions without arithmetic, of a gang with no tile operation in
flight, by their checks: what they send on its way and when it completes; a cell that was last written in the other form is read as any
value. -/
def Obligations.TileMovement : Prop :=
  ∀ (t : Tail) (xd xs : BitVec 5) (y : BitVec 4) (a : USrc) (g : BitVec 6) (tr cf : Bool) (d : Dst) (mask : BitVec 5) s c,
    Acts s t c → (∀ o ∈ s.ops, o.gang = c.g → ∀ k n, o.kind ≠ .tile k n) → s.dev.injs = [] → (s.core c.core).locks = [] →
    (∀ x, s.gang? c.g = some x → ∀ w ∈ x.windows, w = none) →
    let sends := fun (i : Instr) (lat : Nat) (k : TileOp) (names : List Nat) =>
      exec i s = retired t c (inFlight c (spent s) lat (.tile k names)) true
    let shape := fun (i : Instr) => exec i s = trapped c s .shape c.act 0 0
    let v := c.tk.g.getD g.toNat 0
    let base := v.toNat % 2 ^ 32
    let pitch := v.toNat / 2 ^ 32 % 2 ^ 16
    let path := fun (i : Instr) (rows len : Nat) (k : TileOp) (name : Nat) =>
      let hi := base + (rows - 1) * pitch + len
      (2 ^ 48 ≤ v.toNat → exec i s = trapped c s .qerr c.act 0 0) ∧
      (v.toNat < 2 ^ 48 → c.x.foot.sp < hi → exec i s = trapped c s .prot c.act base 0) ∧
      (v.toNat < 2 ^ 48 → hi ≤ c.x.foot.sp → base % 4 ≠ 0 ∨ pitch % 4 ≠ 0 → exec i s = trapped c s .align c.act base 0) ∧
      (v.toNat < 2 ^ 48 → hi ≤ c.x.foot.sp → base % 4 = 0 → pitch % 4 = 0 →
        sends i (20 + (rows * len + 255) / 256 + rows * ((len / 4 + 63) / 64 - 1)) k [name])
    let reads := fun (rows len : Nat) => (List.range rows).map (fun i =>
      ({ at_ := c.clk + 10 + i + i * ((len / 4 + 63) / 64 - 1), addr := (base + i * pitch) % 2 ^ 32, len := len } : RowRead))
    (c.x.xt[xd.toNat]? = none → shape (.xzero t xd) ∧ shape (.xshape t xd a) ∧ shape (.xld t xd g) ∧ shape (.xst t xd g)) ∧
    (c.x.yt[y.toNat]? = none → shape (.yzero t y) ∧ shape (.yld t y g cf) ∧ shape (.yst t y g cf) ∧ shape (.mwait t y) ∧
      shape (.yevtRd t d y) ∧ shape (.yevtClr t y mask)) ∧
    (∀ q, c.x.xt[xd.toNat]? = some q →
      let w := ctlBits q.ctl
      let rows := ctlRows q.ctl
      let len := ctlCols q.ctl * w / 8
      let row := fun (i : Nat) => (base + i * pitch, bytesOfNat len (q.bits.toNat / 2 ^ (8 * len * i)))
      sends (.xzero t xd) 4 (.setX xd.toNat 65536 0) [xd.toNat] ∧
      (ctlValid (c.tk.uval a) = false → shape (.xshape t xd a)) ∧
      (ctlValid (c.tk.uval a) = true → (spent s).tileNamed c.g xd.toNat = true → (spent s).loopOn c.g xd.toNat = false → shape (.xshape t xd a)) ∧
      (ctlValid (c.tk.uval a) = true → (spent s).tileNamed c.g xd.toNat = false →
        let kind : OpKind := .tile (.setCtl xd.toNat (c.tk.uval a)) []
        exec (.xshape t xd a) s = retired t c ((spent s).addOp (fun id =>
          { id := id, gang := c.g, tk := c.t, slot := c.k, core := some c.core, at_ := c.clk + 2, mask := c.act, kind := kind })).1 false) ∧
      (w = 0 ∨ ctlCols q.ctl * w % 32 ≠ 0 → shape (.xld t xd g) ∧ shape (.xst t xd g)) ∧
      (w ≠ 0 → ctlCols q.ctl * w % 32 = 0 →
        path (.xld t xd g) rows len (.xld xd.toNat (reads rows len)) xd.toNat ∧
        (1 < rows → pitch < len → shape (.xst t xd g)) ∧
        ((rows ≤ 1 ∨ len ≤ pitch) → path (.xst t xd g) rows len (.store ((List.range rows).map row)) xd.toNat)) ∧
      (∀ z, c.x.xt[xs.toNat]? = some z →
        let from_ := portShape z.ctl tr
        (w = 0 ∨ from_ ≠ (ctlFmt q.ctl, rows, ctlCols q.ctl) → shape (.xmov t xd xs tr)) ∧
        (w ≠ 0 → from_ = (ctlFmt q.ctl, rows, ctlCols q.ctl) → ctlSize q.ctl ≤ 65536 → ∃ bits : BitVec 65536,
          sends (.xmov t xd xs tr) (8 + (ctlSize q.ctl + 2047) / 2048) (.setX xd.toNat (ctlSize q.ctl) bits) [xd.toNat, xs.toNat] ∧
          ∀ i j, i < rows → j < ctlCols q.ctl → bits.extractLsb' ((i * ctlCols q.ctl + j) * w) w =
            z.bits.extractLsb' ((if tr then j * ctlCols z.ctl + i else i * ctlCols z.ctl + j) * w) w))) ∧
    (∀ q, c.x.yt[y.toNat]? = some q →
      let code := 32 + y.toNat
      let rb := if cf then 256 else 512
      let bytes := fun (z : BitVec 40) => if cf then bytesOfNat 4 (z.toNat % 2 ^ 32) else bytesOfNat 8 z.toNat
      let row := fun (cells : List (BitVec 40)) (i : Nat) => (base + i * pitch, ((cells.drop (64 * i)).take 64).flatMap bytes)
      let here := v.toNat < 2 ^ 48 ∧ base + 63 * pitch + rb ≤ c.x.foot.sp ∧ base % 4 = 0 ∧ pitch % 4 = 0
      sends (.yzero t y) 4 (.setCells y.toNat ((List.range 4096).map (fun i => (i, 0))) [] none) [code] ∧
      path (.yld t y g cf) 64 rb (.yld y.toNat cf (reads 64 rb)) code ∧
      (pitch < rb → shape (.yst t y g cf)) ∧
      (rb ≤ pitch → cf = false ∨ q.res = 0 → path (.yst t y g cf) 64 rb (.store ((List.range 64).map (row q.cells))) code) ∧
      (rb ≤ pitch → cf = true → here → ∃ s2 cells due, exec (.yst t y g cf) s = retired t c s2 true ∧ SameData s s2 ∧ Says.reads q true cells ∧
        s2.ops = s.ops ++ [opOf c s (some c.core) due none (.tile (.store ((List.range 64).map (row cells))) [code])]) ∧
      sends (.yevtRd t d y) 4 (.evRd (goesTo d 1) q.events) [code] ∧ sends (.yevtClr t y mask) 4 (.evClr y.toNat mask) [code] ∧
      (c.mwaitOps (spent s) y.toNat = [] ∨ c.sl.phase.started = true →
        exec (.mwait t y) s = retired t c ((spent s).raise c.g c.t c.act (splat (flagsOfEvents q.events)) 0) false) ∧
      (c.mwaitOps (spent s) y.toNat ≠ [] → c.sl.phase.started = false → exec (.mwait t y) s =
        .next ((spent s).modSlot c.g c.t c.k (fun z =>
          { z with phase := { z.phase with started := true }, stall := some (.drain (c.mwaitOps (spent s) y.toNat) 0) }))))

/-- R85, R257, R263, R264, R274 to R276: MMA, YCVT, YSCA and YRED of a gang with no tile operation in flight: the checks of shapes, the
cells and events that they send on their way, computed from the cells as they read them in their form, and when they are written. -/
def Obligations.TileArithmetic : Prop :=
  ∀ (t : Tail) (pair : BitVec 3) (yd ys : BitVec 4) (xa xb : BitVec 5) (ta tb sf : Bool) s c,
    Acts s t c → (∀ o ∈ s.ops, o.gang = c.g → ∀ k n, o.kind ≠ .tile k n) → s.dev.injs = [] →
    let sends := fun (i : Instr) (s' : State) (lat : Nat) (k : TileOp) (names : List Nat) =>
      ∃ s2, exec i s = retired t c s2 true ∧ SameData s' s2 ∧ s2.parts = s.parts ∧
        s2.ops = s.ops ++ [opOf c s (some c.core) (c.clk + lat) none (.tile k names)]
    let shape := fun (i : Instr) => exec i s = trapped c s .shape c.act 0 0
    let yc := fun (y : BitVec 4) => 32 + y.toNat
    let evs := fun (l : List (Nat × BitVec 40 × BitVec 5)) => l.foldl (fun m e => m ||| e.2.2) 0
    let new := fun (l : List (Nat × BitVec 40 × BitVec 5)) => l.map (fun e => (e.1, e.2.1))
    ∀ d q, c.x.yt[yd.toNat]? = some d → c.x.yt[ys.toNat]? = some q →
    (∀ a b, c.x.xt[xa.toNat]? = some a → c.x.xt[xb.toNat]? = some b →
      let A := portShape a.ctl ta
      let B := portShape b.ctl tb
      let ok := (A.1, B.1) = pairFmts pair.toNat ∧ A.2.2 = B.2.1 ∧ A.2.1 ≤ 64 ∧ B.2.2 ≤ 64
      let r := product pair.toNat (matrixOf a.bits a.ctl ta) (matrixOf b.bits b.ctl tb) (fun _ _ => true)
      let engine := (A.2.1 * B.2.2 * A.2.2 * pairCost pair.toNat + 32767) / 32768
      let ends := max c.clk (s.core c.core).mmBusy + engine
      (¬ ok → shape (.mma t pair yd xa xb ta tb)) ∧
      (ok → ∃ cells, Says.reads d (pair != 3) cells ∧
        sends (.mma t pair yd xa xb ta tb) ((spent s).modCore c.core (fun k => { k with mmBusy := ends })) (ends + 8 - c.clk)
          (.setCells yd.toNat (r cells).1 [(yd.toNat, (r cells).2)] (some (pair != 3))) [xa.toNat, xb.toNat, yc yd])) ∧
    (∀ b, c.x.xt[xb.toNat]? = some b →
      let ok := ctlFmt b.ctl = 1 ∧ 2 ≤ ctlRows b.ctl ∧ 64 ≤ ctlCols b.ctl
      let es := fun (k : Nat) => decF f32 (b.bits.extractLsb' (32 * k) 32).toNat
      let sr := fun (k : Nat) => es (k / 64)
      let sc := fun (k : Nat) => es (ctlCols b.ctl + k % 64)
      let cvt := fun (from_ : List (BitVec 40)) => from_.zipIdx.map (fun e => (e.2, ycvtCell sf (sr e.2) (sc e.2) e.1))
      let sca := fun (from_ dest : List (BitVec 40)) => (from_.zip dest).zipIdx.map (fun e => (e.2, yscaCell sf (sr e.2) (sc e.2) e.1.1 e.1.2))
      (¬ ok → shape (.ycvt t yd ys xb sf) ∧ shape (.ysca t yd ys xb sf)) ∧
      (ok → (∃ from_, Says.reads q sf from_ ∧
          sends (.ycvt t yd ys xb sf) (spent s) 24 (.setCells yd.toNat (new (cvt from_)) [(ys.toNat, evs (cvt from_))] (some true))
            [xb.toNat, yc yd, yc ys]) ∧
        ∃ from_ dest, Says.reads q sf from_ ∧ Says.reads d true dest ∧
          sends (.ysca t yd ys xb sf) (spent s) 24 (.setCells yd.toNat ((sca from_ dest).map (fun e => (e.1, e.2.1)))
            [(ys.toNat, (sca from_ dest).foldl (fun m e => m ||| e.2.2.1) 0), (yd.toNat, (sca from_ dest).foldl (fun m e => m ||| e.2.2.2) 0)]
            (some true)) [xb.toNat, yc yd, yc ys])) ∧
    (∃ from_ dest, Says.reads q sf from_ ∧ Says.reads d sf dest ∧
      (let red := (from_.zip dest).zipIdx.map (fun e => (e.2, yredCell sf e.1.1 e.1.2))
       sends (.yred t yd ys sf) (spent s) 24 (.setCells yd.toNat (new red) [(yd.toNat, evs red)] (some sf)) [yc yd, yc ys]))

/-- R85, R86, R90, R91, R276: a product step adds each RN8 term to every channel of a residue cell modulo its modulus, YRED adds two
residue cells channel by channel; in the FP forms each group of k is added to the cell as one exact sum and rounded once to nearest, group
by group in ascending k. -/
def Obligations.ProductsAndReductions : Prop :=
  (∀ (a b : Nat → Nat) (used : Nat → Bool) (k : Nat) (cell : BitVec 40), ∀ e ∈ [(255, 0, 8), (256, 8, 8), (257, 16, 9), (251, 25, 8)],
    let ch := fun (z : BitVec 40) => (z.extractLsb' e.2.1 e.2.2).toNat
    let term := fun (i : Nat) => (decRN8 (BitVec.ofNat 8 (a i))).1 * (decRN8 (BitVec.ofNat 8 (b i))).1
    (ch (rnCell a b used k cell).1 : Int) =
      ((ch cell : Int) + total (((List.range k).filter used).map term)) % (e.1 : Int)) ∧
  (∀ (u v : BitVec 40), ∀ e ∈ [(255, 0, 8), (256, 8, 8), (257, 16, 9), (251, 25, 8)],
    let ch := fun (z : BitVec 40) => (z.extractLsb' e.2.1 e.2.2).toNat
    ch (yredCell false u v).1 = (ch u + ch v) % e.1 ∧ (yredCell false u v).2 = 0) ∧
  (∀ (p n acc : Nat) (a b : Nat → Nat), p < 6 → p ≠ 3 → 0 < n → n ≤ pairGroup p → finite f32 acc = true → acc < 2 ^ 32 →
    let va := fun (i : Nat) => elemVal (pairFmts p).1 (a i)
    let vb := fun (i : Nat) => elemVal (pairFmts p).2 (b i)
    (∀ i, i < n → isReal (va i) ∧ isReal (vb i)) →
    let s := ((List.range n).map (fun i => valueOf (va i) * valueOf (vb i))).sum
    ∃ sg, IsRound f32 0 false (real f32 acc + s) sg (fpCell p (pairFmts p).1 (pairFmts p).2 a b (fun _ => true) n acc)) ∧
  (∀ (p fa fb q n acc : Nat) (a b : Nat → Nat), 0 < n → n ≤ pairGroup p →
    let w := pairGroup p
    let before := fpCell p fa fb a b (fun _ => true) (q * w) acc
    let last := fpCell p fa fb (fun i => a (q * w + i)) (fun i => b (q * w + i)) (fun _ => true) n before.1
    fpCell p fa fb a b (fun _ => true) (q * w + n) acc = (last.1, before.2 ||| last.2))

/-- R93, R253, R254, R257, R258, R260 to R262, R278: a tile operation that completes: the shape, array, cells, events or scratchpad bytes
that it writes, and nothing else of the gang. -/
def Obligations.TileOperationsComplete : Prop :=
  ∀ (s : State) (id : Nat) (o : Op) (k : TileOp) (names : List Nat) (x : Gang), s.op? id = some o → o.kind = .tile k names →
    o.at_ ≤ s.opClk o → s.gang? o.gang = some x → (∀ q ∈ s.ops, q.gang = o.gang → q.id ≠ o.id → ∀ k n, q.kind ≠ .tile k n) →
    (∀ q ∈ s.ops, ∀ l, q.kind ≠ .loop l) →
    ∃ (t : State) (x' : Gang), exec (.tileOpComplete id) s = .next t ∧ t.op? id = none ∧ t.gang? o.gang = some x' ∧ t.mem = s.mem ∧
      (∀ g, g ≠ o.gang → t.gang? g = s.gang? g) ∧
      (let rows := fun (rs : List RowRead) => rs.flatMap (fun r => r.got.getD (x.arr.bytes r.addr r.len))
       let untouched := x'.sp = x.sp ∧ x'.arr = x.arr
       match k with
       | .setCtl n v => untouched ∧ x'.yt = x.yt ∧ x'.xt = x.xt.modify n (fun q => { q with ctl := v })
       | .setX n w bits => untouched ∧ x'.yt = x.yt ∧ x'.xt = x.xt.modify n (fun q => { q with bits := lowOver w bits (x.xt.getD n {}).bits })
       | .xld n rs => untouched ∧ x'.yt = x.yt ∧
           (let bits := lowOver (8 * (rows rs).length) (BitVec.ofNat 65536 (natOfBytes (rows rs))) (x.xt.getD n {}).bits
            x'.xt = x.xt.modify n (fun q => { q with bits := bits }))
       | .yld n f rs => untouched ∧ x'.xt = x.xt ∧
           (let w := if f then 4 else 8
            let cells := rs.flatMap (fun r => (List.range 64).map (fun j =>
              BitVec.ofNat 40 (natOfBytes (((r.got.getD (x.arr.bytes r.addr r.len)).drop (w * j)).take w))))
            x'.yt = x.yt.modify n (fun q => { q.formed (if f then some true else none) (List.range 4096) with cells := cells }))
       | .setCells n cells evs fp => untouched ∧ x'.xt = x.xt ∧ x'.yt = evs.foldl (fun ts e =>
           ts.modify e.1 (fun q => { q with events := q.events ||| e.2 })) (x.yt.modify n (fun q => { q.formed fp (cells.map (fun e => e.1)) with cells := setCellList (x.yt.getD n {}).cells cells }))
       | .store rs => x'.xt = x.xt ∧ x'.yt = x.yt ∧ (Memory.wf x.sp = true →
           (∀ a, (∀ r ∈ rs, a < r.1 ∨ r.1 + r.2.length ≤ a) → Memory.get x'.sp a = Memory.get x.sp a) ∧
           (∀ r j, rs = [r] → j < r.2.length → Memory.get x'.sp (r.1 + j) = r.2.getD j 0))
       | .evRd _ _ => untouched ∧ x'.xt = x.xt ∧ x'.yt = x.yt
       | .evClr n mask => untouched ∧ x'.xt = x.xt ∧ x'.yt = x.yt.modify n (fun q => { q with events := q.events &&& ~~~mask }))

/-- R265, R266, R269, R270, R273: MLOOP: the traps of its checks, an early member of a team that waits, and a team of one with leave and
lock room, which starts: range locks on both sources, the tokens drawn, the slot's word retired. LEAVE: #QERR, 0 gives back what the
tussock holds, else a grant from the bucket or a queued request. -/
def Obligations.MatrixLoopsAndLeave : Prop :=
  (∀ (t : Tail) (e : EFields) (f : LoopFields) s c, Acts s t c → s.gang? c.g = some c.x → s.slot? c.g c.t c.k = some c.sl →
    let i := Instr.mloop t e f
    let reg := if e.abs = 0 then 0 else c.tk.g.getD (e.p.toNat + 3 + e.abs.toNat) 0
    let bar := if e.abs = 0 then none else some (reg.toNat % 2 ^ 32)
    let params := (List.range 4).map (fun k => c.tk.g.getD (e.p.toNat + k) 0)
    let l : Loop := { team := c.t / c.x.foot.team, word := loopWord e f, bar := bar, barReg := reg, members := [], params := params,
                      ca := c.x.ctl f.x.toNat, cb := c.x.ctl (f.x.toNat + 2) }
    let me : Member := { tk := c.t, slot := c.k, tag := c.tag, act := c.act, tl := t }
    c.t ∉ c.x.teammis →
    (∀ r, c.loopCheck (spent s) l = some r → exec i s = c.finish t (spent s) r) ∧
    (c.loopCheck (spent s) l = none → c.x.arrivals = [] → 1 < c.x.foot.team → ∃ s' x' z', exec i s = .next s' ∧ s'.mem = s.mem ∧
      s'.ops = s.ops ∧ s'.gang? c.g = some x' ∧ x'.arrivals = [{ l with members := [me] }] ∧ s'.slot? c.g c.t c.k = some z' ∧
      z'.pc = c.sl.pc ∧ z'.wait = some { cond := .team, start := s.now, mask := c.act, next := c.sl.pc + 8, tl := t }) ∧
    (c.loopCheck (spent s) l = none → c.x.arrivals = [] → c.x.foot.team = 1 → (∀ w ∈ c.x.windows, w = none) →
      (∀ o ∈ s.ops, o.id < s.nextOp) → l.tokens ≤ c.tk.tokens → (s.core c.core).locks.length ≤ 30 → c.core < s.cores.length →
      c.sl.join ≠ some (c.sl.pc + 8) → c.sl.mask ≠ 0 →
      ∃ s' y' z' o l', exec i s = .next s' ∧ s'.mem = s.mem ∧ s'.tk? c.g c.t = some y' ∧ y'.tokens = c.tk.tokens - l.tokens ∧
        s'.slot? c.g c.t c.k = some z' ∧ z'.pc = c.sl.pc + 8 ∧ z'.wait = none ∧
        s'.op? s.nextOp = some o ∧ o.kind = .loop l' ∧ l'.started = true ∧ l'.step = 0 ∧ l'.members = [me] ∧
        l'.word = l.word ∧ l'.params = l.params ∧ l'.bar = bar ∧
        (s'.core c.core).locks = (s.core c.core).locks ++ (l.ranges.take 2).map (fun r =>
          { op := s.nextOp, gang := c.x.id, glob := false, part := c.x.part, tenant := c.x.tenant, lo := r.1, hi := r.2, isDst := false }))) ∧
  (∀ (t : Tail) (a : USrc) s c, Issues s t c →
    let v := c.tk.uval a
    let i := Instr.leave t a
    let asked := (spent s).askLeave c.g c.t c.k v.toNat none true
    (c.act = 0 → exec i s = retired t c (spent s) false) ∧
    (c.act ≠ 0 → 2 ^ 16 ≤ v.toNat → exec i s = trapped c s .qerr c.act 0 0) ∧
    (c.act ≠ 0 → v = 0 → exec i s = retired t c (((spent s).modDev (fun d => { d with pool := d.pool + c.tk.tokens })).modTk c.g c.t
      (fun y => { y with tokens := 0 })) false) ∧
    (c.act ≠ 0 → v.toNat < 2 ^ 16 → v ≠ 0 → c.sl.phase.granted = true → exec i s = retired t c (spent s) false) ∧
    (∀ p, c.act ≠ 0 → v.toNat < 2 ^ 16 → v ≠ 0 → c.sl.phase.granted = false → s.part? c.x.part = some p → s.gang? c.g = some c.x →
      let n := min v.toNat 4218
      let now := p.running = some c.x.tenant ∧ n ≤ p.bucket ∧ ∀ e ∈ c.x.power, p.spentOf c.x.tenant e.1 + n ≤ e.2
      (now → exec i s = retired t c asked.1 false ∧ asked.1.mem = s.mem ∧ asked.1.dev = s.dev ∧
        (∀ p', asked.1.part? c.x.part = some p' → p'.bucket + n = p.bucket) ∧
        ∀ y', asked.1.tk? c.g c.t = some y' → y'.tokens = c.tk.tokens + n) ∧
      (¬ now → exec i s = .next (asked.1.modSlot c.g c.t c.k (fun z => { z with stall := some (.leave s.nextSeq) })) ∧
        ∃ r, asked.1.dev.poolQ = s.dev.poolQ ++ [r] ∧ r.gang = c.g ∧ r.tk = c.t ∧ r.slot = c.k ∧ r.tokens = n ∧ r.op = none ∧ r.hold = true)))

/-- R126, R281 to R284: SDEF, SSTART and SSTOP with their traps; a stream fetch that takes one entry or meets a fault; ISECT on two lists
by its prefixes, and the word that sends its pairs and its status on their way. -/
def Obligations.StreamsAndIntersection : Prop :=
  (∀ (t : Tail) (n : BitVec 2) (a b e : USrc) (d : Dst) s c, Acts s t c →
    let ib := (c.tk.uval a).toNat
    let db := (c.tk.uval b).toNat
    let ct := (c.tk.uval e).toNat
    let elog := ct / 2 ^ 32 % 4
    let st := c.tk.s.getD n.toNat {}
    let put := fun (f : Stream → Stream) => (spent s).modTk c.g c.t (fun y => { y with s := y.s.modify n.toNat f })
    let i := Instr.sdef t n a b e
    let fine := ct < 2 ^ 35 ∧ elog ≠ 3
    let first := c.sl.homes.foldl (fun m e => max m e.2) (max (s.now + 1) (s.fifoAll (c.core / 8)))
    (¬ fine → exec i s = trapped c s .qerr c.act 0 0) ∧
    (fine → ib % 4 ≠ 0 → exec i s = trapped c s .align c.act ib 0) ∧
    (fine → ib % 4 = 0 → db % 2 ^ elog ≠ 0 → exec i s = trapped c s .align c.act db 0) ∧
    (fine → ib % 4 = 0 → db % 2 ^ elog = 0 → 2 ^ 48 ≤ ib → exec i s = trapped c s .xlate c.act ib 0) ∧
    (fine → ib % 4 = 0 → db % 2 ^ elog = 0 → ib < 2 ^ 48 → 2 ^ 48 ≤ db → exec i s = trapped c s .xlate c.act db 0) ∧
    (fine → ib % 4 = 0 → db % 2 ^ elog = 0 → ib < 2 ^ 48 → db < 2 ^ 48 →
      let new : Stream := { bound := true, ibase := BitVec.ofNat 48 ib, dbase := BitVec.ofNat 48 db, elog := elog,
                            sx := (c.tk.uval e).getLsbD 34, count := ct % 2 ^ 32 }
      exec i s = retired t c (put (fun _ => new)) false) ∧
    (st.bound = false → exec (.sstart t n a) s = trapped c s .qerr c.act 0 0 ∧ exec (.sstop t d n) s = trapped c s .qerr c.act 0 0) ∧
    (st.bound = true → exec (.sstart t n a) s = retired t c (put (fun q =>
        { q with started := true, cursor := ib % 2 ^ 32, next := ib % 2 ^ 32, fifo := [], faulted := false, due := first })) false ∧
      let stopped := put (fun q => { q with started := false, next := q.cursor, fifo := [], faulted := false })
      let word := st.cursor % 2 ^ 32 + (if st.started then 2 ^ 32 else 0) + (if st.count ≤ st.cursor then 2 ^ 33 else 0) +
        (if st.faulted then 2 ^ 34 else 0)
      ∃ s2 due, exec (.sstop t d n) s = retired t c s2 true ∧ SameData stopped s2 ∧ c.clk < due ∧
        s2.ops = s.ops ++ [opOf c s (some c.core) due none (.values (goesTo d 2) (List.replicate 32 (BitVec.ofNat 128 word)) none none)])) ∧
  (∀ (s : State) (g t n core : Nat) (x : Gang) (y : Tussock) (st : Stream) (p : Partition), s.gang? g = some x → s.tk? g t = some y →
    y.s[n]? = some st → s.part? x.part = some p → x.core = some core → st.started = true → st.faulted = false →
    st.fifo.length < 16 → st.next < st.count → st.due ≤ s.now →
    let got := s.streamEntry core p x.tenant y.sup st (s.readerOf g)
    (∀ a l, got.2 = .error (.mchk a, l) →
      exec (.streamFetch g t n) s = .next (got.1.abortDomain x.part x.tenant x.domain TrapCode.mchk.num 0)) ∧
    ((∀ a l, got.2 ≠ .error (.mchk a, l)) → ∃ u y', exec (.streamFetch g t n) s = .next u ∧ u.mem = got.1.mem ∧ u.tk? g t = some y' ∧
      y'.n = y.n ∧ y'.g = y.g ∧ (∀ k, k ≠ n → y'.s[k]? = y.s[k]?) ∧
      (∀ e, got.2 = .error e → y'.s[n]? = some { st with faulted := true }) ∧
      (∀ vs, got.2 = .ok vs → ∃ due, s.now < due ∧
        y'.s[n]? = some { st with fifo := st.fifo ++ [vs], next := min (st.next + 32) st.count, due := due }))) ∧
  (∀ (as bs : List Nat), as.length = bs.length → as ≠ [] →
    let r := isect as bs
    let rises := fun (l : List Nat) (n : Nat) => n ≤ l.length ∧ (∀ i, i + 1 < n → l.getD i 0 < l.getD (i + 1) 0) ∧
      (n < l.length → l.getD n 0 ≤ l.getD (n - 1) 0) ∧ 0 < n
    ∃ nA nB, rises as nA ∧ rises bs nB ∧ (r.2.2.2 = true ↔ nA < as.length ∨ nB < bs.length) ∧
      (let m := min (as.getD (nA - 1) 0) (bs.getD (nB - 1) 0)
       r.2.1 = ((as.take nA).filter (fun v => v ≤ m)).length ∧ r.2.2.1 = ((bs.take nB).filter (fun v => v ≤ m)).length) ∧
      (∀ i j, (i, j) ∈ r.1 ↔ i < r.2.1 ∧ j < r.2.2.1 ∧ as.getD i 0 = bs.getD j 0) ∧ r.1.Pairwise (fun u v => u.1 < v.1)) ∧
  (∀ (t : Tail) (tr : Bool) (d : Dst) (a b : Src) (g : BitVec 6),
    let lanes := fun (c : Ctx) => (List.range 32).filter (fun l => c.act.getLsbD l)
    let keys := fun (c : Ctx) (rd : Read) (k : Nat) => (lanes c).map (fun l => ((rd.v.getD k []).getD l 0).toNat % 2 ^ 32)
    let run := fun (c : Ctx) (rd : Read) => isect (keys c rd 0) (keys c rd 1)
    Checks (.isect t tr d a b g) t [(a, .int, 1), (b, .int, 1)]
      (fun c rd s => if tr = true ∧ (run c rd).2.2.2 = true then .error (c.trap .sort) else .ok (s, ()))
      (fun c rd _ s s2 => SameData s s2 ∧ ∃ vals,
        let r := run c rd
        let st := BitVec.ofNat 64 ((if r.2.2.2 then 2 ^ 24 else 0) + r.2.2.1 * 2 ^ 16 + r.2.1 * 2 ^ 8 + r.1.length)
        s2.ops = s.ops ++ [opOf c s (some c.core) (c.clk + 12) rd.p6 (.values (goesTo d 1) vals none (some (g.toNat, st)))] ∧
        ∀ (m l : Nat), (lanes c)[m]? = some l → vals.getD l 0 = match r.1[m]? with
          | some (i, j) => BitVec.ofNat 128 (j * 2 ^ 16 + i)
          | none => 0xFFFFFFFF))

/-- R104, R105, R111, R112, R114, R285 to R288, R290: the descriptor that CPYT and RTSET read; CPYT, SHUF and MRGK with their traps, and
the command that goes to a free engine with its range locks and the tokens that it draws; RTSET, RTSTATE, RTDROP. -/
def Obligations.EngineCommands : Prop :=
  (∀ (t : Tail) (e : EFields) (s32 : Bool) (k : BitVec 4) (a b : USrc) (d : Dst) s c, Acts s t c →
    let g := fun (i : Nat) => (c.tk.g.getD (e.p.toNat + i) 0).toNat
    let barAt := fun (n : Nat) => if e.abs = 0 then none else some ((c.tk.g.getD (e.p.toNat + n - 1 + e.abs.toNat) 0).toNat % 2 ^ 32)
    let inside := fun (bar : Option Nat) => ∀ x, bar = some x → x < c.x.foot.sp
    let sound := fun (bar : Option Nat) => ∀ x, bar = some x → x < c.x.foot.sp ∧ x % 16 = 0
    let locks := (s.core c.core).locks
    let ready := fun (eng : Engine) (n tokens : Nat) => (∀ w ∈ c.x.windows, w = none) ∧ c.core < s.cores.length ∧
      (s.ops.filter (fun o => o.core == some c.core && o.engine == some eng)).length < 16 ∧
      locks.length + n ≤ 32 ∧ c.sl.phase.lockOp = none ∧ c.sl.phase.granted = false ∧ tokens ≤ c.tk.tokens
    let lockOf := fun (r : Bool × Nat × Nat × Bool) =>
      ({ op := s.nextOp, gang := c.g, glob := r.1, part := c.x.part, tenant := c.x.tenant, lo := r.2.1, hi := r.2.2.1, isDst := r.2.2.2 } : Lock)
    let goes := fun (i : Instr) (rs : List (Bool × Nat × Nat × Bool)) (tokens : Nat) (kind : OpKind) =>
      ∃ s2 y, exec i s = retired t c s2 true ∧ s2.mem = s.mem ∧ s2.ops = s.ops ++ [opOf c s (some c.core) (c.clk + 20) none kind] ∧
        (s2.core c.core).locks = locks ++ rs.map lockOf ∧ s2.tk? c.g c.t = some y ∧ y.tokens = c.tk.tokens - tokens ∧
        y.n = c.tk.n ∧ y.g = c.tk.g ∧ y.p = c.tk.p
    (∀ v i, (i = Instr.cpyt t e ∧ v = g 0 ∧ sound (barAt 1)) ∨
        (i = Instr.rtset t k a b ∧ v = (c.tk.uval a).toNat ∧ sound (some ((c.tk.uval b).toNat % 2 ^ 32)) ∧
          ∀ w, (c.x.windows[k.toNat]?).join = some w → w.state ≠ .filling) →
        c.sl.phase.desc = none → v % 8 ≠ 0 → exec i s = trapped c s .align c.act v 0) ∧
    (∀ ds, c.sl.phase.desc = some ds →
      let dense := (descSp ds, descSp ds + descBytes ds)
      let far := descRange ds
      let rs := if descDir ds = 0 then [(true, far.1, far.2, false), (false, dense.1, dense.2, true)]
        else if descDir ds = 1 then [(false, dense.1, dense.2, false), (true, far.1, far.2, true)]
        else [(false, far.1, far.2, false), (false, dense.1, dense.2, true)]
      let tokens := if 65536 ≤ descBytes ds then (descBytes ds + 16383) / 16384 else 0
      let bar := barAt 1
      (descOk ds c.x.foot.sp = false → exec (.cpyt t e) s = trapped c s .qerr c.act 0 0) ∧
      (descOk ds c.x.foot.sp = true → sound bar → ready .copy 2 tokens →
        goes (.cpyt t e) rs tokens (.copy { desc := ds, bar := bar, sup := c.tk.sup, pc := c.sl.pc }))) ∧
    (let w := g 1
     let src := g 0 % 2 ^ 32
     let dst := g 0 / 2 ^ 32
     let tab := w % 2 ^ 32
     let n := w / 2 ^ 32 % 2 ^ 16
     let elog := w / 2 ^ 48 % 8
     let len := n * 2 ^ elog
     let fine := w < 2 ^ 51 ∧ n ≠ 0 ∧ elog ≤ 4
     let within := src + len ≤ c.x.foot.sp ∧ dst + len ≤ c.x.foot.sp ∧ tab + 2 * n ≤ c.x.foot.sp
     let even := src % 2 ^ elog = 0 ∧ dst % 2 ^ elog = 0 ∧ tab % 2 = 0
     let bar := barAt 2
     let i := Instr.shuf t e
     (¬ fine → exec i s = trapped c s .qerr c.act 0 0) ∧
     (fine → ¬ (within ∧ inside bar) → ∃ v, exec i s = trapped c s .prot c.act v 0) ∧
     (fine → within → inside bar → ¬ (even ∧ sound bar) → ∃ v, exec i s = trapped c s .align c.act v 0) ∧
     (fine → within → even → sound bar → ready .shuffle 2 ((len + 8191) / 8192) →
       goes i [(false, src, src + len, false), (false, dst, dst + len, true)] ((len + 8191) / 8192)
         (.shuf { src := src, dst := dst, table := tab, n := n, elog := elog, bar := bar }))) ∧
    (let na := g 3 % 2 ^ 32
     let nb := g 3 / 2 ^ 32
     let even := g 0 % 8 = 0 ∧ g 1 % 8 = 0 ∧ g 2 % 8 = 0 ∧ g 4 % 16 = 0
     let low := g 0 < 2 ^ 48 ∧ g 1 < 2 ^ 48 ∧ g 2 < 2 ^ 48 ∧ g 4 < 2 ^ 48
     let bar := barAt 5
     let i := Instr.mrgk t e s32
     (¬ inside bar → ∃ v, exec i s = trapped c s .prot c.act v 0) ∧
     (inside bar → ¬ (even ∧ sound bar) → ∃ v, exec i s = trapped c s .align c.act v 0) ∧
     (even → sound bar → ¬ low → ∃ v, exec i s = trapped c s .xlate c.act v 0) ∧
     (even → sound bar → low → ready .merge 4 ((na + nb + 63) / 64) →
       goes i [(true, g 0, g 0 + 8 * na, false), (true, g 1, g 1 + 8 * nb, false), (true, g 2, g 2 + 8 * (na + nb), true),
           (true, g 4, g 4 + 16, true)] ((na + nb + 63) / 64)
         (.merge { id := s.nextOp, tk := c.t, slot := c.k, tag := c.tag, left := true, asked := true, sup := c.tk.sup, pc := c.sl.pc,
                   s32 := s32, a := g 0, b := g 1, o := g 2, na := na, nb := nb, st := g 4, bar := bar }))) ∧
    (let full := fun (eng : Engine) => 16 ≤ (s.ops.filter (fun o => o.core == some c.core && o.engine == some eng)).length
     let held := fun (r : Stall) => Host.Outcome.next ((spent s).modSlot c.g c.t c.k (fun z => { z with stall := some r }))
     ∀ ds, c.sl.phase.desc = some ds → descOk ds c.x.foot.sp = true → sound (barAt 1) → (∀ w ∈ c.x.windows, w = none) →
       (full .copy → exec (.cpyt t e) s = held (.engineFull .copy)) ∧
       (¬ full .copy → c.sl.phase.lockOp = none → 30 < locks.length → exec (.cpyt t e) s = held (.locks 2))) ∧
    (let cur := (c.x.windows[k.toNat]?).join
     let bar := (c.tk.uval b).toNat % 2 ^ 32
     let filling := ∃ w, cur = some w ∧ w.state = .filling
     let put := fun (w : Option Window) => (spent s).modGang c.g (fun y => { y with windows := y.windows.set k.toNat w })
     (filling → exec (.rtset t k a b) s = trapped c s .qerr c.act 0 0 ∧ exec (.rtdrop t k) s = trapped c s .qerr c.act 0 0) ∧
     (¬ filling → exec (.rtdrop t k) s = retired t c (put none) false) ∧
     (∀ ds, ¬ filling → c.sl.phase.desc = some ds →
       let clash := ∃ j w, j ≠ k.toNat ∧ c.x.windows[j]? = some (some w) ∧
         descSp w.desc < descSp ds + descBytes ds ∧ descSp ds < descSp w.desc + descBytes w.desc
       (descOk ds c.x.foot.sp = false ∨ descDir ds ≠ 0 ∨ clash → exec (.rtset t k a b) s = trapped c s .qerr c.act 0 0) ∧
       (descOk ds c.x.foot.sp = true → descDir ds = 0 → ¬ clash → sound (some bar) →
         exec (.rtset t k a b) s = retired t c (put (some { desc := ds, state := .absent, bar := bar })) false)) ∧
     exec (.rtstate t k d) s = retired t c (inFlight c (spent s) 2 (.rtstate (goesTo d 1) k.toNat)) true)) ∧
  (∀ (s : State) (id : Nat) (o : Op) (accs : List Acc) (z : Slot), s.op? id = some o → o.kind = .desc accs → s.opDue o = true →
    (∀ a ∈ accs, a.done = true ∧ a.val.toNat < 2 ^ 64) → accs.length = 8 → s.slot? o.gang o.tk o.slot = some z → z.phase.descOp = some id →
    ∃ u z' d, exec (.longLatencyCompletion id) s = .next u ∧ u.mem = s.mem ∧ u.op? id = none ∧ u.slot? o.gang o.tk o.slot = some z' ∧
      z'.pc = z.pc ∧ z'.phase.desc = some d ∧ ∀ j a, accs[j]? = some a → d.extractLsb' (64 * j) 64 = a.val.setWidth 64)

/-- R105, R112, R113, R273, R285, R428: an engine command starts; one 128-byte piece of a tensor copy is performed and credited, in each
direction; a window fill ends; the head of the pool is granted its leave. -/
def Obligations.CopiesFillsAndLeave : Prop :=
  (∀ (s : State) (id : Nat) (o : Op), s.op? id = some o → o.at_ ≤ s.opClk o →
    let starts := fun (k : OpKind) => ∃ u o', exec (.engineStart id) s = .next u ∧ u.op? id = some o' ∧ o'.kind = k ∧
      s.opClk o < o'.at_ ∧ u.mem = s.mem ∧ u.gangs = s.gangs ∧ u.tasks = s.tasks
    (∀ c, o.kind = .copy c → c.started = false → starts (.copy { c with started := true, startAt := s.opClk o })) ∧
    (∀ f, o.kind = .shuf f → f.started = false → starts (.shuf { f with started := true })) ∧
    (∀ m, o.kind = .merge m → m.started = false → m.resumed = false → starts (.merge { m with started := true }))) ∧
  (∀ (s : State) (id core : Nat) (o : Op) (cp : Copy) (x : Gang) (p : Partition), s.op? id = some o → o.kind = .copy cp →
    s.gang? o.gang = some x → o.core = some core → s.part? x.part = some p → cp.started = true → cp.paused = none → cp.owed = 0 →
    (∀ w ∈ o.waits, s.settled w = true) → cp.done < copyPieces cp.desc → o.at_ ≤ s.clk core → s.dev.injs = [] →
    s.dev.cxlUp = BitVec.allOnes _ → s.mem.wf = true → Memory.wf x.sp = true → Memory.wf x.arr = true → descDir cp.desc ≤ 2 →
    let d := cp.desc
    let len := min 128 (descBytes d - 128 * cp.done)
    let dense := descSp d + 128 * cp.done
    let e := 2 ^ descElog d
    let base : Int := if descDir d = 2 then (descSrc d : Int) else (descG d : Int)
    let elem := fun (i : Nat) => base + descOffset d (128 * cp.done / e + i)
    let chunks := ((List.range (len / e)).map elem).flatMap (fun a => chunksOf a e)
    let walked := s.engineWalk core p x.tenant cp.sup (if descDir d = 1 then .write else .read) chunks (s.readerOf x.id)
    let outBar := fun (b : Nat) => ∀ k, cp.bar = some k → b < k ∨ k + 16 ≤ b
    let out := fun (b : Nat) => (b < dense ∨ dense + len ≤ b) ∧ outBar b
    let credited := fun (u : State) (x' : Gang) =>
      (cp.window ≠ none ∨ cp.done + 1 < copyPieces d → ∃ o' c', u.op? id = some o' ∧ o'.kind = .copy c' ∧ c'.done = cp.done + 1 ∧
        c'.desc = d ∧ c'.bar = cp.bar) ∧
      (cp.window = none → copyPieces d ≤ cp.done + 1 → descDir d ≠ 1 → u.op? id = none) ∧
      (∀ k, cp.window = none → cp.bar = some k → (k + 16 ≤ dense ∨ dense + len ≤ k) → descDir d ≠ 1 → s.storeRaces o.gang k none = false →
        x'.barrier k = (arriveVal (x.barrier k) (BitVec.ofNat 32 len) 0).1)
    (∀ ls, descDir d = 0 → walked.2 = .ok ls → ∃ u x', exec (.enginePieceCredit id) s = .next u ∧ u.gang? o.gang = some x' ∧
      u.mem = walked.1.mem ∧ credited u x' ∧
      (∀ j, j < len → outBar (dense + j) →
        Memory.get x'.sp (dense + j) = (ls.flatMap (fun ch => walked.1.mem.bytes ch.2.1 ch.2.2)).getD j 0) ∧
      (∀ b, out b → Memory.get x'.sp b = Memory.get x.sp b)) ∧
    (∀ ls, descDir d = 1 → walked.2 = .ok ls → ∃ u x', exec (.enginePieceCredit id) s = .next u ∧ u.gang? o.gang = some x' ∧
      credited u x' ∧ (∀ b, outBar b → Memory.get x'.sp b = Memory.get x.sp b) ∧
      (∀ k ch i, ls[k]? = some ch → i < ch.2.2 →
        (∀ k' ch', k < k' → ls[k']? = some ch' → ¬ (ch'.2.1 ≤ ch.2.1 + i ∧ ch.2.1 + i < ch'.2.1 + ch'.2.2)) →
        u.mem.get (ch.2.1 + i) = Memory.get x.arr (dense + ((ls.take k).map (fun q => q.2.2)).sum + i)) ∧
      (∀ b, (∀ ch ∈ ls, b < ch.2.1 ∨ ch.2.1 + ch.2.2 ≤ b) → u.mem.get b ||| 0xC0 = s.mem.get b ||| 0xC0)) ∧
    (∀ (q : Walk × Nat), descDir d ≤ 1 → cp.window = none → cp.sup = true → walked.2 = .error q →
      exec (.enginePieceCredit id) s = .next (walked.1.abortDomain x.part x.tenant x.domain q.1.code.num (cp.pc.setWidth 64))) ∧
    (∀ (q : Walk × Nat), descDir d ≤ 1 → cp.window = none → cp.sup = false → walked.2 = .error q → (∃ lv, q.1 = .absent lv ∨ ∃ sw, q.1 = .first lv sw) →
      ∃ u o' c' f, exec (.enginePieceCredit id) s = .next u ∧
        (∀ b, b < p.t0 + 0x120000 ∨ p.t0 + 0x140000 ≤ b → u.mem.get b = walked.1.mem.get b) ∧ u.op? id = some o' ∧ o'.kind = .copy c' ∧
        c' = { cp with paused := some (.fault f) }) ∧
    (descDir d = 2 → ∃ u x', exec (.enginePieceCredit id) s = .next u ∧ u.gang? o.gang = some x' ∧ u.mem = s.mem ∧ credited u x' ∧
      (∀ j, j < len → outBar (dense + j) → descReadsByte d (dense + j) = false →
        Memory.get x'.sp (dense + j) = Memory.get x.arr ((elem (j / e)).toNat + j % e)) ∧
      (∀ b, out b → Memory.get x'.sp b = Memory.get x.sp b))) ∧
  (∀ (s : State) (id k : Nat) (o : Op) (cp : Copy) (x : Gang) (w : Window), s.op? id = some o → o.kind = .copy cp →
    cp.window = some k → cp.started = true → copyPieces cp.desc ≤ cp.done → s.gang? o.gang = some x → x.windows[k]? = some (some w) →
    ∃ u x', exec (.windowFillDone id) s = .next u ∧ u.op? id = none ∧ u.mem = s.mem ∧ u.gang? o.gang = some x' ∧
      x'.windows[k]? = some (some { w with state := .present }) ∧ (∀ j, j ≠ k → x'.windows[j]? = x.windows[j]?) ∧
      (∀ b, cp.bar = some b → Memory.wf x.sp = true → s.storeRaces o.gang b none = false →
        x'.barrier b = (arriveVal (x.barrier b) (BitVec.ofNat 32 (descBytes cp.desc)) 0).1)) ∧
  (∀ (s : State) (r : LeaveReq) (z : Slot) (y : Tussock), s.poolHead = some r → r.op = none → s.slot? r.gang r.tk r.slot = some z →
    s.tk? r.gang r.tk = some y → z.stall = some (.leave r.id) → r.tokens ≤ s.dev.pool →
    ∃ u z' y', exec (.leaveGrant r.id) s = .next u ∧ u.mem = s.mem ∧ u.ops = s.ops ∧ u.dev.pool = s.dev.pool - r.tokens ∧
      (∀ q ∈ u.dev.poolQ, q.id ≠ r.id) ∧ u.slot? r.gang r.tk r.slot = some z' ∧ z'.stall = none ∧ z'.phase.granted = true ∧
      z'.pc = z.pc ∧ u.tk? r.gang r.tk = some y' ∧ y'.tokens = y.tokens + (if r.hold then r.tokens else 0) ∧ y'.n = y.n)

/-- R86, R112, R113, R267, R268, R270 to R272, R286, R287: a shuffle that completes; one turn of a merge by its keys, and its record; the
end of a step of a matrix loop: the product into YD, and the command's end, its stop, or its next step. -/
def Obligations.ShufflesMergesAndLoops : Prop :=
  (∀ (s : State) (id core : Nat) (o : Op) (f : Shuffle) (x : Gang), s.op? id = some o → o.kind = .shuf f → s.gang? o.gang = some x →
    o.core = some core → f.started = true → o.at_ ≤ s.clk core → s.dev.injs = [] → Memory.wf x.sp = true → Memory.wf x.arr = true →
    let e := 2 ^ f.elog
    let len := f.n * e
    let clear := fun (b : Nat) => ∀ k, f.bar = some k → b < k ∨ k + 16 ≤ b
    ∃ u x', exec (.shufComplete id) s = .next u ∧ u.op? id = none ∧ u.mem = s.mem ∧ u.gang? o.gang = some x' ∧
      (∀ c l, l ∈ (u.core c).locks → l.op ≠ id) ∧
      (∀ j b, j < f.n → b < e → clear (f.dst + e * j + b) → (f.dst + e * j + b < f.src ∨ f.src + len ≤ f.dst + e * j + b) →
        let i := Memory.read x.arr (f.table + 2 * j) 2
        Memory.get x'.sp (f.dst + e * j + b) = if i < f.n then Memory.get x.arr (f.src + e * i + b) else 0) ∧
      (∀ b, (b < f.dst ∨ f.dst + len ≤ b) → clear b → Memory.get x'.sp b = Memory.get x.sp b) ∧
      (∀ k, f.bar = some k → (k + 16 ≤ f.dst ∨ f.dst + len ≤ k) → s.storeRaces o.gang k none = false → x'.barrier k = (arriveVal (x.barrier k) (BitVec.ofNat 32 len) 0).1)) ∧
  (∀ (s : State) (id core : Nat) (o : Op) (m : Merge) (x : Gang) (p : Partition), s.op? id = some o → o.kind = .merge m →
    s.gang? o.gang = some x → o.core = some core → s.part? x.part = some p → m.started = true → m.paused = none →
    o.at_ ≤ s.clk core → s.mem.wf = true →
    let i := Instr.mrgkComplete id
    let apart := fun (lo n : Nat) => (lo + n ≤ m.a ∨ m.a + 8 * m.na ≤ lo) ∧ (lo + n ≤ m.b ∨ m.b + 8 * m.nb ≤ lo)
    let writes := fun (s1 : State) (key val : BitVec 32) (m' : Merge) => apart (m.o + 8 * m.k) 8 → ∀ s2 a, s1.mergeAddr o m x p core (m.o + 8 * m.k) .write = .ok (s2, a) →
      ∃ u o', exec i s = .next u ∧ u.op? id = some o' ∧ o'.kind = .merge { m' with k := m.k + 1 } ∧
        u.mem.read a 8 = val.toNat * 0x100000000 + key.toNat ∧ ∀ b, b < a ∨ a + 8 ≤ b → u.mem.get b = s2.mem.get b
    let ends := fun (s1 : State) (bad : Bool) => apart m.st 16 → ∀ s2 a, s1.mergeAddr o m x p core m.st .write = .ok (s2, a) →
      ∃ u o', exec i s = .next u ∧ u.op? id = some o' ∧ o'.kind = .merge { m with ended := true } ∧
        u.mem.read a 16 = m.i % 0x100000000 + m.j % 0x100000000 * 0x100000000 + m.k % 0x100000000 * 0x10000000000000000 + (if bad then 0x1000000000000000000000000 else 0) + m.flags.toNat * 0x2000000000000000000000000 ∧
        ∀ b, b < a ∨ a + 16 ≤ b → u.mem.get b = s2.mem.get b
    let low := fun (k : BitVec 32) (last : Option (BitVec 32)) => ∃ l, last = some l ∧ k ≤ l
    (m.i < 0x100000000 → m.j < 0x100000000 → m.k < 0x100000000 → m.ended = false → s.opAsks id = false → m.na ≤ m.i → m.nb ≤ m.j → ends s false) ∧
    (∀ sa ea sb eb, m.ended = false → s.opAsks id = false → m.i < m.na ∨ m.j < m.nb →
      s.mergeSide o m x p core (decide (m.i < m.na)) (m.a + 8 * m.i) = .ok (sa, ea) →
      (∀ k v, ea = some (k, v) → low k m.lastA → m.i < 0x100000000 → m.j < 0x100000000 → m.k < 0x100000000 → ends sa true) ∧
      ((∀ k v, ea = some (k, v) → ¬ low k m.lastA) → sa.mergeSide o m x p core (decide (m.j < m.nb)) (m.b + 8 * m.j) = .ok (sb, eb) →
        (∀ k v, eb = some (k, v) → low k m.lastB → m.i < 0x100000000 → m.j < 0x100000000 → m.k < 0x100000000 → ends sb true) ∧
        ((∀ k v, eb = some (k, v) → ¬ low k m.lastB) →
          (∀ k v, ea = some (k, v) → (∀ k' v', eb = some (k', v') → k < k') → writes sb k v { m with i := m.i + 1, lastA := some k }) ∧
          (∀ k v, eb = some (k, v) → (∀ k' v', ea = some (k', v') → k < k') → writes sb k v { m with j := m.j + 1, lastB := some k }) ∧
          (∀ k v w, ea = some (k, v) → eb = some (k, w) →
            let sum := if m.s32 then (v + w, 0) else
              let r := arith2 f32 false 0 0 v.toNat w.toNat
              (BitVec.ofNat 32 r.1, r.2)
            writes sb k sum.1 { m with i := m.i + 1, j := m.j + 1, lastA := some k, lastB := some k, flags := m.flags ||| sum.2 })))) ∧
    (∀ va s1 a, s.mergeAddr o m x p core va .read = .ok (s1, a) →
      s1.dev.injs = [] → s1.dev.cxlUp = BitVec.allOnes _ → ∃ s2, s.mergeRead o m x p core va =
        .ok (s2, BitVec.ofNat 32 (s1.mem.read a 8), BitVec.ofNat 32 (s1.mem.read a 8 / 0x100000000)) ∧ s2.mem = s1.mem) ∧
    (m.ended = true → (∀ w ∈ o.waits, s.settled w = true) → ∃ u, exec i s = .next u ∧ u.op? id = none ∧ u.mem = s.mem ∧
      (∀ c l, l ∈ (u.core c).locks → l.op ≠ id) ∧
      ∀ k, m.bar = some k → Memory.wf x.sp = true → s.storeRaces o.gang k none = false → ∃ x', u.gang? o.gang = some x' ∧ x'.barrier k = (arriveVal (x.barrier k) 1 0).1)) ∧
  (∀ (s : State) (id core : Nat) (o : Op) (l : Loop) (x : Gang), s.op? id = some o → o.kind = .loop l → s.gang? o.gang = some x →
    o.core = some core → l.started = true → l.stepEnd ≠ 0 → l.stepEnd ≤ s.opClk o → s.dev.injs = [] → l.raced = false →
    l.x + 3 < x.xt.length → l.yd < x.yt.length →
    let A := portShape l.ca l.ta
    let across := A.2.2 / l.edge
    let used := fun (i k : Nat) => l.edge = 0 ∨ l.map.getLsbD (i / l.edge * across + k / l.edge) = true
    let needed := fun (isA : Bool) (i j : Nat) =>
      let e := if (if isA then l.ta else l.tb) then (j, i) else (i, j)
      if isA then used e.1 e.2
      else l.edge = 0 ∨ ∃ r, r < A.2.1 / l.edge ∧ l.map.getLsbD (r * across + e.1 / l.edge) = true
    let bytes := fun (rs : List RowRead) => rs.flatMap (fun r => r.got.getD (x.arr.bytes r.addr r.len))
    let old := fun (n : Nat) => (x.xt.getD n {}).bits
    let Loaded := fun (isA : Bool) (rs : List RowRead) (n : Nat) (new : BitVec 65536) =>
      let ctl := if isA then l.ca else l.cb
      let row := ctlCols ctl * ctlBits ctl
      ∀ b, b < 65536 → new.getLsbD b = if b < 8 * (bytes rs).length ∧ needed isA (b / row) (b % row / ctlBits ctl)
        then (natOfBytes (bytes rs)).testBit b else (old n).getLsbD b
    let sized := fun (isA : Bool) (rs : List RowRead) =>
      let ctl := if isA then l.ca else l.cb
      0 < ctlCols ctl * ctlBits ctl ∧ ctlCols ctl * ctlBits ctl % 8 = 0 ∧ 8 * (bytes rs).length = rs.length * (ctlCols ctl * ctlBits ctl)
    let y := x.yt.getD l.yd {}
    sized true l.rowsA → sized false l.rowsB →
    ∃ u x', exec (.mloopStepEnd id) s = .next u ∧ u.mem = s.mem ∧ u.gang? o.gang = some x' ∧
      (∃ a b cells, Loaded true l.rowsA (l.x + l.step % 2) a ∧ Loaded false l.rowsB (l.x + 2 + l.step % 2) b ∧ Says.reads y (l.pair != 3) cells ∧
        let r := product l.pair (matrixOf a l.ca l.ta) (matrixOf b l.cb l.tb) (fun i k => decide (used i k)) cells
        x'.yt = x.yt.set l.yd { y.formed (some (l.pair != 3)) (r.1.map (·.1)) with
          cells := setCellList y.cells r.1, events := y.events ||| r.2 }) ∧
      (l.steps ≤ l.step + 1 → u.op? id = none ∧ (∀ c q, q ∈ (u.core c).locks → q.op ≠ id) ∧
        ∀ k, l.bar = some k → Memory.wf x.sp = true → s.storeRaces o.gang k none = false → x'.barrier k = (arriveVal (x.barrier k) 1 0).1) ∧
      (l.step + 1 < l.steps → x.stop = true → l.sg ≠ 0 → (l.step + 1) % 2 ^ (l.sg - 1) = 0 → u.op? id = none ∧
        ∃ q, x'.loops = x.loops ++ [q] ∧ q.step = l.step + 1 ∧ q.word = l.word ∧ q.params = l.params ∧ q.members = l.members ∧ q.bar = l.bar) ∧
      (l.step + 1 < l.steps → x.stop = false → s.opAsks id = false → ∃ o' l', u.op? id = some o' ∧ o'.kind = .loop l' ∧
        l'.step = l.step + 1 ∧ l'.members = l.members ∧ x'.sp = x.sp ∧ s.clk core ≤ l'.stepEnd))

/-- R23, R33, R35, R291 to R295, R452: SPAWN, TDEP and TSIG with their traps and the requests that they send; TEND, which ends a tussock,
and with the last one its gang and its task; the task unit's request that is done. -/
def Obligations.TasksAndTheirUnit : Prop :=
  (∀ (t : Tail) (d : Dst) (a b ctl : USrc) s c, Acts s t c →
    let v := (c.tk.uval ctl).toNat
    let p := c.part s
    let depth := ((s.task? c.g).map (·.depth)).getD 1 + 1
    let rank := v / 0x1000000 % 0x10000
    let fine := v / 0x20000000000 % 64 = 0 ∧ (v / 0x10000000000 % 2 = 0 → rank = 0)
    let ctr := if v / 0x800000000000 % 2 = 1 then some (v / 0x1000000000000) else none
    let made := (spent s).spawnTask p c.x.tenant (c.tk.uval a).toNat (v % 0x1000000) depth (c.tk.uval b) ctr
    let i := Instr.spawn t d a b ctl
    let feps := fun (k : Task) => ((s.job? p.num k.job c.x.tenant).map (·.feps.length)).getD 0
    let sends := fun (k : Task) (r : TaskReq) => ∃ s2 due dur, exec i s = retired t c s2 true ∧ SameData s s2 ∧ s.now < due ∧
      s2.ops = s.ops ++ [sentOut c s none due none (.task r dur)] ∧ (v / 0x10000000000 % 2 = 0 → s.now + 241 ≤ due) ∧
      ∀ j, s.job? p.num k.job c.x.tenant = some j → (s2.job? p.num k.job c.x.tenant).map (·.out) = some (j.out + 1)
    (¬ fine → exec i s = trapped c s .qerr c.act 0 0) ∧
    (fine → 8 < depth → exec i s = trapped c s .spawndepth c.act 0 0) ∧
    (fine → depth ≤ 8 → made = none → exec i s = trapped c s .qerr c.act 0 0) ∧
    (∀ ch k, fine → depth ≤ 8 → made = some (ch, k) →
      k.depth = depth ∧ k.index = v % 0x1000000 ∧ k.tenant = c.x.tenant ∧ k.launch = (c.tk.uval a).toNat ∧ (∀ n, ctr = some n → k.ctr = n) ∧
      (c.tk.uval b ≠ 0 → k.args = c.tk.uval b) ∧
      (footNever ch k.foot = true → exec i s = trapped c s .qerr c.act 0 0) ∧
      (footNever ch k.foot = false → v / 0x10000000000 % 2 = 0 → sends k (.spawn (goesTo d 2) k)) ∧
      (footNever ch k.foot = false → v / 0x10000000000 % 2 = 1 → feps k ≤ rank → exec i s = trapped c s .qerr c.act 0 0) ∧
      (footNever ch k.foot = false → v / 0x10000000000 % 2 = 1 → rank < feps k →
        sends k (.rspawn (goesTo d 2) rank (c.tk.uval a) (c.tk.uval b) (c.tk.uval ctl) depth k.job)))) ∧
  (∀ (t : Tail) (a b : USrc) s c, Acts s t c →
    let x := c.handle (spent s) (c.tk.uval a)
    let y := c.handle (spent s) (c.tk.uval b)
    let n := (c.tk.uval b).toNat % 0x10000
    let job := ((s.task? c.g).map (·.job)).getD 0
    let known := fun (h : Handle) => match h with
      | .here _ => True
      | .gone => True
      | _ => False
    let idOf := fun (h : Handle) => match h with
      | .here k => k.id
      | _ => 0
    let ctrOf := fun (h : Handle) => match h with
      | .here k => k.ctr
      | _ => 0
    let sends := fun (i : Instr) (r : TaskReq) (lat : Nat) => exec i s = retired t c ({ spent s with
      ops := s.ops ++ [sentOut c s none (s.now + 1 + lat) none (.task r lat)], nextOp := s.nextOp + 1 }) true
    let dep := Instr.tdep t a b
    let sig := Instr.tsig t a b
    (∀ code, x = .bad code → exec dep s = trapped c s code c.act 0 0 ∧ (n ≠ 0 → exec sig s = trapped c s code c.act 0 0)) ∧
    (∀ rank k, x = .remote rank k → exec dep s = trapped c s .qerr c.act 0 0 ∧ (n ≠ 0 → sends sig (.rsig rank k n job) 0)) ∧
    (∀ code, known x → y = .bad code → exec dep s = trapped c s code c.act 0 0) ∧
    (∀ rank k, known x → y = .remote rank k → exec dep s = trapped c s .qerr c.act 0 0) ∧
    (known x → known y → ctrOf y + ((spent s).linking (idOf y)).length < 65535 → sends dep (.tdep (idOf x) (idOf y)) 40) ∧
    (∀ k, x = .here k → k.ended = false → known y → 65535 ≤ ctrOf y → (spent s).linking (idOf y) = [] →
      exec dep s = trapped c s .qerr c.act 0 0) ∧
    (n = 0 → exec sig s = trapped c s .qerr c.act 0 0) ∧ (known x → n ≠ 0 → sends sig (.tsig (idOf x) n) 40)) ∧
  (∀ (t : Tail) (a : USrc) s c, Acts s t c → s.gang? c.g = some c.x → s.tk? c.g c.t = some c.tk → c.tk.ended = false → c.x.arrivals = [] →
    let v := (c.tk.uval a).toNat
    let i := Instr.tend t a
    let others := ∃ (j : Nat) (y : Tussock), c.x.tks[j]? = some y ∧ j ≠ c.t ∧ y.ended = false
    (256 ≤ v → exec i s = trapped c s .qerr c.act 0 0) ∧
    (v < 256 → others → ∃ u y', exec i s = .next u ∧ u.mem = s.mem ∧ u.tasks = s.tasks ∧ u.tk? c.g c.t = some y' ∧ y'.ended = true ∧
      y'.status = max c.tk.status v ∧ u.dev.pool = s.dev.pool + c.tk.tokens) ∧
    (v < 256 → ¬ others → ∃ u, exec i s = .next u ∧ u.mem = s.mem ∧ ((∀ o ∈ s.ops, o.gang ≠ c.g) → u.gang? c.g = none) ∧
      ((∃ o ∈ s.ops, o.gang = c.g ∧ ∃ l, o.kind = .store l) → ∃ x', u.gang? c.g = some x' ∧ x'.sp = c.x.sp ∧ ∀ y ∈ x'.tks, y.ended = true) ∧
      let worst := c.x.tks.foldl (fun m y => max m y.status) v
      (∀ k, s.task? c.g = some k → k.ended = false →
        (∀ k' ∈ u.tasks, k'.id = c.g → k'.ended = true ∧ k'.status = worst) ∧
        (∀ j, k.origin = none → s.job? k.part k.job k.tenant = some j → 2 ≤ j.out →
          (∀ q, s.part? k.part = some q → ∀ z ∈ q.jobs, z.rcb = k.job → z.tenant = k.tenant → z = j) → ∃ j', u.job? k.part k.job k.tenant = some j' ∧
          j'.out + 1 = j.out ∧ j'.done = (if worst = 0 then (j.done + 1) % 0x100000000 else j.done) ∧
          j'.failed = (if worst = 0 then j.failed else (j.failed + 1) % 0x100000000))))) ∧
  (∀ (s : State) (id dur : Nat) (o : Op) (r : TaskReq) (y : Tussock) (old : Mask), s.op? id = some o → o.kind = .task r dur →
    o.at_ ≤ s.now → s.atFront o = true → s.tk? o.gang o.tk = some y → y.p[6]? = some old → s.tasks.length + 2 ≤ 0x1000000 →
    let i := Instr.taskUnitRequestDone id
    let flag := fun (u : State) (ok : Bool) => ∃ y', u.tk? o.gang o.tk = some y' ∧
      y'.p[6]? = some ((old &&& ~~~o.mask) ||| (if ok = true ∧ o.p6 ≠ some false then o.mask else 0))
    (∀ d k, r = .spawn d k → ∃ u k' y', exec i s = .next u ∧ u.op? id = none ∧ u.mem = s.mem ∧ u.tasks = s.tasks ++ [k'] ∧
      k'.id % 0x1000000 ≠ 0 ∧ (∀ q ∈ s.tasks, q.id % 0x1000000 ≠ k'.id % 0x1000000) ∧ k'.ready = decide (k.ctr = 0) ∧ k'.ctr = k.ctr ∧
      k'.foot = k.foot ∧ k'.args = k.args ∧ k'.index = k.index ∧ k'.depth = k.depth ∧ k'.job = k.job ∧ u.tk? o.gang o.tk = some y' ∧
      ∀ q, d = .g q → q < y.g.length → o.mask ≠ 0 → y'.g[q]? = some (BitVec.ofNat 64 (k'.id % 0x1000000))) ∧
    (∀ x z tx tz, r = .tdep x z → s.task? x = some tx → s.task? z = some tz → x ≠ z →
      (tx.ended = false → tz.ctr < 65535 → ∃ u, exec i s = .next u ∧ u.op? id = none ∧ u.mem = s.mem ∧ flag u true ∧
        u.task? x = some { tx with links := tx.links ++ [z] } ∧ u.task? z = some { tz with ctr := tz.ctr + 1 }) ∧
      (tx.ended = true → ∃ u, exec i s = .next u ∧ u.op? id = none ∧ u.mem = s.mem ∧ flag u false ∧ u.tasks = s.tasks)) ∧
    (∀ x n tx, r = .tsig x n → s.task? x = some tx → tx.ended = false → ∃ u tx', exec i s = .next u ∧ u.op? id = none ∧ u.mem = s.mem ∧
      u.task? x = some tx' ∧ tx'.ctr = tx.ctr - n ∧ (tx'.ready = true ↔ tx.ready = true ∨ (1 ≤ tx.ctr ∧ tx.ctr ≤ n)) ∧ tx'.ended = false))

/-- R99, R100, R134, R296, R322, R399, R404, R405: MIGR and SWAPF with their traps and what they send; the portion of a MIGR that begins a
page move, the move that ends, and the swap that is done. -/
def Obligations.PageMovesAndSwaps : Prop :=
  (∀ (t : Tail) (a b ctl : USrc) s c, Acts s t c →
    let base := (c.tk.uval a).toNat
    let n := (c.tk.uval b).toNat % 2 ^ 32
    let h := c.handle (spent s) (c.tk.uval ctl)
    let i := Instr.migr t a b ctl
    let task := match h with
      | .here k => k.id
      | _ => 0
    let known := match h with
      | .here _ => True
      | .gone => True
      | _ => False
    let counted := 1 ≤ n ∧ n ≤ 4096
    (¬ counted → exec i s = trapped c s .qerr c.act 0 0) ∧
    (∀ code, counted → h = .bad code → exec i s = trapped c s code c.act 0 0) ∧
    (∀ rank k, counted → h = .remote rank k → exec i s = trapped c s .qerr c.act 0 0) ∧
    (counted → known → base % 65536 ≠ 0 → exec i s = trapped c s .align c.act base 0) ∧
    (counted → known → base % 65536 = 0 → ∃ s2 due, exec i s = retired t c s2 true ∧ SameData s s2 ∧ s.now < due ∧
      s2.ops = s.ops ++ [sentOut c s none due none (.migrQueued base n task c.x.frameNodes)])) ∧
  (∀ (t : Tail) (a b : USrc) s c, Acts s t c →
    let x := (c.tk.uval a).toNat
    let y := (c.tk.uval b).toNat
    let p := c.part s
    let i := Instr.swapf t a b
    let priv := c.tk.sup = true ∧ p.sys = true
    let even := x % 65536 = 0 ∧ y % 65536 = 0
    let ours := p.ownsNear x 65536 = true ∧ p.ownsNear y 65536 = true
    let busy := ∃ o ∈ s.ops, ∃ m n, o.kind = .swap m n ∧ (m = x ∨ m = y ∨ n = x ∨ n = y)
    let own := (spent s).reachesFrame c.g c.t c.k x ++ (spent s).reachesFrame c.g c.t c.k y
    let held := fun (r : Stall) => Host.Outcome.next ((spent s).modSlot c.g c.t c.k (fun z => { z with stall := some r }))
    (¬ priv → exec i s = trapped c s .priv c.act 0 0) ∧
    (priv → ¬ even → exec i s = trapped c s .align c.act (if x % 65536 ≠ 0 then x else y) 0) ∧
    (priv → even → ¬ ours → exec i s = trapped c s .prot c.act (if p.ownsNear x 65536 = true then y else x) 0) ∧
    (priv → even → ours → busy → exec i s = held (.frames x y)) ∧
    (priv → even → ours → ¬ busy → own ≠ [] → exec i s = held (.drain own 0)) ∧
    (priv → even → ours → ¬ busy → own = [] → ∃ s2 due, exec i s = retired t c s2 true ∧ SameData s s2 ∧ s.now < due ∧
      s2.ops = s.ops ++ [sentOut c s none due none (if x = y then .tagOnly else .swap x y)])) ∧
  (∀ (s : State) (id x y : Nat) (o : Op), s.op? id = some o → o.kind = .swap x y → o.at_ ≤ s.now → s.mem.wf = true →
    x % 65536 = 0 → y % 65536 = 0 → x ≠ y → ∃ u, exec (.swapDone id) s = .next u ∧ u.op? id = none ∧
      (∀ i, i < 65536 → u.mem.get (x + i) = s.mem.get (y + i) ∧ u.mem.get (y + i) = s.mem.get (x + i)) ∧
      (∀ b, b / 65536 * 65536 ≠ x → b / 65536 * 65536 ≠ y → u.mem.get b = s.mem.get b)) ∧
  (∀ (s : State) (id base task tenant : Nat) (nodes : List (Option Nat × Nat)) (o : Op) (p : Partition), s.op? id = some o →
    o.kind = .migrQueued base 1 task nodes → s.opDue o = true → o.who = some (p.num, tenant) → s.part? p.num = some p → s.mem.wf = true → (∀ q ∈ s.ops, q.id < s.nextOp) →
    let i := Instr.loadComplete id
    let w := walk s.mem p tenant base .host true
    let head := p.t0 + 0x100000
    let h := s.mem.read head 4
    let room := ∀ f ∈ nodes, p.framesOf tenant f.1 + 1 ≤ f.2
    let dealt := fun (u : State) => ∀ k, s.task? task = some k → k.ended = false → (u.task? task).map (·.ctr) = some (k.ctr - 1)
    (∀ pa frame entry sb wb xb lines, w = .pa pa frame 65536 entry sb wb xb lines → 6 * 2 ^ 30 ≤ frame → room →
      h ≠ s.mem.read (head + 4) 4 → (entry + 8 ≤ head ∨ head + 4 ≤ entry) → ∃ u q m, exec i s = .next u ∧ u.op? id = none ∧ q ∈ u.ops ∧
        q.kind = .move m ∧ m.va = base ∧ m.src = frame ∧ m.dst = s.mem.read (p.t0 + 0x108000 + 8 * (h % 4096)) 8 ∧ m.entry = entry ∧
        m.near = true ∧ m.link = some task ∧ m.nodes = nodes ∧ u.mem.read entry 8 = (s.mem.read entry 8 / 2 * 2) ||| 0x20 ∧
        u.mem.read head 4 = (h + 1) % 2 ^ 32 ∧ u.tasks = s.tasks) ∧
    ((∀ e, w ≠ .moving e) → (∀ pa frame pg entry sb wb xb lines, w = .pa pa frame pg entry sb wb xb lines →
        pg ≠ 65536 ∨ frame < 6 * 2 ^ 30 ∨ ¬ room ∨ h = s.mem.read (head + 4) 4) →
      ∃ u, exec i s = .next u ∧ u.op? id = none ∧ u.mem = s.mem ∧ dealt u)) ∧
  (∀ (s : State) (id : Nat) (o : Op) (m : PageMove) (p : Partition), s.op? id = some o → o.kind = .move m → o.at_ ≤ s.now →
    (∀ w ∈ o.waits, s.settled w = true) → s.part? m.part = some p → s.mem.wf = true → (∀ q ∈ s.ops, q.id < s.nextOp) → m.cmd = none →
    let i := Instr.migrationCopyDone id
    let inRing := fun (b : Nat) => p.t0 + 0x120000 ≤ b ∧ b < p.t0 + 0x140000
    let inEntry := fun (b : Nat) => m.entry ≤ b ∧ b < m.entry + 8
    let old := m.old.toNat
    let dealt := fun (u : State) => ∀ t k, m.link = some t → s.task? t = some k → k.ended = false →
      (u.task? t).map (·.ctr) = some (k.ctr - 1)
    (s.mem.read m.entry 8 = m.mark.toNat → ∃ u, exec i s = .next u ∧ u.op? id = none ∧ dealt u ∧
      (∀ j, j < 65536 → ¬ inRing (m.dst + j) → ¬ inEntry (m.dst + j) → u.mem.get (m.dst + j) = s.mem.get (m.src + j)) ∧
      (∀ b, (b < m.dst ∨ m.dst + 65536 ≤ b) → ¬ inRing b → ¬ inEntry b → u.mem.get b = s.mem.get b) ∧
      ((∀ j, j < 8 → ¬ inRing (m.entry + j)) →
        u.mem.read m.entry 8 = (old % 2 ^ 5 + old / 2 ^ 6 % 4 * 2 ^ 6 + m.dst + old / 2 ^ 53 * 2 ^ 53) % 2 ^ 64)) ∧
    (s.mem.read m.entry 8 ≠ m.mark.toNat → ∃ u, exec i s = .next u ∧ u.op? id = none ∧ dealt u ∧
      ∀ b, ¬ inRing b → u.mem.get b = s.mem.get b))

/-- R298, R299, R304, R305, R307 to R310: the island instructions with their traps, the requests that they send to their unit and the
answers that they deliver. -/
def Obligations.IslandInstructions : Prop :=
  (∀ (t : Tail) (d : Dst) (a b : USrc) s c, Acts s t c →
    let v := (c.tk.uval a).toNat
    let n := v % 2 ^ 8
    let p := c.part s
    let walked := c.descWalk (spent s) p v
    let known := p.scene? n ≠ none
    let h := c.handle (spent s) (c.tk.uval b)
    let sends := fun (i : Instr) (r : TaskReq) => ∃ s2, exec i s = retired t c s2 true ∧ SameData s s2 ∧
      (∀ n, r = .isceneDel n → (c.part s2).scene? n = none) ∧ s2.ops = s.ops ++ [sentOut c s none (s.now + 1) none (.task r 0)]
    (v % 8 ≠ 0 → exec (.iscene t d a) s = trapped c s .align c.act v 0) ∧
    (∀ ls s1 fl, v % 8 = 0 → walked.2 = .ok ls → c.eccLanes walked.1 p true (ls.map (·.2.2)) 8 = .ok (s1, fl) →
      let desc := s1.readDesc ls
      let made := s1.spawnTask p c.x.tenant (scTemplate desc) 0 1 0 (some 0)
      (scOk desc = false ∨ made = none ∨ (∃ ch k, made = some (ch, k) ∧ (k.foot.team ≠ 1 ∨ footNever ch (islandFoot desc k.foot 32) = true)) →
        exec (.iscene t d a) s = trapped c s .qerr c.act 0 0) ∧
      (∀ ch k, scOk desc = true → made = some (ch, k) → k.foot.team = 1 → footNever ch (islandFoot desc k.foot 32) = false →
        ∃ s2 due dur, exec (.iscene t d a) s = retired t c s2 true ∧ SameData s1 s2 ∧ s.now + 641 ≤ due ∧
          s2.ops = s1.ops ++ [sentOut c s1 none due none (.task (.iscene (goesTo d 2) desc k) dur)])) ∧
    (¬ known → exec (.isceneDel t a) s = trapped c s .qerr c.act 0 0 ∧ exec (.istep t a b) s = trapped c s .qerr c.act 0 0) ∧
    (known → sends (.isceneDel t a) (.isceneDel n)) ∧
    (known → c.tk.uval b = 0 ∨ h = .gone → sends (.istep t a b) (.istep n 0)) ∧
    (∀ k, known → c.tk.uval b ≠ 0 → h = .here k → sends (.istep t a b) (.istep n k.id)) ∧
    (∀ code, known → c.tk.uval b ≠ 0 → h = .bad code → exec (.istep t a b) s = trapped c s code c.act 0 0)) ∧
  (∀ (t : Tail) (sel : BitVec 3) (d : Dst) (a b tag : Src),
    let lanes := fun (c : Ctx) => (List.range 32).filter (fun l => c.act.getLsbD l)
    let arg := fun (rd : Read) (k l : Nat) => ((rd.v.getD k []).getD l 0).toNat % 2 ^ 32
    let bad := fun (c : Ctx) (rd : Read) (s : State) => (lanes c).filter (fun l =>
      arg rd 1 l / 2 ^ 24 != 0 || ((c.part s).scene? (arg rd 0 l / 2 ^ 24)).isNone)
    let reports := fun (i : Instr) (r : List (Nat × Nat × Nat × Nat × BitVec 32) → TaskReq) =>
      Checks i t [(a, .int, 1), (b, .int, 1), (tag, .int, 1)]
        (fun c rd s => if bad c rd s = [] then .ok (s, ()) else .error (.trap { code := .qerr, lanes := maskOfList (bad c rd s) }))
        (fun c rd _ s s2 => SameData s s2 ∧
          let cs := (lanes c).map (fun l => (l, arg rd 0 l / 2 ^ 24, arg rd 0 l % 2 ^ 24, arg rd 1 l % 2 ^ 24, BitVec.ofNat 32 (arg rd 2 l)))
          let dur := 20 + 4 * cs.length
          s2.ops = s.ops ++ [sentOut c s none (s.now + 1 + dur) rd.p6 (.task (r cs) dur)])
    reports (.icon t a b tag) .icon ∧ reports (.ijnt t a b tag) (fun cs => .ijnt cs false) ∧
    reports (.ijntDel t a b tag) (fun cs => .ijnt cs true) ∧
    Checks (.iinfo t sel d a) t [(a, .int, 1)] (fun _ _ s => .ok (s, ()))
      (fun c rd _ s s2 => SameData s s2 ∧ ∃ vals, s2.ops = s.ops ++
          [opOf c s (some c.core) (c.clk + 40) rd.p6 (.values (goesTo d 1) vals none none)] ∧
        ∀ l ∈ lanes c, vals.getD l 0 = BitVec.ofNat 128 (
          let b := arg rd 0 l % 2 ^ 24
          match (c.part s).scene? (arg rd 0 l / 2 ^ 24) with
          | none => 2 ^ 32 - 1
          | some sc =>
            let i := sc.islandOf b
            if scBodies sc.desc ≤ b then 2 ^ 32 - 1 else match sel.toNat with
            | 0 => i.num
            | 1 => i.bodies.length
            | 2 => i.state.code
            | 3 => sc.step % 2 ^ 32
            | 4 => sc.launched
            | _ => sc.contacts.length))) ∧
  (∀ (t : Tail) (d : Dst) s c, Acts s t c → s.gang? c.g = some c.x →
    (c.isle (spent s) = none → exec (.ipoll t d) s = trapped c s .qerr c.act 0 0 ∧ exec (.igrow t d) s = trapped c s .qerr c.act 0 0 ∧
      exec (.irest t) s = trapped c s .qerr c.act 0 0) ∧
    ∀ sc i, c.isle (spent s) = some (sc, i) →
      let pend := sc.pending i.num
      let held := Memory.read c.x.sp 4 2
      let answers := fun (j : Instr) (d : LDest) (n : Nat) (p6 : Option Mask) => ∃ s2 due, exec j s = retired t c s2 true ∧
        (slotsAside s2).gangs = (slotsAside s).gangs ∧ s2.mem = s.mem ∧ c.clk < due ∧
        s2.ops = s.ops ++ [opOf c s (some c.core) due none (.values d (List.replicate 32 (BitVec.ofNat 128 n)) p6 none)]
      let new := (pend.flatMap (·.bodies)).mergeSort (· ≤ ·)
      let total := i.bodies.length + new.length
      let walked := (spent s).readBodies c.core (c.part s) c.x.tenant c.tk.sup sc new (c.reader (spent s))
      (∃ v, answers (.ipoll t d) (goesTo d 2) v none ∧ v % 4 = (if i.state = .absorbed then 2 else if pend ≠ [] then 1 else 0) ∧
        v / 4 % 2 ^ 6 = 0 ∧ v / 2 ^ 8 % 2 ^ 8 = min pend.length 255 ∧ v / 2 ^ 16 % 2 ^ 8 = 0 ∧ v < 2 ^ 48 ∧
        (i.state ≠ .absorbed → v / 2 ^ 24 = i.num % 2 ^ 24) ∧ (∀ r, i.state = .absorbed → i.pendAt = some r → v / 2 ^ 24 = r % 2 ^ 24)) ∧
      (i.state = .absorbed ∨ i.state = .growfail → answers (.igrow t d) (goesTo d 2) held (some 0)) ∧
      (i.state ≠ .absorbed → i.state ≠ .growfail → pend = [] → answers (.igrow t d) (goesTo d 2) held (some c.act)) ∧
      (i.state ≠ .absorbed → i.state ≠ .growfail → (∃ k ∈ pend, k.state = .absorbed) →
        exec (.igrow t d) s = .next ((spent s).modSlot c.g c.t c.k (fun z => { z with stall := some .absorbed }))) ∧
      (i.state ≠ .absorbed → i.state ≠ .growfail → pend ≠ [] → (∀ k ∈ pend, k.state ≠ .absorbed) →
        (c.ownBanks (spent s) ≠ [] →
          exec (.igrow t d) s = .next ((spent s).modSlot c.g c.t c.k (fun z => { z with stall := some (.drain (c.ownBanks (spent s)) 0) }))) ∧
        (c.ownBanks (spent s) = [] → 32 * c.x.foot.tus < total → answers (.igrow t d) (goesTo d 2) total (some 0)) ∧
        (∀ ls, c.ownBanks (spent s) = [] → total ≤ 32 * c.x.foot.tus → walked.2 = .ok ls → s.dev.injs = [] → s.dev.cxlUp = BitVec.allOnes _ → total < 2 ^ 16 →
          Memory.wf c.x.sp = true →
          ∃ s2 x' due, exec (.igrow t d) s = retired t c s2 true ∧ s2.mem = walked.1.mem ∧ s2.gang? c.g = some x' ∧
            s2.ops = s.ops ++ [opOf c s (some c.core) due none
              (.values (goesTo d 2) (List.replicate 32 (BitVec.ofNat 128 total)) (some c.act) none)] ∧
            Memory.read x'.sp 4 2 = total ∧
            (∀ k b, new[k]? = some b → Memory.read x'.sp (0x40 + 4 * (i.bodies.length + k)) 4 = b % 2 ^ 32) ∧
            (∀ j, j < new.length * scBpb sc.desc →
              Memory.get x'.sp (0x40 + 128 * c.x.foot.tus + i.bodies.length * scBpb sc.desc + j) =
                (ls.flatMap (fun ch => walked.1.mem.bytes ch.2.1 ch.2.2)).getD j 0))) ∧
      (let ok := i.state = .running ∧ pend = []
       answers (.irest t) .none 0 (some (if i.state == .running && pend.isEmpty then c.act else 0)) ∧
       (ok → ∃ s2 q sc', exec (.irest t) s = retired t c s2 true ∧ s2.part? c.x.part = some q ∧
         q.scenes.find? (fun z => z.num == sc.num) = some sc' ∧ (sc'.island? i.num).map (·.rest) = some true)))

/-- R297 to R300, R302, R304 to R308, R452: the island units' requests that are done, the unions of R306's table, a step boundary, the
fill of an island's gang, a relaunch, and an IGROW that goes on. -/
def Obligations.IslandUnits : Prop :=
  (∀ (sc : Scene) (a b : Nat), let x := sc.islandOf a
    let y := sc.islandOf b
    x.num ≠ y.num → x.stands = true → y.stands = true → (∀ i ∈ sc.islands, i.num ∈ i.bodies) →
    sc.islands.Pairwise (fun i j => i.num ≠ j.num ∧ ∀ q ∈ i.bodies, q ∉ j.bodies) →
    ∀ u, (u = sc.union a b ∨ u = sc.union b a) →
      let p := u.islandOf a
      let q := u.islandOf b
      (x.state = .running → y.state = .running → x.num < y.num → p.state = .running ∧ q.state = .absorbed ∧ q.pendAt = some x.num ∧
        ∀ k ∈ sc.islands, k.pendAt = some y.num → k.num ≠ x.num → k.num ≠ y.num → { k with pendAt := some x.num } ∈ u.islands) ∧
      (x.state = .running ∨ x.state = .growfail → y.state = .sleeping →
        p.state = x.state ∧ q.state = .sleepingAbsorbed ∧ q.pendAt = some x.num) ∧
      (x.state = .idle ∨ x.state = .awake ∨ x.state = .patched → y.state = .sleeping → p.state = x.state ∧ q.state = .awake) ∧
      (y.state ≠ .sleeping → x.state ≠ .sleeping → ¬ (x.state = .running ∧ y.state = .running) → u = sc) ∧
      (x.state = .sleeping → y.state = .sleeping → u = sc)) ∧
  (∀ (s : State) (id dur l n a b : Nat) (tag : BitVec 32) (del : Bool) (o : Op) (y : Tussock) (old : Mask) (p : Partition) (sc : Scene) (r : TaskReq),
    s.op? id = some o → o.kind = .task r dur → o.at_ ≤ s.now → s.atFront o = true → s.tk? o.gang o.tk = some y → y.p[6]? = some old →
    s.partOf o = some p.num → s.part? p.num = some p → p.scenes.find? (fun q => q.num == n) = some sc → l < 32 → a < 2 ^ 24 → b < 2 ^ 24 →
    let i := Instr.taskUnitRequestDone id
    let bit : Mask := BitVec.ofNat 32 (2 ^ l)
    let flag := fun (u : State) (m : Mask) => ∃ y', u.tk? o.gang o.tk = some y' ∧
      y'.p[6]? = some ((old &&& ~~~o.mask) ||| (if o.p6 = some false then 0 else m &&& o.mask))
    let scene := fun (u : State) => (u.part? p.num).bind (fun q => q.scenes.find? (fun z => z.num == n))
    let gives := fun (m : Mask) (q : Scene) => ∃ u, exec i s = .next u ∧ u.op? id = none ∧ u.mem = s.mem ∧ u.tasks = s.tasks ∧ flag u m ∧
      scene u = some q
    let inside := a < scBodies sc.desc ∧ b < scBodies sc.desc
    let edge := fun (j : Bool) => ({ a := min a b, b := max a b, tag := tag, joint := j } : Edge)
    (r = .icon [(l, n, a, b, tag)] →
      (¬ inside → gives 0 sc) ∧ (inside → a = b → gives bit sc) ∧
      (inside → a ≠ b → scCmax sc.desc ≤ sc.contacts.length → gives 0 sc) ∧
      (inside → a ≠ b → sc.contacts.length < scCmax sc.desc →
        gives bit (({ sc with contacts := sc.contacts ++ [edge false] } : Scene).union a b))) ∧
    (r = .ijnt [(l, n, a, b, tag)] del →
      (¬ inside → gives 0 sc) ∧
      (inside → del = true → edge true ∈ sc.joints → gives bit { sc with joints := sc.joints.erase (edge true) }) ∧
      (inside → del = true → edge true ∉ sc.joints → gives 0 sc) ∧
      (inside → del = false → a = b → gives bit sc) ∧
      (inside → del = false → a ≠ b → scJmax sc.desc ≤ sc.joints.length → gives 0 sc) ∧
      (inside → del = false → a ≠ b → sc.joints.length < scJmax sc.desc →
        gives bit (({ sc with joints := sc.joints ++ [edge true] } : Scene).union a b))) ∧
    (r = .isceneDel n → sc.stepOver = true → ∃ u, exec i s = .next u ∧ u.op? id = none ∧ scene u = none) ∧
    (∀ d desc proto, r = .iscene d desc proto → o.p6 = none →
      let tenant := (o.who.map (·.2)).getD 0
      let frames := (8 * scBodies desc + 16 * (scCmax desc + scJmax desc) + 65535) / 65536
      let fits := p.framesOf tenant none + frames ≤ rcbField p.root 3
      (∀ k, k < 256 → (∀ z ∈ p.scenes, z.num ≠ k) → (∀ j, j < k → ∃ z ∈ p.scenes, z.num = j) →
        (fits → ∃ u q, exec i s = .next u ∧ u.op? id = none ∧ flag u o.mask ∧ u.part? p.num = some q ∧
          q.scenes = p.scenes ++ [{ num := k, tenant := tenant, desc := desc, proto := proto }]) ∧
        (¬ fits → ∃ u, exec i s = .next u ∧ u.op? id = none ∧ flag u 0 ∧ u.part? p.num = some p)) ∧
      ((∀ k, k < 256 → ∃ z ∈ p.scenes, z.num = k) → ∃ u, exec i s = .next u ∧ flag u 0 ∧ u.part? p.num = some p))) ∧
  (∀ (s : State) (id dur n link part : Nat) (o : Op) (p : Partition) (sc : Scene), s.op? id = some o → o ∈ s.ops →
    o.kind = .task (.istep n link) dur → o.at_ ≤ s.now → s.atFront o = true → s.partOf o = some part → s.part? part = some p →
    (∀ q ∈ s.ops, ∀ k z, q.kind = .task (.istep n k) z → s.partOf q = some part → q = o) →
    p.scenes.find? (fun z => z.num == n) = some sc → sc.stepOver = true →
    let es := sc.joints ++ sc.contacts
    let awake := fun (b : Nat) => (∃ e ∈ sc.contacts, e.a = b ∨ e.b = b) ∨ ∃ i ∈ sc.islands, i.state ≠ .sleeping ∧ b ∈ i.bodies
    ∃ u q sc', exec (.islandStepBoundary part n) s = .next u ∧ u.mem = s.mem ∧ u.part? part = some q ∧
      q.scenes.find? (fun z => z.num == n) = some sc' ∧ sc'.step = sc.step + 1 ∧ sc'.contacts = [] ∧ sc'.joints = sc.joints ∧
      (∀ e ∈ es, e.a ≠ e.b → ∃ i ∈ sc'.islands, e.a ∈ i.bodies ∧ e.b ∈ i.bodies) ∧
      (∀ b, awake b → ∃ i ∈ sc'.islands, b ∈ i.bodies) ∧
      (∀ i ∈ sc'.islands, i.num ∈ i.bodies ∧ (∀ b ∈ i.bodies, i.num ≤ b) ∧
        ((∃ b ∈ i.bodies, awake b) → i.state ∈ [IState.running, .patched, .idle]) ∧ ((∀ b ∈ i.bodies, ¬ awake b) → i.state = .sleeping)) ∧
      sc'.islands.Pairwise (fun i j => ∀ b ∈ i.bodies, b ∉ j.bodies) ∧
      ∃ o', u.op? id = some o' ∧ o'.kind = .task .made 0) ∧
  (∀ (s : State) (task : Nat) (o : Op) (x : Gang) (t : Task) (p : Partition) (core : Nat) (isl : IslGang) (sc : Scene)
      (ls : List (Nat × Nat × Nat)), o ∈ s.ops → o.gang = task → o.kind = .fill none → o.at_ ≤ s.now →
    (∀ q ∈ s.ops, q.gang = task → ∀ k, q.kind = .fill k → q = o) → s.gang? task = some x → s.task? task = some t →
    s.part? x.part = some p → x.core = some core → x.isl = some isl → p.scenes.find? (fun z => z.num == isl.scene) = some sc →
    s.dev.injs = [] → s.dev.cxlUp = BitVec.allOnes _ → Memory.wf x.sp = true →
    let slots := ((sc.island? isl.island).getD default).patchBodies isl.patch
    let walked := s.readBodies core p x.tenant false sc slots (s.readerOf x.id)
    walked.2 = .ok ls → slots.length ≤ 32 * x.foot.tus → slots.length < 2 ^ 16 → ∃ u x', exec (.islandFillDone task) s = .next u ∧
      u.gang? task = some x' ∧ x'.ready = true ∧ u.mem = walked.1.mem ∧ (∀ q ∈ u.ops, q.id ≠ o.id) ∧
      Memory.read x'.sp 4 2 = slots.length ∧ Memory.read x'.sp 12 1 = sc.num % 2 ^ 8 ∧ Memory.read x'.sp 28 2 = 32 * x.foot.tus % 2 ^ 16 ∧
      (∀ k, k < 32 * x.foot.tus → Memory.read x'.sp (0x40 + 4 * k) 4 = match slots[k]? with
        | some b => b % 2 ^ 32
        | none => 2 ^ 32 - 1) ∧
      (∀ j, j < slots.length * scBpb sc.desc → Memory.get x'.sp (0x40 + 128 * x.foot.tus + j) =
        (ls.flatMap (fun ch => walked.1.mem.bytes ch.2.1 ch.2.2)).getD j 0)) ∧
  (∀ (s : State) (part n num : Nat) (p : Partition) (sc : Scene) (i : Island), s.part? part = some p →
    p.scenes.find? (fun z => z.num == n) = some sc → sc.island? num = some i → i.state = .growfail → i.tasks = [] →
    (∀ k ∈ sc.pending num, k.state ≠ .absorbed) → ∃ u q sc' i', exec (.islandRelaunch part n num) s = .next u ∧ u.mem = s.mem ∧
      u.part? part = some q ∧ q.scenes.find? (fun z => z.num == n) = some sc' ∧ i' ∈ sc'.islands ∧
      (∀ b, b ∈ i'.bodies ↔ b ∈ i.bodies ∨ ∃ k ∈ sc.pending num, b ∈ k.bodies) ∧ i'.state ∈ [IState.running, .patched, .idle] ∧
      sc'.step = sc.step) ∧
  (∀ (s : State) (g t k : Nat) (x : Gang) (z : Slot), s.gang? g = some x → s.slot? g t k = some z → z.stall = some .absorbed →
    s.growFree x = true → exec (.igrowProceed g t k) s = .next (s.modSlot g t k (fun z => { z with stall := none })))

/-- R311, R314 to R319, R411: TRAP; SRET and SRET.skip, which reinstate the interrupted slot; RDSR and WRSR with their privilege, and the
value of every special register that RDSR delivers. -/
def Obligations.TrapsAndSpecialRegisters : Prop :=
  (∀ (t : Tail) (arg : BitVec 16) s c, Issues s t c →
    (c.act = 0 → exec (.trap t arg) s = retired t c (spent s) false) ∧
    (c.act ≠ 0 → exec (.trap t arg) s = trapped c s .brk c.act 0 arg)) ∧
  (∀ (t : Tail) (skip : Bool) s c, Issues s t c → s.gang? c.g = some c.x → s.tk? c.g c.t = some c.tk → s.slot? c.g c.t c.k = some c.sl →
    let i := if skip then Instr.sretSkip t else Instr.sret t
    let lanes := if c.act = 0 then c.sl.mask else c.act
    (c.tk.sup = false ∨ c.tk.frame = none → exec i s = trapped c s .priv lanes 0 0) ∧
    ∀ f, c.tk.sup = true → c.tk.frame = some f →
      let merged := c.k = f.slot ∧ c.tk.stack.length = f.depth ∧
        (f.otherValid = true ∨ ∀ z, c.tk.slots[1 - f.slot]? = some z → z.valid = false)
      let mask := f.mask &&& ~~~f.ended &&& ~~~c.tk.dead
      let pc := if skip then f.pc + 8 else f.pc
      (¬ merged → exec i s = trapped c s .sretdiv lanes 0 0) ∧
      (merged → mask ≠ 0 → f.join ≠ some pc → c.tk.ended = false → ∃ u y z, exec i s = .next u ∧ u.mem = s.mem ∧ u.tk? c.g c.t = some y ∧
        u.slot? c.g c.t c.k = some z ∧ y.sup = false ∧ y.frame = none ∧ z.pc = pc ∧ z.mask = mask ∧ z.valid = true ∧
        z.queue = f.queue ∧ z.pushes = f.pushes ∧ z.bregs = f.bregs ∧ z.join = f.join ∧ y.n = c.tk.n ∧ y.g = c.tk.g ∧ y.p = c.tk.p ∧
        y.stack = c.tk.stack ∧ (t.sba = 0 → z.tags = c.sl.tags))) ∧
  (∀ (t : Tail) (d : Dst) (k : BitVec 12) (a : USrc) s c, Acts s t c →
    let v := c.tk.uval a
    let rd := Instr.rdsr t d k
    let wr := Instr.wrsr t k a
    (c.tk.sup = false → 0x00D ≤ k.toNat → exec rd s = trapped c s .priv c.act 0 0) ∧
    let kept := k = 0 ∨ 0x018 ≤ k.toNat
    let held := if k = 0 then c.tk.fpctl else c.tk.sscr.getD (k.toNat - 0x018) 0
    (c.tk.sup = true ∨ k.toNat < 0x00D → kept → exec rd s = retired t c (inFlight c (spent s) 8
      (.values (goesTo d 1) (List.replicate 32 (held.setWidth 128)) none none)) true) ∧
    (c.tk.sup = true ∨ k.toNat < 0x00D → ¬ kept → exec rd s = retired t c (inFlight c (spent s) 8 (.rdsr (goesTo d 1) k.toNat)) true) ∧
    (c.tk.sup = false → k ≠ 0 → exec wr s = trapped c s .priv c.act 0 0) ∧
    (k = 0 → 2 ^ 3 ≤ v.toNat → exec wr s = trapped c s .qerr c.act 0 0) ∧
    (c.tk.sup = true ∨ k = 0 → (k = 0 → v.toNat < 2 ^ 3) → exec wr s =
      retired t c (onItsWay c (spent s) 2 { mask := c.act, inHandler := c.tk.sup, wrsr := some (k.toNat, v) }) true)) ∧
  (∀ (s : State) (id k : Nat) (o : Op) (d : LDest) (x : Gang) (y : Tussock) (q : Task) (p : Partition), s.op? id = some o → o.kind = .rdsr d k →
    s.opDue o = true → s.gang? o.gang = some x → s.tk? o.gang o.tk = some y → s.task? x.id = some q → s.part? x.part = some p →
    o.mask ≠ 0 →
    let v : BitVec 64 := match k with
      | 0x000 => y.fpctl
      | 0x001 => if y.sup then 1 else 0
      | 0x002 => BitVec.ofNat 64 (x.id % 2 ^ 24)
      | 0x003 => BitVec.ofNat 64 q.job
      | 0x004 => BitVec.ofNat 64 q.launch
      | 0x005 => BitVec.ofNat 64 (x.part % 2 ^ 6 + x.tenant % 2 ^ 8 * 2 ^ 8 + q.depth % 2 ^ 4 * 2 ^ 16)
      | 0x008 => s.dev.cores.extractLsb' 0 64
      | 0x009 => s.dev.cores.extractLsb' 64 64
      | 0x00A => s.dev.cores.extractLsb' 128 64
      | 0x00B => p.granules.setWidth 64
      | 0x00C => BitVec.ofNat 64 s.now
      | 0x00D =>
        let m := ((p.measures.find? (fun e => e.1 == x.tenant)).map (·.2)).getD 0
        ((s.dev.counters.find? (fun e => e.1 == m)).map (·.2)).getD 0
      | 0x010 => y.trapPc
      | 0x011 => y.trapCode
      | 0x012 => y.trapMask
      | 0x013 => y.trapAddr
      | _ => y.sscr.getD (k - 0x018) 0
    ∃ u y', exec (.longLatencyCompletion id) s = .next u ∧ u.op? id = none ∧ u.mem = s.mem ∧ u.tk? o.gang o.tk = some y' ∧
      y'.fpctl = y.fpctl ∧ y'.sscr = y.sscr ∧ y'.p = y.p ∧
      (∀ r, d = .g r → r < y.g.length → (k < 0x010 ∨ 0x013 < k ∨ y.frame ≠ none) → y'.g[r]? = some v) ∧
      (∀ r l, d = .n r 1 → r < y.n.length → o.mask.getLsbD l = true → y.dead.getLsbD l = false → y.parked = false →
        (k < 0x010 ∨ 0x013 < k ∨ y.frame ≠ none) → (y'.n.getD r []).getD l 0 = v.extractLsb' 0 32))

/-- R311, R320, R321, R323, R418 to R420, R440: ERRINJ, HALT and CKPT with their traps and refusals; what each does; an injection that is
armed; the status and counter that a CKPT delivers. -/
def Obligations.SystemInstructions : Prop :=
  (∀ (t : Tail) (d : Dst) (a b ctl : USrc) s c, Acts s t c →
    let v := (c.tk.uval a).toNat
    let w := (c.tk.uval ctl).toNat
    let p := c.part s
    let priv := c.tk.sup = true ∧ p.sys = true
    let array := v / 2 ^ 60
    let addr : BitVec 48 := BitVec.ofNat 48 v
    let inj := Instr.errinj t a b ctl
    let hlt := Instr.halt t a
    let ck := Instr.ckpt t d a b ctl
    let fine := array < 8 ∧ v / 2 ^ 48 % 2 ^ 12 = 0 ∧ w < 2
    let port := ((List.range 16).find? (fun k => p.cxl.getLsbD k)).getD 0
    let place := if array ≠ 7 ∧ addr.toNat < 6 * 2 ^ 30 then addr.toNat else 2 ^ 52 + port * 2 ^ 48 + addr.toNat
    let inside := p.ownsArray array addr = true
    (¬ priv → exec inj s = trapped c s .priv c.act 0 0 ∧ exec hlt s = trapped c s .priv c.act 0 0) ∧
    (priv → ¬ fine → exec inj s = trapped c s .qerr c.act 0 0) ∧
    (priv → fine → ¬ inside → exec inj s = trapped c s .prot c.act addr.toNat 0) ∧
    (priv → fine → inside → ∃ s2 due home, exec inj s = retired t c s2 true ∧ SameData s s2 ∧ c.clk < due ∧
      s2.ops = s.ops ++ [opOf c s (some c.core) due none (.inject array home (decide (w = 1)) addr (c.tk.uval b))] ∧
      home = (if array = 0 ∨ 6 ≤ array then homeOf p place else addr.toNat / 2 ^ 40)) ∧
    (priv → 2 ^ 16 ≤ v → exec hlt s = trapped c s .qerr c.act 0 0) ∧
    (priv → v < 2 ^ 16 → p.halting ≠ none → exec hlt s = retired t c (spent s) false) ∧
    (priv → v < 2 ^ 16 → p.halting = none → s.part? p.num = some p → ∃ s2 q, exec hlt s = retired t c s2 false ∧ SameData s s2 ∧
      s2.part? p.num = some q ∧ q.halted = true ∧ q.halting = some (BitVec.ofNat 16 v) ∧ (∀ k, k < 256 → k ∈ q.held) ∧
      (∀ k, p.running = some k → k < 256 → ∃ z, q.drain = some z ∧ z ≤ s.now)) ∧
    (let tenant := v
     let base := (c.tk.uval b).toNat
     let known := v < 2 ^ 8 ∧ s.tenantRcb p tenant ≠ none ∧ tenant ≠ c.x.tenant ∧ ∀ e ∈ p.ckpts, e.1 ≠ tenant
     let size := imageSize (s.sections p tenant)
     let m := p.measureOf tenant
     let counter := s.dev.counterOf m
     let still := (spent s).moving p.num tenant = []
     let own := (spent s).ownAccs c.g c.t c.k
     let queued := s.fifoAll (c.core / 8)
     let answers := fun (n : Nat) => exec ck s = retired t c (inFlight c (spent s) 1
       (.values (goesTo d 2) (List.replicate 32 (BitVec.ofNat 128 n)) (some 0) none)) true
     (c.tk.sup = false → exec ck s = trapped c s .priv c.act 0 0) ∧
     (c.tk.sup = true → ¬ known → exec ck s = trapped c s .qerr c.act 0 0) ∧
     (c.tk.sup = true → known → base % 2 ^ 16 ≠ 0 → exec ck s = trapped c s .align c.act base 0) ∧
     (c.tk.sup = true → known → base % 2 ^ 16 = 0 → still → w < size → answers size) ∧
     (c.tk.sup = true → known → base % 2 ^ 16 = 0 → still → size ≤ w → s.dev.ctrFull m = true → answers 0) ∧
     (∀ cuts ls, c.tk.sup = true → known → base % 2 ^ 16 = 0 → still → size ≤ w → s.dev.ctrFull m = false →
       cuts = (pageCuts base size (size / 65536 + 2)).map (fun q => ((q.1 : Int), q.2)) →
       let walked := (spent s).engineWalk c.core p c.x.tenant true .write cuts (c.reader (spent s))
       walked.2 = .ok ls →
       (own ≠ [] ∨ s.now < queued →
         exec ck s = .next (walked.1.modSlot c.g c.t c.k (fun z => { z with stall := some (.drain own queued) }))) ∧
       (own = [] → queued ≤ s.now → ∃ s2 due, exec ck s = retired t c s2 true ∧ s2.tasks = s.tasks ∧ s.now < due ∧
         (∀ g, (s2.gang? g).map (fun x => (x.sp, x.xt, x.yt)) = (s.gang? g).map (fun x => (x.sp, x.xt, x.yt))) ∧
         s2.dev.counterOf m = counter + 1 ∧ (∀ m', m' ≠ m → s2.dev.counterOf m' = s.dev.counterOf m') ∧
         (∃ o ∈ s2.ops, { o with id := s.nextOp } = sentOut c s none due none (.ckpt (goesTo d 2) tenant (counter + 1) true)) ∧
         (∀ q, s.part? p.num = some p → s2.part? p.num = some q → q.ckpts = p.ckpts ++ [(tenant, c.g)]))))) ∧
  (∀ (s : State) (p : Partition) (tenant : Nat) (counter : BitVec 64), ∃ h rest, s.image p tenant counter = (0, bytesOfNat 256 h) :: rest ∧
    h % 2 ^ 32 = 0x4B433953 ∧ h / 2 ^ 32 % 2 ^ 16 = 1 ∧ h / 2 ^ 48 % 2 ^ 8 = tenant % 2 ^ 8 ∧ h / 2 ^ 56 % 2 ^ 6 = p.num % 2 ^ 6 ∧
    h / 2 ^ 64 % 2 ^ 64 = counter.toNat ∧ h < 2 ^ 2048 ∧ ∀ e ∈ rest, 0x100 ≤ e.1) ∧
  (∀ (s : State) (id array home : Nat) (once : Bool) (addr : BitVec 48) (mask : BitVec 64) (o : Op), s.op? id = some o →
    o.kind = .inject array home once addr mask → s.opDue o = true → ∃ u, exec (.longLatencyCompletion id) s = .next u ∧ u.op? id = none ∧
      u.mem = s.mem ∧ (∀ j ∈ u.dev.injs, j ∈ s.dev.injs ∨ (mask ≠ 0 ∧ j = { array := array, home := home, persist := once, addr := addr, mask := mask })) ∧
      (mask ≠ 0 → { array := array, home := home, persist := once, addr := addr, mask := mask } ∈ u.dev.injs) ∧
      (∀ j ∈ s.dev.injs, j.nat = true ∨ j.array ≠ array ∨ j.home ≠ home → j ∈ u.dev.injs)) ∧
  (∀ (s : State) (id tenant : Nat) (o : Op) (d : LDest) (v : BitVec 64) (ok : Bool) (y : Tussock) (old : Mask) (tn : Nat) (p : Partition),
    s.op? id = some o → o.kind = .ckpt d tenant v ok → s.opDue o = true → s.tk? o.gang o.tk = some y → y.p[6]? = some old →
    o.who = some (p.num, tn) → s.part? p.num = some p → o.mask ≠ 0 → ∃ u y' p', exec (.longLatencyCompletion id) s = .next u ∧
      u.op? id = none ∧ u.mem = s.mem ∧ u.tk? o.gang o.tk = some y' ∧ u.part? p.num = some p' ∧ (∀ e ∈ p'.ckpts, e.1 ≠ tenant) ∧
      y'.p[6]? = some ((old &&& ~~~o.mask) ||| (if ok then o.mask else 0)) ∧
      ∀ r, d = .g r → r < y.g.length → y'.g[r]? = some v)

/-- R62, R190, R198, R226, R229, R284: the landing of a line of code, of what STAGE and SPILL move, of a descriptor, and of the value and
status of a long-latency operation. -/
def Obligations.LandingsOfLinesAndValues : Prop :=
  (∀ (s : State) (id : Nat) (o : Op) (y : Tussock), s.op? id = some o → s.opDue o = true → s.tk? o.gang o.tk = some y →
    let m := o.mask &&& ~~~y.dead
    let i := Instr.stageComplete id
    let moved := fun (old new : Lanes 32) (l : Nat) => if m.getLsbD l then new.getD l 0 else old.getD l 0
    (∀ regs, o.kind = .stage regs → ∃ u y', exec i s = .next u ∧ u.op? id = none ∧ u.mem = s.mem ∧ u.tk? o.gang o.tk = some y' ∧
      y'.m = y.m ∧ y'.g = y.g ∧ y'.p = y.p ∧
      (∀ r, (∀ e ∈ regs, e.1 ≠ r) → y'.n[r]? = y.n[r]?) ∧
      ∀ r h v, regs.filter (fun e => e.1 == r) = [(r, h, v)] → r < y.n.length → ∀ l, l < 32 →
        (y'.n.getD r []).getD l 0 = moved (y.n.getD r []) (if v = [] then y.m.getD h (List.replicate 32 0) else v) l) ∧
    (∀ regs, o.kind = .spill regs → ∃ u y', exec i s = .next u ∧ u.op? id = none ∧ u.mem = s.mem ∧ u.tk? o.gang o.tk = some y' ∧
      y'.n = y.n ∧ y'.g = y.g ∧ y'.p = y.p ∧
      (∀ r, (∀ e ∈ regs, e.1 ≠ r) → y'.m[r]? = y.m[r]?) ∧
      ∀ r v, regs.filter (fun e => e.1 == r) = [(r, v)] → r < y.m.length → ∀ l, l < 32 →
        (y'.m.getD r []).getD l 0 = moved (y.m.getD r []) v l)) ∧
  (∀ (s : State) (id b line : Nat) (o : Op) (x : Gang) (p : Partition) (y : Tussock) (z : Slot) (r : BReg) (pa fr pg en : Nat) (sb w xb : Bool)
    (ls : List Nat), s.op? id = some o → o.kind = .btLine b line → s.opDue o = true → s.gang? o.gang = some x →
    s.part? x.part = some p → s.tk? o.gang o.tk = some y → s.slot? o.gang o.tk o.slot = some z → z.bregs[b]? = some r →
    walk s.mem p x.tenant (64 * line) .fetch y.sup = .pa pa fr pg en sb w xb ls →
    ∃ u, exec (.btLineLand id) s = .next u ∧ u.op? id = none ∧ u.mem = s.mem ∧
      u.slot? o.gang o.tk o.slot = some { z with bregs := z.bregs.set b (if r.state = .prep then
        { r with lines := r.lines ++ [(line, BitVec.ofNat 512 (s.mem.read pa 64))] } else r) }) ∧
  (∀ (s : State) (id : Nat) (o : Op) (accs : List Acc) (z : Slot), s.op? id = some o → o.kind = .desc accs → s.opDue o = true →
    s.slot? o.gang o.tk o.slot = some z → z.phase.descOp = some id → (∀ a ∈ accs, a.done = true) → accs.length ≤ 8 →
    (∀ a ∈ accs, a.val.toNat < 2 ^ 64) → ∃ u z' d, exec (.longLatencyCompletion id) s = .next u ∧ u.op? id = none ∧ u.mem = s.mem ∧
      u.slot? o.gang o.tk o.slot = some z' ∧ z'.phase.desc = some d ∧ z'.pc = z.pc ∧
      ∀ k a, accs[k]? = some a → d.toNat / 2 ^ (64 * k) % 2 ^ 64 = a.val.toNat) ∧
  (∀ (s : State) (id : Nat) (o : Op) (d : LDest) (vals : Lanes 128) (p6 : Option Mask) (g2 : Option (Nat × BitVec 64)) (y : Tussock) (old : Mask),
    s.op? id = some o → o.kind = .values d vals p6 g2 → s.opDue o = true → s.tk? o.gang o.tk = some y → y.p[6]? = some old →
    y.parked = false → vals.length = 32 → ∃ u y', exec (.longLatencyCompletion id) s = .next u ∧ u.op? id = none ∧ u.mem = s.mem ∧
      u.tk? o.gang o.tk = some y' ∧ y'.m = y.m ∧
      (∀ r l v, d = .g r → r < y.g.length → (∀ q w, g2 = some (q, w) → q ≠ r) → l < 32 → o.mask.getLsbD l = true →
        (∀ j, j < l → o.mask.getLsbD j = false) → vals[l]? = some v → y'.g[r]? = some (v.extractLsb' 0 64)) ∧
      (∀ q w, g2 = some (q, w) → q < y.g.length → y'.g[q]? = some w) ∧
      (∀ r, (∀ q w, g2 = some (q, w) → q ≠ r) → d ≠ .g r → y'.g[r]? = y.g[r]?) ∧
      (∀ r words k l, d = .n r words → k < words → r + k < y.n.length → l < 32 → (y'.n.getD (r + k) []).getD l 0 =
        if (o.mask &&& ~~~y.dead).getLsbD l then (vals.getD l 0).extractLsb' (32 * k) 32 else (y.n.getD (r + k) []).getD l 0) ∧
      (∀ r, (∀ q words, d = .n q words → r < q ∨ q + words ≤ r) → y'.n[r]? = y.n[r]?) ∧
      (∀ b, p6 = none → o.p6 = some b → y'.p[6]? = some ((old &&& ~~~o.mask) ||| (if b then o.mask else 0))) ∧
      (p6 = none → o.p6 = none → y'.p = y.p))

/-- R43, R106, R110, R118, R120, R124, R242, R402: the end of a long wait, which delivers its value and retires the instruction, or lets a
touch of a window issue again; the landing of a push; a fault record that waited at its core enters the buffer. -/
def Obligations.WaitsPushesAndRecords : Prop :=
  (∀ (s : State) (g t k core : Nat) (x : Gang) (y : Tussock) (z : Slot) (w : Wait) (old : Mask), s.gang? g = some x → s.tk? g t = some y →
    s.slot? g t k = some z → z.wait = some w → x.core = some core → y.p[6]? = some old → y.ended = false → s.frozen x = false → y.suspended k = false →
    y.parked = false → z.valid = true → z.waitJoin = false → z.mask ≠ 0 → z.join ≠ some w.next →
    let i := Instr.longWaitSatisfied g t k
    let phase := fun (a : Nat) => (Memory.read x.sp a 16).testBit 64
    let seq := fun (a : Nat) => Memory.read x.sp (a + 8) 2
    let met := (∃ a b, (w.cond = .barrier a b ∨ w.cond = .yieldBarrier a b) ∧ phase a ≠ b) ∨ w.cond = .yieldReady ∨
      (∃ b, w.cond = .barg b ∧ x.phase ≠ b) ∨
      (∃ ls, w.cond = .seq ls ∧ ∀ l ∈ ls, ∀ q, l.2.2 = some q → seq l.2.1 ≠ q.toNat)
    let woken := ∃ gl a v, w.cond = .future gl a ∧ w.woken = some v
    (met ∨ woken → ∃ u y' z', exec i s = .next u ∧ u.mem = s.mem ∧ u.tk? g t = some y' ∧ u.slot? g t k = some z' ∧ z'.wait = none ∧
      z'.pc = w.next ∧ z'.mask = z.mask ∧ z'.tags = z.tags ∧ (w.p6 = none → y'.p = y.p) ∧
      (∀ b, w.p6 = some b → y'.p[6]? = some ((old &&& ~~~w.mask) ||| (if b then w.mask else 0))) ∧
      ((w.cond = .yieldReady ∨ ∃ a b, w.cond = .yieldBarrier a b) → s.clk core < z'.fetchAt) ∧
      (w.d = .none → y'.g = y.g ∧ y'.n = y.n) ∧
      (∀ r v, w.d = .g r → w.woken = some v → woken → r < y.g.length → y'.g[r]? = some v) ∧
      (∀ r ls, w.d = .n r 1 → w.cond = .seq ls → r < y.n.length → ∀ l a q, l < 32 → ls.filter (fun e => e.1 == l) = [(l, a, q)] →
        w.mask.getLsbD l = true → y.dead.getLsbD l = false → ((y'.n.getD r []).getD l 0).toNat = seq a)) ∧
    (∀ ks, w.cond = .window ks → x.loopMember t k = false →
      (∀ j ∈ ks, ∀ v, x.windows[j]? = some (some v) → v.state = .present) →
      ∃ u z', exec i s = .next u ∧ u.mem = s.mem ∧ u.slot? g t k = some z' ∧ z'.wait = none ∧ z'.pc = z.pc ∧ z'.mask = z.mask)) ∧
  (∀ (s : State) (id slot add loc : Nat) (v : BitVec 64) (o : Op) (x : Gang), s.op? id = some o → o.kind = .push slot v add loc →
    s.opDue o = true → s.pushBehind o slot = false → s.gang? o.gang = some x → Memory.wf x.sp = true →
    ∃ u x', exec (.pushLand id) s = .next u ∧ u.op? id = none ∧ u.mem = s.mem ∧ u.gang? o.gang = some x' ∧
      Memory.read x'.sp slot 8 = v.toNat ∧ Memory.read x'.sp (slot + 8) 2 = (Memory.read x.sp (slot + 8) 2 + add) % 0x10000 ∧
      Memory.read x'.sp (slot + 10) 6 = 0 ∧ (∀ b, b < slot ∨ slot + 16 ≤ b → Memory.get x'.sp b = Memory.get x.sp b) ∧
      x'.tks = x.tks) ∧
  (∀ (s : State) (part : Nat) (p : Partition) (r : BitVec 256) (rest : List (BitVec 256)), s.part? part = some p →
    p.waitRecs = r :: rest → p.records.length < 4096 → s.mem.wf = true →
    let a := p.t0 + 0x120000 + 32 * ((p.bufferHead + p.records.length) % 4096)
    ∃ u p', exec (.faultRecordEnter part) s = .next u ∧ u.part? part = some p' ∧ p'.waitRecs = rest ∧
      p'.records = p.records ++ [(r.toNat / 2 ^ 96 % 2 ^ 32, r)] ∧ u.mem.read a 32 = r.toNat ∧
      (∀ b, b < a ∨ a + 32 ≤ b → u.mem.get b = s.mem.get b) ∧ u.gangs = s.gangs ∧ u.tasks = s.tasks ∧
      (p.records ≠ [] → u.outbox = s.outbox) ∧
      (p.records = [] → ¬ Prompt s part → u.outbox = s.outbox ∧ ∃ e, p'.unsent = p.unsent ++ [e] ∧ e.waits = s.released part) ∧
      (p.records = [] → Prompt s part → ∃ e, u.outbox = s.outbox ++ [e] ∧ hdrType e.hdr = 2 ∧ hdrOp e.hdr = 0x85 ∧ hdrArg e.hdr 0 = 1))

/-- R41, R42, R48, R367: the octant's selection. Slots passed over by YLD come last; a slot that has gone unselected for 56 clocks comes
first, the longest of them; else round-robin from the last candidate, or the slot selected at the clock before and then the earliest
activated. -/
def Obligations.IssueSelection : Prop :=
  ∀ (s : State) (core oct : Nat), s.cur = none → oct < (s.core core).octs.length → core < s.cores.length →
    let swept : State := { s with sweep := s.sweep.filter (fun e => e != (core, oct)) }
    let cs := swept.candidates core oct
    let o := (s.core core).octs.getD oct {}
    let rr := ∃ e ∈ s.actives core oct, e.2.1.rr = true
    let passed := fun (d : Cand) => o.prev = some d.id ∧ d.yld = true
    let pool := fun (d : Cand) => d ∈ cs ∧ (passed d → ∀ e ∈ cs, passed e)
    let urgent := ∃ d, pool d ∧ 56 ≤ d.urgent
    let keeps := fun (d : Cand) => pool d ∧ o.fresh = true ∧ o.prev = some d.id ∧ d.yld = false
    let older := fun (d e : Cand) => d.actAt < e.actAt ∨ (d.actAt = e.actAt ∧ d.num ≤ e.num)
    let far := fun (d : Cand) => (d.num + 15 - o.cand) % 8
    ∃ u, exec (.issueSelect core oct) s = .next u ∧ u.mem = s.mem ∧ u.ops = s.ops ∧ u.sweep = swept.sweep ∧
      (cs = [] → u.cur = none) ∧
      (cs ≠ [] → ∃ c, pool c ∧ u.cur = some { gang := c.id.1, tk := c.id.2.1, slot := c.id.2.2 } ∧
        ((u.core core).octs[oct]?).map (·.prev) = some (some c.id) ∧
        (urgent → ∀ d, pool d → d.urgent < c.urgent ∨ (d.urgent = c.urgent ∧ older c d)) ∧
        (¬ urgent → rr → ∀ d, pool d → far c ≤ far d) ∧
        (¬ urgent → ¬ rr → (∃ d, keeps d) → keeps c) ∧
        (¬ urgent → ¬ rr → (¬ ∃ d, keeps d) → ∀ d, pool d → older c d) ∧
        ∀ z, u.slot? c.id.1 c.id.2.1 c.id.2.2 = some z → z.yld = false ∧ z.stall = none)

/-- R25, R29, R30, R36, R46, R414 to R416: the task that is placed next, the state of a gang at entry, a saved gang that comes back, and
the unloading of a gang for a task of lower index of its ORDERED launch. -/
def Obligations.PlacementAndUnloading : Prop :=
  (∀ (s : State) (p : Partition) (w : Waiting), s.nextPlaced p = some w → p.drain = none ∧ p.halted = false ∧
    p.running = some w.task.tenant ∧ w.task ∈ s.tasks ∧ w.task.ready = true ∧ w.task.ended = false ∧ s.roomFor p w ≠ [] ∧
    ∀ k ∈ s.tasks, ∀ v, s.waitingTask p k = some v → k.tenant = w.task.tenant → s.roomFor p v ≠ [] →
      v.prio < w.prio ∨ (v.prio = w.prio ∧ w.task.readySeq ≤ v.task.readySeq)) ∧
  (∀ (s : State) (task : Nat) (k : Task) (p : Partition) (w : Waiting), s.task? task = some k → s.part? k.part = some p →
    s.nextPlaced p = some w → w.task.id = task →
    let i := Instr.placeGang task
    (∀ ch, w.gang = none → w.ch = some ch → ∃ u x core, exec i s = .next u ∧ u.mem = s.mem ∧ u.gang? task = some x ∧
      x.core = some core ∧ core ∈ s.roomFor p w ∧ x.foot = w.task.foot ∧ x.prio = effective 6 ch ∧ x.handler.toNat = effective 10 ch % 2 ^ 48 ∧
      x.sp = [] ∧ x.tks.length = w.task.foot.tus ∧
      ∀ (j : Nat) (y : Tussock), x.tks[j]? = some y → y.active = none ∧ y.sup = false ∧ y.ended = false ∧
        y.n = List.replicate 32 (List.replicate 32 0) ∧ y.p = List.replicate 7 0 ∧ y.fpctl = 0 ∧ y.m.length = w.task.foot.regsOf j ∧
        (w.task.isl = none → y.g[0]? = some w.task.args ∧ y.g[1]? = some (BitVec.ofNat 64 w.task.index) ∧
          y.g[3]? = some (BitVec.ofNat 64 w.task.rank) ∧ y.g[4]? = some (BitVec.ofNat 64 w.task.ranks)) ∧
        y.g[63]? = some (BitVec.ofNat 64 (w.task.privBase + (w.task.index * w.task.foot.tus + j) * w.task.privSz + w.task.privSz)) ∧
        y.g.length = 64 ∧
        ∃ a b, y.slots = [a, b] ∧ a.valid = true ∧ b.valid = false ∧ a.mask = 0xFFFFFFFF ∧ (w.task.foot.roles = [] → a.pc = w.task.foot.entry)) ∧
    (∀ x, w.gang = some x → x.loops = [] → ∃ u x' core, exec i s = .next u ∧ u.mem = s.mem ∧ u.gang? task = some x' ∧
      x'.core = some core ∧ core ∈ s.roomFor p w ∧ x'.outAt = x.outAt ∧ x'.sp = x.sp ∧ x'.xt = x.xt ∧ x'.yt = x.yt ∧
      ∀ (j : Nat) (y : Tussock), x.tks[j]? = some y → ∃ y', x'.tks[j]? = some y' ∧ y'.n = y.n ∧ y'.m = y.m ∧ y'.g = y.g ∧ y'.p = y.p ∧
        y'.flags = y.flags ∧ y'.fpctl = y.fpctl ∧ y'.stack = y.stack ∧ y'.slots.map (fun z => (z.pc, z.mask, z.valid, z.wait)) =
          y.slots.map (fun z => (z.pc, z.mask, z.valid, z.wait)))) ∧
  (∀ (s : State) (g : Nat) (x : Gang), s.gang? g = some x → s.unloadDue x = true → s.dev.injs = [] →
    let i := Instr.orderedUnload g
    (x.stop = false → ∃ u, exec i s = .next u ∧ u.mem = s.mem ∧ u.ops = s.ops ∧ u.gang? g = some { x with stop := true }) ∧
    (x.stop = true → (∀ o ∈ s.ops, ∀ l m, o.gang = g → o.kind ≠ .loop l ∧ o.kind ≠ .merge m) → ∃ u x', exec i s = .next u ∧ u.mem = s.mem ∧
      u.gang? g = some x' ∧ x'.core = none ∧ x'.outAt = x.outAt ∧ x'.sp = x.sp ∧ x'.xt = x.xt ∧ x'.yt = x.yt ∧
      ∀ (j : Nat) (y : Tussock), x.tks[j]? = some y → ∃ y', x'.tks[j]? = some y' ∧ y'.n = y.n ∧ y'.m = y.m ∧ y'.g = y.g ∧ y'.p = y.p ∧
        y'.active = none ∧ y'.slots.map (fun z => (z.pc, z.mask, z.valid)) = y.slots.map (fun z => (z.pc, z.mask, z.valid))))

/-- R42 to R45, R59, R62, R367: activation of a ready tussock at the lowest free position, the end of its staging, the parking of a
waiting tussock, and the watchdog. -/
def Obligations.ActivationAndParking : Prop :=
  (∀ (s : State) (g t core a : Nat) (x : Gang) (y : Tussock), s.gang? g = some x → s.tk? g t = some y →
    s.activateAt x t y = some (core, a) → (∀ i ∈ s.dev.injs, i.array ≠ 2 ∨ i.home ≠ core) → ∃ (u : State) (y' : Tussock),
      exec (.activateTussock g t) s = .next u ∧ u.mem = s.mem ∧ u.ops = s.ops ∧ u.tk? g t = some y' ∧ x.core = some core ∧ a < 4 ∧
      (∀ r ∈ s.residents core y.oct, r.2.2.active ≠ some a) ∧
      (∀ b, b < a → ∃ r ∈ s.residents core y.oct, r.2.2.active = some b) ∧
      y'.active = some a ∧ y'.actAt = s.clk core ∧ y'.parked = false ∧ y'.m = y.m ∧ y'.g = y.g ∧ y'.p = y.p ∧ y'.slots = y.slots ∧
      y'.staging = some (s.clk core + stageClocks (y.home.filterMap id).length) ∧
      (y.parked = false → y'.n = y.n) ∧
      ∀ (r h : Nat), y.parked = true → y.home[r]? = some (some h) → y'.n[r]? = some (y.m.getD h (List.replicate 32 0))) ∧
  (∀ (s : State) (g t core c : Nat) (x : Gang) (y : Tussock), s.gang? g = some x → s.tk? g t = some y → x.core = some core →
    y.staging = some c → c ≤ s.clk core →
    exec (.stagingDone g t) s = .next (s.modTk g t (fun z => { z with staging := none })) ∧
    (s.modTk g t (fun z => { z with staging := none })).tk? g t = some { y with staging := none }) ∧
  (∀ (s : State) (g t core c a : Nat) (x : Gang) (y : Tussock), s.gang? g = some x → s.tk? g t = some y → x.core = some core →
    y.active = some a → y.ended = false → y.staging = none → s.frozen x = false → y.waitSince = some c → c + 256 ≤ s.clk core →
    (∀ z ∈ y.slots, z.valid = true → z.waitJoin = true ∨ ∃ w, z.wait = some w ∧ w.cond ≠ .dead) →
    (∃ z ∈ y.slots, z.valid = true ∧ z.waitJoin = false ∧ ∃ w, z.wait = some w ∧ w.cond ≠ .dead) →
    (∀ o ∈ s.ops, o.gang = g → o.tk = t → ∀ l m, o.kind ≠ .stage l ∧ o.kind ≠ .spill m) → ∃ (u : State) (y' : Tussock), exec (.parkTussock g t) s = .next u ∧
      u.mem = s.mem ∧ u.tk? g t = some y' ∧ y'.active = none ∧ y'.parked = true ∧ y'.g = y.g ∧ y'.p = y.p ∧
      y'.slots.map (fun z => (z.pc, z.mask, z.wait)) = y.slots.map (fun z => (z.pc, z.mask, z.wait)) ∧
      (∀ z ∈ y'.slots, ∀ b ∈ z.bregs, b.lines = [] ∧ b.state ≠ .prep) ∧
      (∀ (h : Nat), (∀ (r : Nat), y.home[r]? ≠ some (some h)) → y'.m[h]? = y.m[h]?) ∧
      ∀ (r h : Nat), y.home[r]? = some (some h) → (∀ (q : Nat), y.home[q]? = some (some h) → q = r) → h < y.m.length →
        y'.m[h]? = some (y.n.getD r (List.replicate 32 0))) ∧
  (∀ (s : State) (g t k : Nat) (x : Gang) (y : Tussock) (z : Slot) (w : Wait), s.gang? g = some x → s.tk? g t = some y →
    s.slot? g t k = some z → z.wait = some w → w.cond ≠ .dead → x.core ≠ none → y.ended = false → s.frozen x = false →
    y.suspended k = false → s.overdue x w = true →
    let i := Instr.deadwait g t k
    (∀ a, y.parked = false → y.active = some a → y.staging = none → exec i s =
      .next ((s.modTk g t (fun v => { v with waitSince := none })).takeTrap g t k { code := .deadwait, lanes := z.mask })) ∧
    (y.parked = true → ∃ u y' z' w', exec i s = .next u ∧ u.mem = s.mem ∧ u.tk? g t = some y' ∧ u.slot? g t k = some z' ∧ z'.wait = some w' ∧
      y'.readySeq ≠ 0 ∧ y'.parked = true ∧ w'.cond = .dead ∧ z'.pc = z.pc))

/-- R377, R429, R434 to R438, R440, R450: the arbiters, the patrol scrub, a port whose link stays down, an injection through JTAG, the
management addresses, and the first stage of boot. -/
def Obligations.DeviceUpkeep : Prop :=
  (∀ (s : State) (ch : Nat), (∃ r ∈ s.dev.demand, r.ch = ch) → (∀ c ∈ s.dev.arb, 0 < c.den) →
    let d := s.dev
    let share := fun (p j w : Nat) => ((d.counter ch p j).num, (d.counter ch p j).den * w)
    let least := fun (a b : Nat × Nat) => a.1 * b.2 ≤ b.1 * a.2
    ∃ r ∈ d.demand, r.ch = ch ∧ d.demand.find? (fun e => e.ch == ch && e.part == r.part && e.job == r.job) = some r ∧
      (∀ e ∈ d.demand, e.ch = ch → e.part = r.part →
        least (share r.part r.job (s.jobWeight r.part r.job)) (share r.part e.job (s.jobWeight r.part e.job))) ∧
      (96 ≤ ch → ∀ e ∈ d.demand, e.ch = ch →
        least (share r.part (2 ^ 48) (s.portWeight ch r.part)) (share e.part (2 ^ 48) (s.portWeight ch e.part))) ∧
      let used := ((d.arb.filter (fun e => e.ch == ch && e.job != 2 ^ 48)).map (·.served)).foldl (· + ·) 0
      let room := ch < 96 ∨ used + r.units ≤ d.portCap (ch - 96)
      (¬ room → exec (.arbiterServe ch) s = .next s) ∧
      (room → ∃ u : State, exec (.arbiterServe ch) s = .next u ∧ u.mem = s.mem ∧ u.ops = s.ops ∧ u.parts = s.parts ∧
        u.dev.demand = d.demand.erase r ∧
        let grown := fun (j : Nat) => let c := d.counter ch r.part j
          u.dev.counter ch r.part j = { c with served := c.served + r.units, num := c.num + r.units * c.den }
        (r.job ≠ 2 ^ 48 → grown r.job ∧ (96 ≤ ch → grown (2 ^ 48))))) ∧
  (∀ (s : State) (word : Nat), (s.dev.scrub + 1) * 289678 ≤ s.now → word = s.dev.scrub % 805306368 →
    (∀ i ∈ s.dev.injs, i.array ≠ 0 ∨ i.addr.toNat / 8 ≠ word) → ∃ u, exec (.patrolScrub word) s = .next u ∧ u.mem = s.mem ∧
      u.gangs = s.gangs ∧ u.outbox = s.outbox ∧ u.dev = { s.dev with scrub := s.dev.scrub + 1 }) ∧
  (∀ (s : State) (word : Nat) (i : Inj) (q : Partition), (s.dev.scrub + 1) * 289678 ≤ s.now → word = s.dev.scrub % 805306368 →
    s.dev.injs = [i] → i.array = 0 → i.home = word / 8388608 → i.addr.toNat / 8 = word → i.persist = true → i.nat = false →
    ((List.range 64).filter (fun k => i.mask.getLsbD k)).length = 2 → s.part? (s.sliceOwner (word / 8388608)) = some q → Prompt s q.num →
    ∃ u e, exec (.patrolScrub word) s = .next u ∧ u.mem = s.mem ∧ u.gangs = s.gangs ∧ u.outbox = s.outbox ++ [e] ∧ e.part = q.num ∧
      hdrType e.hdr = 2 ∧ hdrOp e.hdr = 0x87 ∧
      (hdrArg e.hdr 0).toNat = word * 8 * 65536 + i.home % 256 * 256 + 128 + 2 * 16 ∧ u.dev.scrub = s.dev.scrub + 1) ∧
  (∀ (s : State) (port since : Nat), (port, since) ∈ s.dev.downSince → since + 2700000000 ≤ s.now → port < 32 →
    ∃ u, exec (.portLinkDown port) s = .next u ∧ u.mem = s.mem ∧ u.parts = s.parts ∧ u.dev.portCap port = 0 ∧
      (∀ k, k < 32 → k ≠ port → u.dev.portCap k = s.dev.portCap k) ∧ ∀ e ∈ u.dev.downSince, e.1 ≠ port) ∧
  (∀ (s : State) (w : InjWrite), w.array.toNat < 8 →
    let mask := w.ctl.toNat % 2 ^ 64
    let new : Inj := { array := w.array.toNat, home := w.inst, persist := w.ctl.getLsbD 112, addr := BitVec.ofNat 48 (w.ctl.toNat / 2 ^ 64),
                       mask := BitVec.ofNat 64 mask }
    ∃ u, exec (.jtagInjCtlWrite w) s = .next u ∧ u.mem = s.mem ∧ u.gangs = s.gangs ∧ (mask ≠ 0 → new ∈ u.dev.injs) ∧
      (∀ j ∈ u.dev.injs, (j = new ∧ mask ≠ 0) ∨ (j ∈ s.dev.injs ∧ (j.nat = true ∨ j.array ≠ w.array.toNat ∨ j.home ≠ w.inst)))) ∧
  (∀ (s : State) (l : List (BitVec 64)), ∃ u, exec (.mctpAddressList l) s = .next u ∧ u.mem = s.mem ∧ u.parts = s.parts ∧
    (l.length ≤ 16 → u.dev = { s.dev with mgmtAddrs := l })) ∧
  (∀ (s : State) (image : List Byte), s.dev.boot = .rom →
    let body := image.take (image.length - 512)
    let sig := image.drop (image.length - 512)
    let ok := 1024 ≤ image.length ∧ digest (image.take 512) = Config.keyDigest ∧ pssVerify (image.take 512) body sig = true
    (ok → exec (.bootRomLoad image) s = .next { s with dev := { s.dev with boot := .waitfw, fwKey := image.take 512 } }) ∧
    (¬ ok → exec (.bootRomLoad image) s = .next { s with dev := { s.dev with boot := .locked } }))

/-- R35, R291, R292, R294, R377, R391: the messages of peers, taken only from a sender that the PGT of a job here names, and a rank that
cannot be reached. The codes of these messages are those of log 13. -/
def Obligations.MessagesOfPeers : Prop :=
  (∀ (s : State) (m : JcpMsg), let tenant := hdrTenant m.hdr
    let tag := (hdrTag m.hdr).toNat
    let arg := fun (k : Nat) => (hdrArg m.hdr k).toNat
    let spawn := Instr.remoteSpawnReceive m
    let sig := Instr.remoteTsigReceive m
    let ack := Instr.remoteAckReceive m
    let over_ := Instr.remoteCompletion m
    let from_ := fun (p : Partition) => s.part? (hdrPart m.hdr) = some p ∧ hdrVer m.hdr = 1 ∧ hdrEp m.hdr = 0 ∧ p.closing = false ∧
      m.src ≠ 0 ∧ ∃ j ∈ p.jobs, j.tenant = tenant ∧ m.src ∈ j.feps
    let grouped := fun (p : Partition) (rcb : Nat) => ∃ j, s.job? p.num rcb tenant = some j ∧ m.src ∈ j.feps
    let told := fun (o : OutMsg) (op : Nat) (a0 a1 : BitVec 64) => o.dest = m.src ∧ o.part = hdrPart m.hdr ∧ hdrType o.hdr = 3 ∧
      hdrOp o.hdr = op ∧ hdrTenant o.hdr = tenant ∧ hdrTag o.hdr = hdrTag m.hdr ∧ hdrArg o.hdr 0 = a0 ∧ hdrArg o.hdr 1 = a1
    ((∀ p, ¬ from_ p) → ∀ i ∈ [spawn, sig, ack, over_], exec i s = .next s) ∧
    ∀ p, from_ p →
      let ctr := if arg 2 / 2 ^ 47 % 2 = 1 then some (arg 2 / 2 ^ 48) else none
      let made := s.spawnTask p tenant (arg 0) (arg 2 % 2 ^ 24) (arg 3) (hdrArg m.hdr 1) ctr
      (∀ ch k, made = some (ch, k) → ¬ grouped p k.job → exec spawn s = .next s) ∧
      (∀ ch k, made = some (ch, k) → grouped p k.job → footNever ch k.foot = false → s.tasks.length + 2 ≤ 2 ^ 24 → ∃ u o k', exec spawn s = .next u ∧
        u.mem = s.mem ∧ u.tasks = s.tasks ++ [k'] ∧ k'.foot = k.foot ∧ k'.args = k.args ∧ k'.index = arg 2 % 2 ^ 24 ∧ k'.depth = arg 3 ∧
        k'.origin = some (m.src, tag) ∧ k'.ready = decide (k.ctr = 0) ∧ k'.id % 2 ^ 24 ≠ 0 ∧
        u.outbox = s.outbox ++ [o] ∧ told o 0x42 (BitVec.ofNat 64 (k'.id % 2 ^ 24)) 0) ∧
      (made = none ∨ (∃ ch k, made = some (ch, k) ∧ grouped p k.job ∧ footNever ch k.foot = true) → ∃ o1 o2, exec spawn s = .next { s with outbox := s.outbox ++ [o1, o2] } ∧ told o1 0x42 0 0 ∧ told o2 0x43 0 256) ∧
      (∀ k, s.byHandle p.num tenant (arg 0) = some k → k.tenant = tenant → ¬ grouped p k.job → exec sig s = .next s) ∧
      (∀ k, s.byHandle p.num tenant (arg 0) = some k → k.tenant = tenant → grouped p k.job → k.ended = false → (∀ q ∈ s.tasks, q.id = k.id → q = k) →
        let n := arg 1 % 65536
        ∃ u o k', exec sig s = .next u ∧ u.mem = s.mem ∧ u.gangs = s.gangs ∧ u.task? k.id = some k' ∧ k'.ctr = k.ctr - n ∧ k'.ended = false ∧
          (k'.ready = true ↔ k.ready = true ∨ (1 ≤ k.ctr ∧ k.ctr ≤ n)) ∧ u.outbox = s.outbox ++ [o] ∧ told o 0x42 0 0) ∧
      (∀ (o : Op) (d : LDest) (n rank job dur : Nat) (spawned : Bool) (j : Job) (y : Tussock), s.op? tag = some o →
        o.kind = .task (.remote d n rank spawned job) dur →
        s.job? p.num job tenant = some j → j.feps[rank]? = some m.src → o.who.map (·.1) = some p.num →
        s.tk? o.gang o.tk = some y → ∃ u y', exec ack s = .next u ∧ u.op? tag = none ∧ u.mem = s.mem ∧ u.tk? o.gang o.tk = some y' ∧
          (spawned = false → y'.g = y.g ∧ y'.n = y.n) ∧
          ∀ r, d = .g r → spawned = true → arg 0 ≠ 0 → r < y.g.length →
            y'.g[r]? = some (BitVec.ofNat 64 (arg 0 % 2 ^ 24 + rank % 65536 * 2 ^ 24 + 2 ^ 40))) ∧
      (∀ j, p.jobs.find? (fun j => j.sent.any (fun e => e.1 == tag && j.feps[e.2]? == some m.src)) = some j → 2 ≤ j.out →
        (∀ z ∈ p.jobs, z.rcb = j.rcb → z.tenant = j.tenant → z = j) → ∃ u j', exec over_ s = .next u ∧ u.mem = s.mem ∧
          u.job? p.num j.rcb j.tenant = some j' ∧ j'.out + 1 = j.out ∧ (∀ e ∈ j'.sent, e.1 ≠ tag) ∧
          j'.done = (if hdrArg m.hdr 1 = 0 then (j.done + 1) % 2 ^ 32 else j.done) ∧
          j'.failed = (if hdrArg m.hdr 1 = 0 then j.failed else (j.failed + 1) % 2 ^ 32))) ∧
  (∀ (s : State) (part rank : Nat) (p : Partition), s.part? part = some p →
    let there := fun (j : Job) => ∃ e ∈ j.sent, e.2 = rank
    let i := Instr.peerUnreachable part rank
    ((∀ j ∈ p.jobs, ¬ there j) → exec i s = .next s) ∧
    (Prompt s part → ∃ u, exec i s = .next u ∧ u.mem = s.mem ∧ (∀ q, u.part? part = some q → ∀ j ∈ q.jobs, ¬ there j) ∧
      ∀ j ∈ p.jobs, there j → ∃ e ∈ u.outbox, e.part = part ∧ hdrType e.hdr = 2 ∧ hdrOp e.hdr = 0x88 ∧
        hdrArg e.hdr 0 = BitVec.ofNat 64 rank ∧ hdrArg e.hdr 1 = BitVec.ofNat 64 j.rcb))

/-- R377, R379, R380, R387, R434: what an endpoint makes of a command before it runs: senders that it does not know and a locked device,
an answered SEQ, a command behind another or at a partition that is ending (log 70), a wrong SEQ, and the checks that refuse it. -/
def Obligations.CommandAcceptance : Prop :=
  (∀ (s : State) (m : JcpMsg) (i : Instr) (e : Endpoint), Command m i → s.endpoint? (hdrPart m.hdr) (epOf m) = some e → e.busy ≠ some m →
    (m.src = 0 ∨ m.src ∉ senders s m ∨ s.dev.boot = .locked → exec i s = .next s) ∧
    (∀ x, m.src ≠ 0 → m.src ∈ senders s m → s.dev.boot ≠ .locked → e.stored.find? (fun x => x.1 == hdrSeq m.hdr) = some x →
      exec i s = .next { s with outbox := s.outbox ++
        [{ part := hdrPart m.hdr, dest := x.2.src, hdr := x.2.hdr, payload := x.2.payload }] }) ∧
    (Comes s m e → (∃ c, e.busy = some c) ∨ (∃ p, s.part? (hdrPart m.hdr) = some p ∧ p.closing = true) →
      exec i s = .next (s.modEndpoint (hdrPart m.hdr) (epOf m) (fun e => { e with queue := e.queue ++ [m] }))) ∧
    (Comes s m e → e.busy = none → opened s m → hdrSeq m.hdr ≠ e.seq → ∃ o, exec i s = .next { s with outbox := s.outbox ++ [o] } ∧ responds m o 1 0 []) ∧
    (∀ st, Comes s m e → e.busy = none → opened s m → hdrSeq m.hdr = e.seq → (taken s m).refusal m = some st → ∃ u, exec i s = .next u ∧
      Answered (taken s m) u m st 0 [] ∧ u.mem = s.mem ∧ u.gangs = s.gangs ∧ u.tasks = s.tasks ∧ u.ops = s.ops)) ∧
  (∀ (s : State) (m : JcpMsg) (i : Instr), Command m i → hdrPart m.hdr ≠ 63 → s.part? (hdrPart m.hdr) = none →
    (m.src = 0 ∨ m.src ∉ s.dev.mgmtAddrs ∨ s.dev.boot = .locked → exec i s = .next s) ∧
    (m.src ≠ 0 → m.src ∈ s.dev.mgmtAddrs → s.dev.boot ≠ .locked → ∃ o, exec i s = .next { s with outbox := s.outbox ++ [o] } ∧
      responds m o (if hdrPart m.hdr ≤ 47 then 3 else 2) 0 [])) ∧
  (∀ (s : State) (m : JcpMsg), let h := m.hdr
    let op := hdrOp h
    let mgmt := hdrPart h = 63
    let arg := fun (k : Nat) => (hdrArg h k).toNat
    let shaped := hdrVer h = 1 ∧ hdrType h = 0 ∧ hdrStatus h = 0 ∧ hdrReserved h = true ∧ 1 ≤ op ∧ op ≤ 0x10 ∧
      hdrLen h = m.payload.length ∧ m.payload.length ≤ maxPayload op
    (¬ shaped → s.refusal m = some 2) ∧
    (shaped → mgmt → s.dev.boot ≠ .ready → op < 0x0D → s.refusal m = some 2) ∧
    (shaped → ¬ mgmt → op = 0x01 ∨ op = 0x0E ∨ (op = 0x10 ∧ arg 0 % 2 = 1) → s.refusal m = some 2) ∧
    (shaped → mgmt → s.dev.boot = .ready → op ≠ 0x01 → op < 0x0D ∨ (op = 0x10 ∧ arg 0 % 2 = 0) → s.refusal m = some 3) ∧
    (shaped → mgmt → op = 0x0E → s.dev.boot ≠ .waitfw → s.refusal m = some 2) ∧
    (shaped → ¬ mgmt → op = 0x05 → (∀ k, 1 ≤ k → k < 4 → arg k = 0) →
      s.refusal m = if ((s.part? (hdrPart h)).bind (fun p => s.tenantRcb p (hdrTenant h))) = none then some 4 else none) ∧
    (shaped → ¬ mgmt → op = 0x03 ∨ op = 0x04 → arg 1 = 1 → hdrTenant h ≠ 0 → s.refusal m = some 2) ∧
    (shaped → ¬ mgmt → op = 0x08 → arg 0 = 0 ∨ 4096 < arg 0 → s.refusal m = some 2))

/-- R2, R25, R136, R381, R385, R424, R426, R430, R433, R434: PART_CREATE with its refusals, PART_DESTROY, the resets of a partition and of
the device, power-on, and FW_LOAD. -/
def Obligations.PartitionsAndResets : Prop :=
  (∀ (s s1 : State) (m : JcpMsg) (e : Endpoint) (n : Nat), Begins s m e s1 → hdrPart m.hdr = 63 → n < 48 →
    (∀ q ∈ s.parts, q.num ≠ n) → (∀ k, k < n → ∃ q ∈ s.parts, q.num = k) → s.mem.wf = true →
    let p := newPartition m n
    let i := Instr.partCreate m
    let root := natOfBytes (m.payload.take 128)
    (p.granules = (hdrArg m.hdr 0).setWidth 48 ∧ p.root.toNat = root % 2 ^ 1024 ∧ p.cxl = (hdrArg m.hdr 1).setWidth 16 ∧
      p.eth.toNat = (hdrArg m.hdr 1).toNat / 0x10000 % 0x10000 ∧ (p.sys = true ↔ (hdrArg m.hdr 1).toNat / 0x100000000 % 2 = 1)) ∧
    (∀ st, s1.createFault p = some st → ∃ u, exec i s = .next u ∧ Answered s1 u m st 0 [] ∧ u.mem = s.mem ∧ u.parts = s.parts) ∧
    (s1.createFault p = none → ∃ u, exec i s = .next u ∧ Answered s1 u m 0 (BitVec.ofNat 64 n) [] ∧ u.parts = s.parts ++ [p] ∧
      (∀ k, k < 2048 → u.mem.get (p.t0 + 0x100800 + k) = 0) ∧
      (∀ a, a < p.t0 + 0x100800 ∨ p.t0 + 0x101000 ≤ a → u.mem.get a = s.mem.get a) ∧
      ∀ g, g < 48 → g < s.dev.points.length → p.granules.getLsbD g = true → ∃ v, u.dev.points[g]? = some v ∧ v ≠ .off) ∧
    (rcbKind p.root ≠ 0 ∨ rcbParent p.root ≠ 0 ∨ rcbReservedZero p.root = false → s1.createFault p = some 5) ∧
    (s1.createFault p ≠ some 5 → (∃ k, k < 11 ∧ rcbOvr p.root k = false) → s1.createFault p = some 13) ∧
    (s1.createFault p ≠ some 5 → s1.createFault p ≠ some 13 → p.granules = 0 ∨ (∃ q ∈ s.parts, q.granules &&& p.granules ≠ 0) →
      s1.createFault p = some 7)) ∧
  (∀ (s s1 : State) (m : JcpMsg) (e : Endpoint) (p : Partition), PartBegins s m e s1 p → s.mem.wf = true →
    let stores := fun (o : Op) => s.partOf o = some p.num ∧ match o.kind with
      | .store _ | .atom .. | .relE .. | .swap .. => True
      | _ => False
    let zero := fun (u : State) => ∀ a, u.mem.get a = if a / 0x4000000 ∈ p.slices then 0 else s.mem.get a
    let ends := fun (u : State) => (∀ x ∈ u.gangs, x.part ≠ p.num) ∧ u.mem = s.mem ∧ (∀ o ∈ s.ops, stores o → o ∈ u.ops) ∧
      (∃ q ∈ u.parts, q.num = p.num) ∧ ∀ k ∈ u.tasks, k.part = p.num → k.ended = true
    let gone := fun (u : State) => (∀ x ∈ u.gangs, x.part ≠ p.num) ∧ (∀ k ∈ u.tasks, k.part ≠ p.num) ∧
      (∀ x ∈ s.gangs, x.part ≠ p.num → ∃ y ∈ u.gangs, y.id = x.id ∧ y.sp = x.sp ∧ y.tks = x.tks)
    ((∃ o ∈ s.ops, stores o) → (∃ u, exec (.partDestroy m) s = .next u ∧ ends u) ∧ ∃ u, exec (.resetPartition m) s = .next u ∧ ends u) ∧
    ((∀ o ∈ s.ops, ¬ stores o) → ∃ u, exec (.partDestroy m) s = .next u ∧ zero u ∧ gone u ∧ (∀ q ∈ u.parts, q.num ≠ p.num) ∧
      ∃ o ∈ u.outbox, responds m o 0 0 []) ∧
    ((∀ o ∈ s.ops, ¬ stores o) → ∃ u, exec (.resetPartition m) s = .next u ∧ zero u ∧ gone u ∧ (∃ o ∈ u.outbox, responds m o 0 0 []) ∧
      ∃ q, u.part? p.num = some q ∧ q.eps = List.replicate 4 {} ∧ q.eventSeq = 0 ∧ q.running = none ∧ q.halted = false ∧ q.jobs = [] ∧
        q.granules = p.granules ∧ q.root = p.root)) ∧
  (∀ (s s1 : State) (m : JcpMsg) (e : Endpoint),
    let back := fun (u : State) => u.parts = [] ∧ u.tasks = [] ∧ u.gangs = [] ∧ u.ops = [] ∧ u.now = 0 ∧ u.cur = none ∧ u.dev.boot = .rom ∧
      u.dev.keyGen = s.dev.keyGen + 1 ∧ u.dev.counters = s.dev.counters ∧ u.dev.spares = s.dev.spares ∧
      u.dev.cores = s.dev.cores &&& ~~~s.dev.retired ∧ u.dev.logs = [] ∧ u.dev.mgmtAddrs = [] ∧ u.dev.fw = [] ∧
      (∀ i ∈ u.dev.injs, i.nat = true ∧ i ∈ s.dev.injs) ∧ (s.mem.wf = true → ∀ a, 6 * 2 ^ 30 ≤ a → u.mem.get a = s.mem.get a)
    (Begins s m e s1 → hdrPart m.hdr = 63 → ∃ u o, exec (.resetDevice (some m)) s = .next u ∧ back u ∧
      u.outbox.getLast? = some o ∧ responds m o 0 0 []) ∧
    (∃ u, exec (.resetDevice none) s = .next u ∧ back u ∧ u.outbox = s.outbox) ∧
    (∃ u, exec .powerOnReset s = .next u ∧ back u ∧ u.outbox = s.outbox)) ∧
  (∀ (s s1 : State) (m : JcpMsg) (e : Endpoint), Begins s m e s1 → hdrPart m.hdr = 63 →
    let i := Instr.fwLoad m
    let chunks := s.dev.fw ++ [((hdrArg m.hdr 0).toNat, m.payload)]
    let image := assemble chunks
    let body := image.take (image.length - 512)
    let ok := 512 ≤ image.length ∧ pssVerify s.dev.fwKey body (image.drop (image.length - 512)) = true
    (hdrArg m.hdr 1 = 0 → ∃ u, exec i s = .next u ∧ Answered s1 u m 0 0 [] ∧ u.dev.fw = chunks ∧ u.dev.boot = s.dev.boot) ∧
    (hdrArg m.hdr 1 ≠ 0 → ok → ∃ u, exec i s = .next u ∧ Answered s1 u m 0 0 [] ∧ u.dev.boot = .ready ∧ u.dev.fwMeas = digest body ∧
      u.dev.flash = (hdrArg m.hdr 2).setWidth 16) ∧
    (hdrArg m.hdr 1 ≠ 0 → ¬ ok → ∃ u, exec i s = .next u ∧ Answered s1 u m 11 0 [] ∧ u.dev.fw = [] ∧ u.dev.boot = s.dev.boot))

/-- R23, R28, R30, R35, R381, R384 to R391, R415, R444: LAUNCH with its refusals and the tasks that it makes, PREEMPT and RESUME. -/
def Obligations.LaunchPreemptResume : Prop :=
  (∀ (s s1 : State) (m : JcpMsg) (e : Endpoint) (p : Partition), PartBegins s m e s1 p →
    let i := Instr.launch m
    let tenant := hdrTenant m.hdr
    let node := (hdrArg m.hdr 0).toNat
    let fails := fun (st : Nat) => ∃ u, exec i s = .next u ∧ Answered s1 u m st 0 [] ∧ u.mem = s.mem ∧ u.tasks = s.tasks ∧ u.gangs = s.gangs
    (node % 64 ≠ 0 → fails 5) ∧ (node % 64 = 0 → s1.rcb p tenant node = none → fails 8) ∧
    (∀ st, s1.tree p tenant node = .error st → fails st) ∧
    ∀ ch, s1.tree p tenant node = .ok ch →
      let l := (ch.map (·.2)).headD 0
      (launchWords l = none → fails 5) ∧
      ∀ kind obj n ord, launchWords l = some (kind, obj, n, ord) →
        (∀ st, kind ≠ 2 → s1.template p tenant obj kind = .error st → fails st) ∧
        (∀ st, kind = 2 → s1.groupShare p tenant obj n = .error st → fails st) ∧
        ∀ sh : Share, (kind = 2 → s1.groupShare p tenant obj n = .ok sh) →
          (kind ≠ 2 → ∃ t, s1.template p tenant obj kind = .ok t ∧ sh = { tmpl := t, first := 0, count := n }) →
          (footNever ch sh.tmpl.foot = true → fails 6) ∧
          (footNever ch sh.tmpl.foot = false → 0 < sh.count → s.tasks.length + sh.count + 2 ≤ 2 ^ 24 → ∃ u news, exec i s = .next u ∧
            Answered s1 u m 0 0 [] ∧ u.mem = s.mem ∧ u.gangs = s.gangs ∧ u.tasks = s.tasks ++ news ∧ news.length = sh.count ∧
            ∀ (k : Nat) (q : Task), news[k]? = some q → q.index = sh.first + k ∧ q.depth = 1 ∧ q.part = p.num ∧ q.tenant = tenant ∧
              q.launch = node ∧ q.job = rcbParent l ∧ q.foot = sh.tmpl.foot ∧ q.args = sh.tmpl.args ∧ q.ordered = ord ∧ q.ctr = sh.tmpl.ctr ∧
              q.ready = decide (sh.tmpl.ctr = 0) ∧ q.ended = false ∧ q.rank = sh.rank ∧ q.ranks = sh.ranks ∧ q.id % 2 ^ 24 ≠ 0 ∧
              ∀ (j : Nat) (r : Task), j ≠ k → news[j]? = some r → r.id % 2 ^ 24 ≠ q.id % 2 ^ 24)) ∧
  (∀ (s s1 : State) (m : JcpMsg) (e : Endpoint) (p : Partition), PartBegins s m e s1 p →
    let i := Instr.preempt m
    let named := fun (t : Nat) => if hdrArg m.hdr 0 = 1 then t < 256 else t = hdrTenant m.hdr
    let free := ∀ c ∈ p.ckpts, ¬ named c.1
    let still := (∀ t, p.running = some t → ¬ named t) ∧ free ∧ ∀ o ∈ s.ops, ∀ t, o.who = some (p.num, t) → named t → remote o.kind = false
    (¬ free → exec i s = .next s1) ∧
    (free → ∃ u q, exec i s = .next u ∧ u.mem = s.mem ∧ u.gangs = s.gangs ∧ u.part? (hdrPart m.hdr) = some q ∧ (∀ t, named t → t ∈ q.held) ∧
      (∀ t, t ∈ q.held → named t ∨ t ∈ p.held) ∧ (∀ t, p.running = some t → named t → ∃ d, q.drain = some d ∧ d ≤ s.now)) ∧
    (still → ∃ u, exec i s = .next u ∧ Answered s1 u m 0 0 []) ∧
    (∀ t, p.running = some t → named t → ∃ u, exec i s = .next u ∧ u.outbox = s.outbox)) ∧
  (∀ (s s1 : State) (m : JcpMsg) (e : Endpoint) (p : Partition), PartBegins s m e s1 p → p.halting = none → e.waits = none →
    let named := fun (t : Nat) => if hdrArg m.hdr 0 = 1 then t < 256 else t = hdrTenant m.hdr
    ∃ u q f, exec (.resume m) s = .next u ∧ u.mem = s.mem ∧ u.gangs = s.gangs ∧ u.outbox = s.outbox ∧ u.part? (hdrPart m.hdr) = some q ∧
      q.halted = false ∧ (∀ t, t ∈ q.held ↔ t ∈ p.held ∧ ¬ named t) ∧ u.endpoint? (hdrPart m.hdr) (epOf m) = some f ∧ f.busy = some m ∧
      f.waits = some []) ∧
  (∀ (s : State) (m : JcpMsg) (e : Endpoint) (p : Partition), s.endpoint? (hdrPart m.hdr) (epOf m) = some e → e.busy = some m →
    s.part? (hdrPart m.hdr) = some p → hdrPart m.hdr ≠ 63 →
    let named := fun (t : Nat) => if hdrArg m.hdr 0 = 1 then t < 256 else t = hdrTenant m.hdr
    (∀ l, e.waits = some l → (∀ x ∈ s.gangs, x.part = p.num → named x.tenant → x.core ≠ none) →
      ∃ u, exec (.resume m) s = .next u ∧ Answered s u m 0 0 []) ∧
    (∀ l, e.waits = some l → (∃ t, p.running = some t ∧ named t ∧ p.drain = none ∧ ∀ w ∈ s.reloads p t, s.roomFor p w = []) →
      ∃ u, exec (.resume m) s = .next u ∧ Answered s u m 0 0 []) ∧
    (∀ l, e.waits = some l → (∃ x ∈ s.gangs, x.part = p.num ∧ named x.tenant ∧ x.core = none) → (∀ t, p.running = some t → ¬ named t) →
      exec (.resume m) s = .next s) ∧
    ((∃ c ∈ p.ckpts, named c.1) → exec (.preempt m) s = .next s) ∧
    ((∀ t, p.running = some t → ¬ named t) → (∀ c ∈ p.ckpts, ¬ named c.1) →
      (∀ o ∈ s.ops, ∀ t, o.who = some (p.num, t) → named t → remote o.kind = false) → ∃ u, exec (.preempt m) s = .next u ∧ Answered s u m 0 0 []))

/-- R320, R381, R417 to R422: the CKPT command and RESTORE with their refusals and what each leaves, ATTEST, PEER_NONCE and PEER_ADD. -/
def Obligations.CheckpointsAndPeers : Prop :=
  (∀ (s s1 : State) (m : JcpMsg) (e : Endpoint) (p : Partition), PartBegins s m e s1 p →
    let i := Instr.ckptCommand m
    let tenant := hdrTenant m.hdr
    let busy := ∃ c ∈ p.ckpts, c.1 = tenant
    let meas := p.measureOf tenant
    let s2 := s1.modPart p.num (fun q => { q with ckpts := q.ckpts ++ [(tenant, 0)] })
    let size := imageSize (s2.sections p tenant)
    let quiet := p.running ≠ some tenant ∧ (∀ x ∈ s.gangs, x.part = p.num → x.tenant = tenant → x.core = none) ∧ s.moving p.num tenant = []
    let room := (hdrArg m.hdr 1).toNat
    let base := (hdrArg m.hdr 0).toNat
    let fails := fun (st : Nat) (arg : BitVec 64) => ∃ u, exec i s = .next u ∧ Answered s1 u m st arg [] ∧ u.mem = s.mem ∧
      u.dev.counters = s.dev.counters
    (busy → fails 9 0) ∧
    (¬ busy → p.running = some tenant → p.drain = none → ∃ u q, exec i s = .next u ∧ u.outbox = s.outbox ∧ u.mem = s.mem ∧
      u.part? (hdrPart m.hdr) = some q ∧ q.drain = some (s.now + 270000) ∧ q.ckpts = p.ckpts ++ [(tenant, 0)]) ∧
    (¬ busy → quiet → room < size → fails 7 (BitVec.ofNat 64 size)) ∧
    (¬ busy → quiet → size ≤ room → s.dev.ctrFull meas = true → fails 7 0) ∧
    (¬ busy → quiet → size ≤ room → s.dev.ctrFull meas = false → s2.hostMap p tenant base size = .bad → fails 8 0) ∧
    (∀ ls, ¬ busy → quiet → size ≤ room → s.dev.ctrFull meas = false → s2.hostMap p tenant base size = .ok ls → ∃ u q o, exec i s = .next u ∧
      u.outbox = s.outbox ++ [o] ∧ responds m o 0 (s.dev.counterOf meas + 1) [] ∧ u.dev.counterOf meas = s.dev.counterOf meas + 1 ∧
      (∀ k, k ≠ meas → u.dev.counterOf k = s.dev.counterOf k) ∧ u.part? (hdrPart m.hdr) = some q ∧ q.ckpts = p.ckpts)) ∧
  (∀ (s s1 : State) (m : JcpMsg) (e : Endpoint) (p : Partition), PartBegins s m e s1 p →
    let i := Instr.restore m
    let tenant := hdrTenant m.hdr
    let busy := (∃ c ∈ p.ckpts, c.1 = tenant) ∨ s.hasWork p.num tenant = true
    let range := s1.hostMap p tenant (hdrArg m.hdr 0).toNat (hdrArg m.hdr 1).toNat
    let fails := fun (st : Nat) => ∃ u, exec i s = .next u ∧ Answered s1 u m st 0 [] ∧ u.mem = s.mem ∧ u.tasks = s.tasks ∧ u.gangs = s.gangs ∧
      u.dev.counters = s.dev.counters
    (busy → fails 9) ∧ (¬ busy → range = .bad → fails 8) ∧
    ∀ ls, ¬ busy → range = .ok ls →
      let img := ls.flatMap (fun l => s.mem.bytes l.1 l.2.2)
      let at_ := fun (o n : Nat) => natOfBytes ((img.drop o).take n)
      let meas := BitVec.ofNat 512 (at_ 48 64)
      (∀ st, s1.restoreCheck p tenant img = .error st → fails st) ∧
      (imageOk img = false → fails 5) ∧
      (imageOk img = true → BitVec.ofNat 512 (at_ 128 64) ≠ s.dev.fwMeas → fails 11) ∧
      (imageOk img = true → BitVec.ofNat 512 (at_ 128 64) = s.dev.fwMeas → at_ 8 8 < (s.dev.counterOf meas).toNat → fails 10) ∧
      ∀ secs, s1.restoreCheck p tenant img = .ok secs → ∃ u q o, exec i s = .next u ∧ u.outbox = s.outbox ++ [o] ∧
        responds m o 0 (BitVec.ofNat 64 (at_ 8 8)) [] ∧ u.dev.counterOf meas = BitVec.ofNat 64 (at_ 8 8) ∧
        u.part? (hdrPart m.hdr) = some q ∧ q.measureOf tenant = meas ∧ q.ckpts = p.ckpts ∧ ∀ x ∈ s.gangs, ∃ y ∈ u.gangs, y.id = x.id ∧ y.sp = x.sp) ∧
  (∀ (s s1 : State) (m : JcpMsg) (e : Endpoint), Begins s m e s1 →
    let own := (List.range 256).filter (fun t => ((s1.part? (hdrPart m.hdr)).bind (fun p => s1.tenantRcb p t)) ≠ none)
    let meas := match s1.part? (hdrPart m.hdr) with
      | some p => own.map p.measureOf
      | none => []
    ∃ u, exec (.attest m) s = .next u ∧ u.mem = s.mem ∧ u.gangs = s.gangs ∧
      Answered s1 u m 0 0 (Config.spdmAnswer m.payload (s.dev.fwMeas :: meas))) ∧
  (∀ (s s1 : State) (m : JcpMsg) (e : Endpoint) (p : Partition), PartBegins s m e s1 p → let tenant := hdrTenant m.hdr
    (∃ u q nonce, exec (.peerNonce m) s = .next u ∧ u.mem = s.mem ∧ Answered s1 u m 0 0 (bytesOfNat 32 (BitVec.toNat (w := 256) nonce)) ∧
      u.part? (hdrPart m.hdr) = some q ∧ q.nonces = p.nonces ++ [(tenant, nonce, s.now)]) ∧
    (let i := Instr.peerAdd m
     let others := fun (dev : BitVec 64) => p.peers.filter (fun q => !(q.tenant == tenant && q.devId == dev))
     let fails := fun (st : Nat) => ∃ u, exec i s = .next u ∧ Answered s1 u m st 0 [] ∧ u.mem = s.mem ∧
       ∀ q, u.part? (hdrPart m.hdr) = some q → q.peers = p.peers
     ((∀ c ∈ p.nonces, c.1 = tenant → s.now ≤ c.2.2 + 162000000000 → Config.spdmPeer m.payload c.2.1 = none) → fails 11) ∧
     ∀ nonce dev fw key, s1.peerOf m p = some (nonce, dev, fw, key) →
       (fw ≠ s.dev.fwMeas → fails 11) ∧
       (fw = s.dev.fwMeas → 8 ≤ ((others dev).filter (fun q => q.tenant == tenant)).length → fails 7) ∧
       (fw = s.dev.fwMeas → ((others dev).filter (fun q => q.tenant == tenant)).length < 8 → ∃ u q, exec i s = .next u ∧ u.mem = s.mem ∧
         Answered s1 u m 0 0 [] ∧ u.part? (hdrPart m.hdr) = some q ∧ q.peers = others dev ++ [{ tenant := tenant, devId := dev, key := key }] ∧
         ∀ c ∈ q.nonces, c.2.1 ≠ nonce)))

/-- R323, R414, R415, R416, R424, R425, R427, R428, R430, R431: The end of a slice, the drain deadline with the saves that follow, and the
turn of the next tenant. The lengths of a slice and of a drain in clocks are those of log 19. The start of an interval, which scales the
minima that no longer fit, fills the buckets and the pool and lets held tokens lapse; the sweep of the buckets; the steps of a die's
operating points. -/
def Obligations.TurnsAndIntervals : Prop :=
  ((∀ (s : State) (part t : Nat) (p : Partition), s.part? part = some p → p.running = some t → p.drain = none → p.sliceEnd ≤ s.now →
     let others := ∃ k, k ≠ t ∧ p.mayRun k = true ∧ ((∃ q ∈ s.tasks, q.part = part ∧ q.tenant = k ∧ q.ready = true ∧ q.ended = false) ∨
       ∃ x ∈ s.gangs, x.part = part ∧ x.tenant = k)
     ∃ u, exec (.sliceEnd part) s = .next u ∧ u.mem = s.mem ∧ u.gangs = s.gangs ∧ u.tasks = s.tasks ∧
       (others → u.part? part = some { p with drain := some (s.now + 270000) }) ∧
       (¬ others → u.part? part = some { p with sliceEnd := s.now + 27000000 })) ∧
   (∀ (s : State) (part t d : Nat) (p : Partition), s.part? part = some p → p.running = some t → p.drain = some d → d ≤ s.now → s.dev.injs = [] →
     let i := Instr.drainDeadline part
     let ours := fun (x : Gang) => x.part = part ∧ x.tenant = t ∧ x.core ≠ none
     ((∃ x ∈ s.gangs, ours x ∧ x.stop = false) → ∃ u, exec i s = .next u ∧ u.mem = s.mem ∧ u.parts = s.parts ∧ u.ops = s.ops ∧
       (∀ x ∈ u.gangs, ours x → x.stop = true) ∧ u.gangs.map (fun x => { x with stop := true }) = s.gangs.map (fun x => { x with stop := true }) ∧
       ∀ x ∈ s.gangs, ¬ ours x → x ∈ u.gangs) ∧
     ((∀ x ∈ s.gangs, ours x → x.stop = true ∧ s.saveReady x = true) → ∃ u p', exec i s = .next u ∧ u.mem = s.mem ∧ u.part? part = some p' ∧
       p'.running = none ∧ p'.drain = none ∧ p'.last = t ∧ p'.halting = p.halting ∧ (∀ x ∈ u.gangs, ¬ ours x) ∧ u.tasks = s.tasks ∧
       (∀ x ∈ u.gangs, x.part = part → x.tenant = t → x.outAt ≠ none))) ∧
   (∀ (s : State) (part : Nat) (p : Partition) (h : BitVec 16), s.part? part = some p → p.halting = some h → p.running = none → p.ckpts = [] →
     let under := ∃ o ∈ s.ops, o.who.all (fun w => w.1 != p.num) = false ∧
       ((∃ x y, o.kind = .swap x y) ∨ ∃ d tn v ok, o.kind = .ckpt d tn v ok)
     (under → exec (.drainDeadline part) s = .next s) ∧
     (¬ under → Prompt s part → ∃ u p' e, exec (.drainDeadline part) s = .next u ∧ u.mem = s.mem ∧ u.gangs = s.gangs ∧ u.part? part = some p' ∧
       p'.halting = none ∧ u.outbox = s.outbox ++ [e] ∧ e.part = part ∧ hdrType e.hdr = 2 ∧ hdrOp e.hdr = 0x84 ∧
       hdrArg e.hdr 0 = h.setWidth 64)) ∧
   (∀ (s : State) (part t : Nat) (p : Partition), s.part? part = some p → s.turnDue p = some t → (∀ x ∈ s.gangs, x.loops = []) →
     let far := fun (k : Nat) => (k + 255 - p.last) % 256
     let keep := min p.bucket (s.tenantTokens p t)
     (s.hasWork part t = true ∧ p.mayRun t = true ∧ p.halting = none) ∧
     (∀ k, s.hasWork part k = true → p.mayRun k = true → far t ≤ far k) ∧
     ∃ u p', exec (.tenantRestore part) s = .next u ∧ u.mem = s.mem ∧ u.part? part = some p' ∧ p'.running = some t ∧ p'.drain = none ∧
       p'.sliceEnd = s.now + 27000000 ∧ p'.bucket = keep ∧ u.dev.pool = s.dev.pool + (p.bucket - keep) ∧ p'.last = p.running.getD p.last ∧
       ∀ x ∈ u.gangs, x.part = part → x.tenant = t → x.outAt = none)) ∧
  ((∀ s : State, s.dev.intStart + 270000 ≤ s.now → (∀ o ∈ s.ops, ∀ l m, o.kind ≠ .loop l ∧ o.kind ≠ .merge m) →
     (s.parts.map (·.num)).Nodup → (∀ k, k < 32 → (s.parts.map (fun p => p.floors.getD k 0)).foldl (· + ·) 0 ≤ s.dev.portCap k) →
     let cap := 6327 * ((List.range 192).filter (fun c => s.dev.cores.getLsbD c)).length / 2
     let sum := (s.parts.map (·.powerMin)).foldl (· + ·) 0
     let lapsed := (s.gangs.map (fun x => (x.tks.map (·.tokens)).foldl (· + ·) 0)).foldl (· + ·) 0
     ∃ u, exec .intervalStart s = .next u ∧ u.mem = s.mem ∧ u.ops = s.ops ∧ u.tasks = s.tasks ∧ u.dev.intStart = s.dev.intStart + 270000 ∧
       u.dev.swept = false ∧ u.dev.pool = cap - (u.parts.map (·.bucket)).foldl (· + ·) 0 + lapsed ∧
       (∀ c ∈ u.dev.arb, c.served = 0 ∧ c.num = 0 ∧ c.den = 1) ∧
       (∀ d ∈ s.dev.demand, ∃ c ∈ u.dev.arb, c.ch = d.ch ∧ c.part = d.part ∧ c.job = d.job) ∧
       (∃ l : List LeaveReq, l.Perm s.dev.poolQ ∧ l.Pairwise (fun a b => s.poolBefore b a = false) ∧
         u.dev.poolQ = l.mapIdx (fun k r => { r with carried := k + 1 })) ∧
       u.dev.warm = s.dev.hot ∧
       (∀ (die n : Nat) (h : Bool), s.dev.cool[die]? = some n → s.dev.warm[die]? = some h →
         u.dev.cool[die]? = some (if h then 0 else n + 1)) ∧
       (∀ x ∈ u.gangs, ∀ y ∈ x.tks, y.tokens = 0) ∧
       ∀ p ∈ s.parts, ∃ p' ∈ u.parts, p'.num = p.num ∧ p'.spent = [] ∧ p'.lastPool = p.curPool ∧ p'.lastBucket = p.curBucket ∧
         p'.powerMin = (if sum ≤ cap then p.powerMin else p.powerMin * cap / sum) ∧
         p'.bucket = (match p.running with
           | some t => min (s.tenantTokens p t) p'.powerMin
           | none => 0) ∧
         (cap < sum → p.powerMin ≠ 0 → Prompt s p.num → ∃ e ∈ u.outbox, e.part = p.num ∧ hdrType e.hdr = 2 ∧ hdrOp e.hdr = 0x86 ∧ hdrArg e.hdr 0 = 0 ∧
           hdrArg e.hdr 1 = BitVec.ofNat 64 p'.powerMin)) ∧
   (∀ s : State, s.dev.swept = false → s.dev.intStart + 135000 ≤ s.now → ∃ u, exec .bucketSweep s = .next u ∧ u.mem = s.mem ∧
     u.gangs = s.gangs ∧ u.dev = { s.dev with swept := true, pool := s.dev.pool + (s.parts.map (·.bucket)).foldl (· + ·) 0 } ∧
     u.parts = s.parts.map (fun p => { p with bucket := 0 })) ∧
   (∀ (s : State) (die : Nat), let due := s.dev.stepped.getD die 0 ≠ s.dev.intStart / 270000 + 1
     let at_ := fun (p : Point) => ∃ k, k / 6 = die ∧ s.dev.points[k]? = some p
     let steps := fun (i : Instr) (f : Point → Point) => ∃ u, exec i s = .next u ∧ u.mem = s.mem ∧ u.parts = s.parts ∧ u.gangs = s.gangs ∧
       (die < s.dev.stepped.length → u.dev.stepped[die]? = some (s.dev.intStart / 270000 + 1)) ∧
       ∀ k : Nat, u.dev.points[k]? = (s.dev.points[k]?).map (fun p => if k / 6 = die then f p else p)
     (s.dev.hot.getD die false = true → due → at_ .p0 ∨ at_ .p1 → steps (.thermalStepDown die) (fun p =>
       if p = .p0 then .p1 else if p = .p1 then .p2 else p)) ∧
     (s.dev.hot.getD die false = false → due → 10 ≤ s.dev.cool.getD die 0 → at_ .p1 ∨ at_ .p2 → steps (.thermalStepUp die) (fun p =>
       if p = .p2 then .p1 else if p = .p1 then .p0 else p))))

/-- R2, R381, R402, R403, R405, R417, R429, R438, R439, R451, R453: MEM_WRITE and MEM_READ through physical and virtual addresses,
FAULT_FETCH, REPLAY and MIGRATE. TELEM: the enabled-core mask, the partition and job records, the service units of each channel (laid out
as log 40 says), and the error logs. -/
def Obligations.HostMemoryAndTelemetry : Prop :=
  ((∀ (s s1 : State) (m : JcpMsg) (e : Endpoint) (p : Partition), PartBegins s m e s1 p →
     let a := (hdrArg m.hdr 0).toNat
     let n := (hdrArg m.hdr 2).toNat
     let tenant := hdrTenant m.hdr
     let phys := hdrArg m.hdr 1 = 1
     let len := m.payload.length
     let wr := Instr.memWrite m
     let rd := Instr.memRead m
     let cuts := fun (k : Nat) => pageCuts a k (k / 65536 + 2)
     let owned := fun (k : Nat) => ∀ c ∈ cuts k, p.owns c.1 c.2 = true
     let maps := fun (k pa : Nat) (xb : Bool) => a % 65536 + k ≤ 65536 ∧ ∃ fr pg en sb w ls,
       walk s.mem p tenant a .host true = .pa pa fr pg en sb w xb ls
     let put := fun (u : State) (pa : Nat) => (∀ k v, m.payload[k]? = some v → u.mem.get (pa + k) = v) ∧
       ∀ b, b < pa ∨ pa + len ≤ b → u.mem.get b = s.mem.get b
     let done := fun (u : State) => (∃ o, u.outbox = s.outbox ++ [o] ∧ responds m o 0 0 []) ∨ (u.outbox = s.outbox ∧
       ∃ f l, u.endpoint? (hdrPart m.hdr) (epOf m) = some f ∧ f.busy = some m ∧ f.waits = some l ∧ l ≠ [])
     (s.mem.wf = true → 0 < len → phys → owned len → ∃ u, exec wr s = .next u ∧ put u a ∧ done u ∧ u.tasks = s.tasks) ∧
     (phys → ¬ owned len → ∃ u, exec wr s = .next u ∧ Answered s1 u m 8 0 [] ∧ u.mem = s.mem) ∧
     (∀ pa xb, s.mem.wf = true → 0 < len → ¬ phys → maps len pa xb → ∃ u q, exec wr s = .next u ∧ put u pa ∧ done u ∧
       u.part? (hdrPart m.hdr) = some q ∧ (xb = false → q.measures = p.measures) ∧
       (xb = true → q.measureOf tenant = digest (bytesOfNat 64 (p.measureOf tenant).toNat ++ bytesOfNat 8 a ++
         sha512 m.payload))) ∧
     (s.sound = true → 0 < n → phys → owned n → ∃ u, exec rd s = .next u ∧ Answered s1 u m 0 0 (s.mem.bytes a n) ∧ u.mem = s.mem) ∧
     (phys → ¬ owned n → ∃ u, exec rd s = .next u ∧ Answered s1 u m 8 0 [] ∧ u.mem = s.mem) ∧
     (∀ pa xb, s.sound = true → 0 < n → ¬ phys → maps n pa xb → ∃ u, exec rd s = .next u ∧ Answered s1 u m 0 0 (s.mem.bytes pa n) ∧
       u.mem = s.mem)) ∧
   (∀ (s s1 : State) (m : JcpMsg) (e : Endpoint) (p : Partition), PartBegins s m e s1 p →
     let n := (hdrArg m.hdr 0).toNat
     ∃ u q, exec (.faultFetch m) s = .next u ∧ Answered s1 u m 0 0 ((p.records.take n).flatMap (fun r => bytesOfNat 32 r.2.toNat)) ∧
       u.mem = s.mem ∧ u.part? (hdrPart m.hdr) = some q ∧ q.records = p.records.drop n ∧
       q.bufferHead = (p.bufferHead + min n p.records.length) % 4096) ∧
   (∀ (s s1 : State) (m : JcpMsg) (e : Endpoint) (p : Partition), PartBegins s m e s1 p → (s.gangs.map (·.id)).Nodup →
     let named := fun (k : Nat) => ∃ i, 4 * i + 4 ≤ m.payload.length ∧ natOfBytes ((m.payload.drop (4 * i)).take 4) = k
     ∃ u, exec (.replay m) s = .next u ∧ Answered s1 u m 0 0 [] ∧ u.mem = s.mem ∧
       ∀ (g t k : Nat) (x : Gang) (z : Slot), s.gang? g = some x → s.slot? g t k = some z → ∃ z', u.slot? g t k = some z' ∧ z'.pc = z.pc ∧
         z'.mask = z.mask ∧ (∀ r, z.park = some (.fault r) → x.part = p.num → named r → z'.park = none) ∧
         ((∀ r, z.park = some (.fault r) → x.part = p.num → ¬ named r) → z'.park = z.park)) ∧
   (∀ (s s1 : State) (m : JcpMsg) (e : Endpoint) (p : Partition), PartBegins s m e s1 p →
     ∃ u news, exec (.migrate m) s = .next u ∧ u.mem = s.mem ∧ u.outbox = s.outbox ∧ u.ops = s.ops ++ news ∧
       news.length = (hdrArg m.hdr 1).toNat ∧ ∀ (k : Nat) (o : Op), news[k]? = some o → ∃ q, o.kind = .moveReq q ∧ o.at_ = s.now ∧
         q.va = (hdrArg m.hdr 0).toNat + 65536 * k ∧ q.part = p.num ∧ q.tenant = hdrTenant m.hdr ∧
         (q.near = true ↔ hdrArg m.hdr 2 = 0) ∧ q.cmd = some (hdrEp m.hdr, hdrSeq m.hdr) ∧ q.link = none)) ∧
  (∀ (s s1 : State) (m : JcpMsg) (e : Endpoint), Begins s m e s1 →
     let gives := fun (i : Instr) (bytes : List Byte) => ∃ u, exec i s = .next u ∧ Answered s1 u m 0 0 bytes ∧ u.mem = s.mem ∧
       u.gangs = s.gangs ∧ u.tasks = s.tasks
     let mine := fun (part : Nat) => hdrPart m.hdr = 63 ∨ part = hdrPart m.hdr
     gives (.telemCoreMask m) (bytesOfNat 24 s.dev.cores.toNat) ∧
     gives (.telemErrorLog m) (s.dev.logs.flatMap (fun l => bytesOfNat 32 l.entry.toNat)) ∧
     gives (.telemServiceUnits m) ((List.range 128).flatMap (fun ch => bytesOfNat 8
       ((s.dev.arb.filter (fun r => r.ch = ch ∧ r.job ≠ 2 ^ 48 ∧ mine r.part)).map (·.served)).sum)) ∧
     (∃ bytes, gives (.telemJobRecords m) bytes ∧ bytes.length ≤ 2 ^ 22 ∧
       ∀ p, s1.part? (hdrPart m.hdr) = some p → (∀ q ∈ s1.parts, q.num = p.num → q = p) → hdrPart m.hdr ≠ 63 → s1.parts.Nodup →
         let js := (p.jobs.filter (fun j => j.out ≠ 0)).mergeSort (fun a b => decide (a.rcb < b.rcb) || (a.rcb == b.rcb && decide (a.tenant ≤ b.tenant)))
         let le := fun (at_ n : Nat) => natOfBytes ((bytes.drop at_).take n)
         js.length < 100000 → bytes.length = 64 + 32 * js.length ∧ le 0 1 = p.num % 64 ∧ le 4 4 = js.length ∧
           le 24 8 = ((s.tasks.filter (fun k => k.part == p.num && k.ready && !k.ended && (s.gang? k.id).isNone)).length) % 2 ^ 64 ∧
           ∀ (k : Nat) (j : Job), js[k]? = some j → le (64 + 32 * k) 6 = j.rcb % 2 ^ 48 ∧ le (64 + 32 * k + 8) 1 = j.tenant % 256 ∧
             le (64 + 32 * k + 16) 4 = j.out % 2 ^ 32 ∧ le (64 + 32 * k + 20) 4 = j.under % 2 ^ 32 ∧
             le (64 + 32 * k + 24) 4 = j.done % 2 ^ 32 ∧ le (64 + 32 * k + 28) 4 = j.failed % 2 ^ 32))

/-- R42, R57, R109 to R111, R118 to R125, R130, R137 to R141, R194, R196 to R198, R240 to R249, R281, R282, R284: where the words of
control, staging, entry consistency, fences, barriers, subscriptions, futures, queues and streams complete: the conditions on the state
and the operands under which each answers a next state with its effect. -/
def Obligations.SynchronisationWordsComplete : Prop :=
  (∀ (t : Tail) (off : BitVec 18) (gk ga gb : BitVec 6) s c, Passes s t c →
    let next := fun (s' : State) (held : Bool) => Host.Outcome.next (c.retire t s' held (c.sl.pc + 8))
    let waiting := fun (i : Instr) (w : WaitCond) => ∃ s', exec i s = .next s' ∧ s'.mem = s.mem ∧ s'.ops = s.ops ∧
      ∀ z, s.slot? c.g c.t c.k = some z → ∃ z', s'.slot? c.g c.t c.k = some z' ∧ z'.pc = z.pc ∧ z'.mask = z.mask ∧
        z'.wait = some { cond := w, start := s.now, d := .none, mask := c.act, next := BitVec.ofInt 48 (c.sl.pc.toNat + 8 * off.toInt), tl := t }
    let v := (c.tk.g.getD gk.toNat 0).toNat
    (c.act ≠ 0 → exec (.exit t) s = next ((spent s).modTk c.g c.t (fun y => { y with
      dead := y.dead ||| c.act
      frame := y.frame.map (fun f => { f with ended := f.ended ||| c.act })
      slots := y.slots.modify c.k (fun z => { z with mask := z.mask &&& ~~~c.act }) })) false) ∧
    ((spent s).ownWrites c.g c.t c.k = [] → (spent s).fifoAll (c.core / 8) ≤ s.now →
      ∃ s', exec (.icinv t ga gb) s = next s' false ∧ s'.mem = s.mem ∧ s'.ops = s.ops ∧
        ∀ (k : Nat) (z : Slot), s.slot? c.g c.t k = some z → ∃ z', s'.slot? c.g c.t k = some z' ∧ z'.pc = z.pc ∧ z'.mask = z.mask) ∧
    (c.act ≠ 0 → c.act = c.sl.mask → waiting (.yield t .none off) .yieldReady ∧
      (v < 2 ^ 33 → v % 2 ^ 32 < c.x.foot.sp → v % 16 = 0 →
        waiting (.yield t (.barrier gk) off) (.yieldBarrier (v % 2 ^ 32) (v.testBit 32))))) ∧
  (∀ (t : Tail) (n cm1 : BitVec 5) (m : BitVec 8) (rel : Bool) s c, Passes s t c →
    let next := fun (s' : State) (held : Bool) => Host.Outcome.next (c.retire t s' held (c.sl.pc + 8))
    let sends := fun (i : Instr) (lat : Nat) (k : OpKind) => ∃ s', exec i s = next s' true ∧ s'.mem = s.mem ∧
      s'.ops = s.ops ++ [opOf c s (some c.core) (c.clk + lat) none k]
    let regs := (List.range (cm1.toNat + 1)).map (fun i => n.toNat + i)
    let homeOf := fun (r : Nat) => c.tk.home.getD r none
    let alone := ∃ z ∈ c.tk.slots, z.valid = false
    let whole := ∀ i ∈ s.dev.injs, i.home = c.core → i.array ≠ 2 ∧ i.array ≠ 3
    (c.act ≠ 0 → alone → whole → m.toNat + cm1.toNat + 1 ≤ c.tk.m.length →
      (∀ (r h : Nat), c.tk.home[r]? = some (some h) → r ∈ regs ∨ h < m.toNat ∨ m.toNat + cm1.toNat < h) →
      sends (.stage t n cm1 m) (8 + (cm1.toNat + 4) / 4) (.stage ((List.range (cm1.toNat + 1)).map (fun i => (n.toNat + i, m.toNat + i, []))))) ∧
    (c.act ≠ 0 → alone → whole → (∀ r ∈ regs, homeOf r ≠ none) →
      sends (.spill t n rel cm1) (8 + (cm1.toNat + 4) / 4) (.spill (regs.map (fun r => ((homeOf r).getD 0, c.tk.n.getD r (splat 0))))))) ∧
  (∀ (t : Tail) (scope : BitVec 3) (d : Dst) (a b o : USrc) s c, Passes s t c →
    let next := fun (s' : State) (held : Bool) => Host.Outcome.next (c.retire t s' held (c.sl.pc + 8))
    let fifo := (spent s).fifoAll (c.core / 8) ≤ s.now
    let writes := (spent s).ownWrites c.g c.t c.k = []
    let banks := (spent s).banksEmptyAt c.core ≤ c.clk
    let proxied := fun (sp gl : Bool) => (spent s).coreWrites c.core sp gl = []
    let ordered := (spent s).ownReads c.g c.t c.k = [] ∧ if 4 ≤ scope.toNat then writes ∧ fifo else c.ownBanks (spent s) = []
    let done := fun (i : Instr) (ticket : Nat) => ∃ s', exec i s = next s' false ∧ s'.mem = s.mem ∧ s'.ops = s.ops ∧
      s'.dev = { s.dev with ticket := s.dev.ticket + ticket }
    let sends := fun (i : Instr) (s1 : State) (k : OpKind → Prop) => ∃ s' q, exec i s = next s' true ∧ s'.mem = s1.mem ∧ q ∈ s'.ops ∧
      k q.kind ∧ q.gang = c.g ∧ q.tk = c.t ∧ q.slot = c.k ∧ q.tag = c.tag ∧ q.mask = c.act
    (ordered → done (.fence t scope) 0 ∧ done (.fenceSc t scope) 1) ∧
    (proxied true false → banks → done (.pfenceSp t) 0) ∧
    (proxied false true → fifo → done (.pfenceGl t) 0) ∧
    (proxied true true → fifo → banks → done (.pfenceAll t) 0) ∧
    (c.act ≠ 0 → (c.tk.uval a).toNat % 128 = 0 → (c.tk.uval b).toNat % 128 = 0 → (c.tk.uval o).toNat % 8 = 0 →
      sends (.rbind t a b o) s (fun k => ∃ ok, k = .rbind ok (if c.tk.uval b = 0 then none else
        some ((c.tk.uval a).toNat, (c.tk.uval b).toNat, (c.tk.uval o).toNat)))) ∧
    (∀ s1 pa, c.act ≠ 0 → c.single (spent s) (c.part s) (c.tk.uval a) 8 .read 0 = .ok (s1, pa) → s1.sound = true →
      sends (.acqE t d a) s1 (fun k => ∃ acc, k = .acqE (goesTo d 2) acc ∧ acc.addr = pa ∧ acc.size = 8 ∧ acc.act = .read)) ∧
    (∀ s1 pa, c.act ≠ 0 → c.single (spent s) (c.part s) (c.tk.uval a) 8 .write 2 = .ok (s1, pa) →
      sends (.relE t a) (s1.setDirty (c.part s) c.x.tenant (c.tk.uval a).toNat)
        (fun k => ∃ acc drain, k = .relE acc drain ∧ acc.addr = pa ∧ acc.size = 8 ∧ acc.act = .rmw 0 1))) ∧
  (∀ (t : Tail) (sp nb : Bool) (d : Dst) (n : BitVec 2) (a b l : USrc) s c, Passes s t c →
    let next := fun (s' : State) (held : Bool) => Host.Outcome.next (c.retire t s' held (c.sl.pc + 8))
    let sends := fun (i : Instr) (s1 : State) (k : OpKind) (p6 : Option Bool) => ∃ s' q, exec i s = next s' true ∧ s'.mem = s1.mem ∧ q ∈ s'.ops ∧
      q.kind = k ∧ q.gang = c.g ∧ q.tk = c.t ∧ q.slot = c.k ∧ q.tag = c.tag ∧ q.mask = c.act ∧ q.p6 = p6
    let waiting := fun (i : Instr) (w : WaitCond) (dest : LDest) => ∃ s', exec i s = .next s' ∧ s'.mem = s.mem ∧ s'.ops = s.ops ∧
      ∀ z, s.slot? c.g c.t c.k = some z → ∃ z', s'.slot? c.g c.t c.k = some z' ∧ z'.pc = z.pc ∧ z'.mask = z.mask ∧
        z'.wait = some { cond := w, start := s.now, d := dest, mask := c.act, next := c.sl.pc + 8, tl := t }
    let v := (c.tk.uval a).toNat
    let count := (c.tk.uval b).toNat
    let low := (c.tk.uval b).extractLsb' 0 32
    let open_ := (s.core c.core).locks = [] ∧ ∀ x, s.gang? c.g = some x → ∀ w ∈ x.windows, w = none
    let object := c.act ≠ 0 ∧ v < 2 ^ 32 ∧ v < c.x.foot.sp ∧ v % 16 = 0 ∧ open_
    let linked := (c.tk.uval l).toNat / 2 ^ 24 % 2 ^ 7 = 0 ∧ (c.tk.uval l).toNat < 2 ^ 32
    let cellOf := c.cell (spent s) (c.part s) sp
    let settled := fun (s1 : State) => if sp then c.ownBanks s1 = [] else s1.ownAccs c.g c.t c.k = [] ∧ s1.fifoAll (c.core / 8) ≤ s1.now
    (c.ownBanks (spent s) = [] → s.gang? c.g = some c.x → waiting (.barg t) (.barg c.x.phase) .none) ∧
    (object → linked → sends (.abinit t a b l) s (.barrier v 0 low ((c.tk.uval l).extractLsb' 0 32)) none) ∧
    (object → sends (.abexp t a b) s (.barrier v 1 low 0) none ∧ sends (.abarr t a b) s (.barrier v 2 low 0) none) ∧
    (object → s.sound = true → c.ownAt (spent s) false v 16 = [] →
      (c.x.phaseOf v ≠ (c.tk.uval b).getLsbD 0 → ∃ s', exec (.abwait t a b) s = next s' false ∧ s'.mem = s.mem ∧ s'.ops = s.ops) ∧
      (c.x.phaseOf v = (c.tk.uval b).getLsbD 0 → waiting (.abwait t a b) (.barrier v ((c.tk.uval b).getLsbD 0)) .none)) ∧
    (∀ s1 x old, c.act ≠ 0 → cellOf true (c.tk.uval a) = .ok (s1, x, old) → settled s1 → old.getLsbD 64 = false ∨ nb = true →
      ∃ s' q, exec (.fset t sp nb a b) s = next s' true ∧ q ∈ s'.ops ∧ q.kind = .tagOnly ∧ q.gang = c.g ∧ q.tk = c.t ∧ q.slot = c.k ∧
        q.tag = c.tag ∧ q.p6 = (if nb then some (!old.getLsbD 64) else none) ∧ (old.getLsbD 64 = true → s'.mem = s1.mem)) ∧
    (∀ s1 x old, c.act ≠ 0 → cellOf false (c.tk.uval a) = .ok (s1, x, old) → old.getLsbD 64 = true ∨ nb = true →
      sends (.fget t sp nb d a) s1 (.values (goesTo d 2) (List.replicate 32 (if old.getLsbD 64 then BitVec.ofNat 128 (old.toNat % 2 ^ 64) else 0)) none none)
        (if nb then some (old.getLsbD 64) else none)) ∧
    (c.act ≠ 0 → (spent s).pushing c.g n.toNat = [] → count = 0 ∨ (2 ≤ count ∧ count ≤ 1024 ∧ v % 128 = 0 ∧ v < 2 ^ 32 ∧ v + 128 * count ≤ c.x.foot.sp) →
      ∃ s', exec (.qcfg t n a b) s = next s' false ∧ s'.mem = s.mem ∧ s'.ops = s.ops ∧ ∀ x, s.gang? c.g = some x → n.toNat < x.wqs.length →
        ∃ x', s'.gang? c.g = some x' ∧ x'.sp = x.sp ∧ (x'.wqs[n.toNat]?).join = (if count = 0 then none else
          some { base := v, entries := count, head := 0, tail := 0, visible := [] }))) ∧
  (∀ (t : Tail) (tr : BitVec 3) (d : Dst) (a b : Src) (off : BitVec 6) s c rd1 rd2, Passes s t c → c.act ≠ 0 →
    c.read (spent s) [(a, .int, 1)] = .ok rd1 → c.read (spent s) [(a, .int, 1), (b, .int, 1)] = .ok rd2 →
    let next := fun (s' : State) (held : Bool) => Host.Outcome.next (c.retire t s' held (c.sl.pc + 8))
    let lanes := (List.range 32).filter (fun l => c.act.getLsbD l)
    let at_ := fun (rd : Read) (k l : Nat) => ((rd.v.getD k []).getD l 0).toNat % 2 ^ 32
    let here := fun (a : Nat) => a < c.x.foot.sp ∧ a % 16 = 0
    let mine := fun (q : Op) => q.gang = c.g ∧ q.tk = c.t ∧ q.slot = c.k ∧ q.tag = c.tag ∧ q.mask = c.act
    (∀ s1 ls, c.sublCheck (spent s) (c.part s) tr (lanesAt c rd2 (off.toInt * 8)) (lanes.map (fun l => (l, at_ rd2 1 l))) = .ok (s1, ls) →
      ∀ rd3, s1.sound = true → c.read s1 [(a, .int, 1), (b, .int, 1)] = .ok rd3 →
      ∃ s' q, exec (.subl t tr a b off) s = next s' true ∧ s'.mem = s1.mem ∧ q ∈ s'.ops ∧ mine q ∧ ∃ e, q.kind = .subl e ∧ e.length = min ls.length lanes.length) ∧
    ((∀ l ∈ lanes, here (at_ rd1 0 l)) → ∃ s' q, exec (.unsub t a) s = next s' true ∧ s'.mem = s.mem ∧ q ∈ s'.ops ∧ mine q ∧
      q.kind = .unsub (lanes.map (at_ rd1 0))) ∧
    (s.sound = true → (s.core c.core).locks = [] → (∀ x, s.gang? c.g = some x → ∀ w ∈ x.windows, w = none) →
      (∀ l ∈ lanes, here (at_ rd2 0 l) ∧ c.ownAt (spent s) false (at_ rd2 0 l) 16 = [] ∧
        Memory.read c.x.sp (at_ rd2 0 l + 8) 2 ≠ at_ rd2 1 l % 2 ^ 16) →
      ∃ s' q vals, exec (.slwait t d a b) s = next s' true ∧ s'.mem = s.mem ∧ q ∈ s'.ops ∧ mine q ∧ q.kind = .values (goesTo d 1) vals none none ∧
        ∀ l ∈ lanes, vals.getD l 0 = BitVec.ofNat 128 (Memory.read c.x.sp (at_ rd2 0 l + 8) 2))) ∧
  (∀ (t : Tail) (d : Dst) (n : BitVec 2) (u v w : USrc) s c, Passes s t c → c.act ≠ 0 →
    let next := fun (s' : State) (held : Bool) => Host.Outcome.next (c.retire t s' held (c.sl.pc + 8))
    let mine := fun (q : Op) => q.gang = c.g ∧ q.tk = c.t ∧ q.slot = c.k ∧ q.tag = c.tag ∧ q.mask = c.act
    let put := fun (s' : State) (f : Stream → Stream) => ∀ y st, s.tk? c.g c.t = some y → y.s[n.toNat]? = some st →
      ∃ y', s'.tk? c.g c.t = some y' ∧ y'.s[n.toNat]? = some (f st)
    let st := c.tk.s.getD n.toNat {}
    ((c.tk.uval w).toNat < 2 ^ 35 → (c.tk.uval w).toNat / 2 ^ 32 % 4 ≠ 3 → (c.tk.uval u).toNat % 4 = 0 →
      (c.tk.uval v).toNat % 2 ^ ((c.tk.uval w).toNat / 2 ^ 32 % 4) = 0 → (c.tk.uval u).toNat < 2 ^ 48 → (c.tk.uval v).toNat < 2 ^ 48 →
      ∃ s', exec (.sdef t n u v w) s = next s' false ∧ s'.mem = s.mem ∧ s'.ops = s.ops ∧ put s' (fun _ =>
        { bound := true, ibase := (c.tk.uval u).setWidth 48, dbase := (c.tk.uval v).setWidth 48, elog := (c.tk.uval w).toNat / 2 ^ 32 % 4,
          sx := (c.tk.uval w).getLsbD 34, count := (c.tk.uval w).toNat % 2 ^ 32 })) ∧
    (st.bound = true → (∃ s', exec (.sstart t n u) s = next s' false ∧ s'.mem = s.mem ∧ s'.ops = s.ops ∧ put s' (fun q => { q with
        started := true, cursor := (c.tk.uval u).toNat % 2 ^ 32, next := (c.tk.uval u).toNat % 2 ^ 32, fifo := [], faulted := false
        due := c.sl.homes.foldl (fun m e => max m e.2) (max (s.now + 1) (s.fifoAll (c.core / 8))) })) ∧
      ∃ s' q vals, exec (.sstop t d n) s = next s' true ∧ s'.mem = s.mem ∧ q ∈ s'.ops ∧ mine q ∧ q.kind = .values (goesTo d 2) vals none none ∧
        put s' (fun q => { q with started := false, next := q.cursor, fifo := [], faulted := false }))) ∧
  (∀ (t : Tail) (d : Dst) (a b : Src) (g : BitVec 6) s c rd, Passes s t c → c.act ≠ 0 → c.read (spent s) [(a, .int, 1), (b, .int, 1)] = .ok rd →
    ∃ s' q vals st, exec (.isect t false d a b g) s = .next (c.retire t s' true (c.sl.pc + 8)) ∧ s'.mem = s.mem ∧
      q ∈ s'.ops ∧ q.gang = c.g ∧ q.tk = c.t ∧ q.slot = c.k ∧ q.tag = c.tag ∧ q.kind = .values (goesTo d 1) vals none (some (g.toNat, st)))
end

