-- ==== Sys2Proof/Laws/Issue.lean ====
section
/-! SUPPORT. What issuing a word comes to where it issues, and what delivering a lane result leaves. -/

namespace Sys2Proof.Laws

open Sys2Proof Sys2Proof.Machine Sys2Proof.Says

theorem ctx_tag {s : State} {t : Tail} {c : Ctx} (h : s.ctx? t = some c) : c.tag = t.sba.toNat := by
  unfold State.ctx? at h
  repeat' (split at h)
  all_goals first
    | (injection h with h; rw [← h])
    | cases h

theorem waitsMet_of {t : Tail} {sl : Slot} (h : ∀ i, i < 7 → t.sbw.getLsbD i = true → sl.tags.getD i 0 = 0) :
    waitsMet t sl = true := by
  simp only [waitsMet, List.all_eq_true, List.mem_range, Bool.or_eq_true, Bool.not_eq_true', beq_iff_eq]
  intro i hi
  cases hb : t.sbw.getLsbD i
  · exact .inl rfl
  · exact .inr (h i hi hb)

/-- A word that issues comes to what its body answers. -/
theorem issueIn_of {cls : Bool} {t : Tail} {s : State} {c : Ctx} (h : Issues s t c)
    (hold : cls = true → ∀ o ∈ c.sl.hold, s.op? o = none) (body : Ctx → State → Res) :
    issueIn cls t s body = c.finish t (spent s) (body c (spent s)) := by
  have tag := ctx_tag h.ctx
  have full : (t.sba != 0 && decide (15 ≤ c.sl.tags.getD (c.tag - 1) 0)) = false := by
    by_cases hb : t.sba = 0
    · simp [hb]
    · have := h.room hb
      simp only [tag, Bool.and_eq_false_iff, decide_eq_false_iff_not]
      exact .inr (by omega)
  have free : (cls && c.sl.hold.any (fun o => ((spent s).op? o).isSome)) = false := by
    cases cls
    · rfl
    · have := hold rfl
      simp only [Bool.true_and, List.any_eq_false]
      intro o ho
      have : (spent s).op? o = none := this o ho
      simp [this]
  have out : issueIn cls t s body =
      if !waitsMet t c.sl then .next (spent s)
      else if t.sba != 0 && decide (15 ≤ c.sl.tags.getD (c.tag - 1) 0) then c.finish t (spent s) (.stall (spent s) (.tagFull c.tag))
      else if cls && c.sl.hold.any (fun o => ((spent s).op? o).isSome) then c.finish t (spent s) (.stall (spent s) .held)
      else c.finish t (spent s) (body c (spent s)) := by
    unfold issueIn
    rw [h.ctx]
    rfl
  rw [out, waitsMet_of h.met, full, free]
  rfl

/-- `issueIn_of` for a word outside the class of R230. -/
theorem issue_of {t : Tail} {s : State} {c : Ctx} (h : Issues s t c) (body : Ctx → State → Res) :
    issue t s body = c.finish t (spent s) (body c (spent s)) :=
  issueIn_of h (by simp) body

/-- `issueIn_of` for a word of the class of R230. -/
theorem issueHeld_of {t : Tail} {s : State} {c : Ctx} (h : Passes s t c) (body : Ctx → State → Res) :
    issueHeld t s body = c.finish t (spent s) (body c (spent s)) :=
  issueIn_of h.toIssues (fun _ => h.free) body

/-- Where a destination takes a result, delivering leaves what `sent` says. -/
theorem deliver_sent (c : Ctx) (s : State) (lat : Nat) (d : Dst) (words : Nat) (vals : Lanes 64) (flags : Lanes 5)
    (p6 : Option Bool) (h : Room c s d) :
    c.deliver s lat d words vals flags p6 =
      .next (sent c s lat d words vals flags p6).1 (sent c s lat d words vals flags p6).2 := by
  have st : statusPreds p6 c.act = status c p6 := by cases p6 <;> rfl
  by_cases ha : c.act = 0#32
  · cases d <;> simp [Ctx.deliver, sent, ha, Ctx.claim, pushed]
  · cases d with
    | push => simp [Ctx.deliver, sent, ha, Ctx.claim, pushed, Ctx.addResult, onItsWay, State.addOp, st, Ctx.sup]
    | discard => simp [Ctx.deliver, sent, ha, Ctx.addResult, onItsWay, State.addOp, st, Ctx.sup]
    | n r => simp [Ctx.deliver, sent, ha, Ctx.claim, pushed, Ctx.addResult, onItsWay, State.addOp, st, Ctx.sup]
    | g r hi => simp [Ctx.deliver, sent, ha, Ctx.addResult, onItsWay, State.addOp, st, Ctx.sup]
    | p r =>
      have hr : (r = (6 : BitVec 3)) ↔ r == 6 := by simp
      by_cases h6 : r = 6 <;>
        simp [Ctx.deliver, sent, ha, Ctx.addResult, onItsWay, State.addOp, st, Ctx.sup, h6]
    | wq k nb =>
      obtain h | ⟨q, hq, hr⟩ := h
      · exact absurd h ha
      · have hq' : ((s.gang? c.g).bind (fun x => x.wqs[k.toNat]?)).join = some q := hq
        by_cases hroom : q.tail - q.head < q.entries
        · cases nb
          · simp [Ctx.deliver, sent, ha, Ctx.reserve, hq', hq, hroom, Ctx.addResult, onItsWay, State.addOp, st, Ctx.sup]
          · simp [Ctx.deliver, sent, ha, Ctx.reserve, hq', hq, hroom, Ctx.addResult, onItsWay, State.addOp, Ctx.sup,
              statusPreds, status]
        · have : nb = true := by
            cases nb
            · simp [hroom] at hr
            · rfl
          subst this
          simp [Ctx.deliver, sent, ha, Ctx.reserve, hq', hq, hroom, Ctx.addResult, onItsWay, State.addOp, Ctx.sup,
              statusPreds, status]

/-- A lane instruction whose word issues, whose sources are read and whose destination takes a result. -/
theorem laneOp_of {t : Tail} {s : State} {c : Ctx} {rd : Read} {d : Dst} {ws : List Want} (h : Issues s t c)
    (hr : c.read (spent s) ws = .ok rd) (room : Room c rd.s d) (lat words : Nat)
    (f : Ctx → List (Lanes 64) → Nat → BitVec 64 × BitVec 5) :
    laneOp t s lat d words ws f = retired t c
      (sent c rd.s lat d words (laneNums.map (fun l => (f c rd.v l).1)) (laneNums.map (fun l => (f c rd.v l).2)) rd.p6).1
      (sent c rd.s lat d words (laneNums.map (fun l => (f c rd.v l).1)) (laneNums.map (fun l => (f c rd.v l).2)) rd.p6).2 := by
  unfold laneOp
  rw [issue_of h]
  simp only [hr, List.map_map, Function.comp_def]
  rw [deliver_sent _ _ _ _ _ _ _ _ room]
  rfl

/-- A uniform operation whose word issues and whose sources are read. -/
theorem uniformOp_of {t : Tail} {s : State} {c : Ctx} {rd : Read} {d : Dst} {xs : List Src} (h : Issues s t c)
    (hr : c.read (spent s) (xs.map (fun x => (x, .int, 2))) = .ok rd) (room : Room c rd.s d)
    (f : List (BitVec 64) → BitVec 64) :
    uniformOp t s d xs f = retired t c
      (sent c rd.s 2 d 2 (splat (f (rd.v.map (fun v => v.at_ 0)))) noFlags rd.p6).1
      (sent c rd.s 2 d 2 (splat (f (rd.v.map (fun v => v.at_ 0)))) noFlags rd.p6).2 := by
  unfold uniformOp
  rw [issue_of h]
  simp only [hr]
  rw [deliver_sent _ _ _ _ _ _ _ _ room]
  rfl

end Sys2Proof.Laws
end

