-- ==== Sys2Proof/Laws/Memory.lean ====
section
/-! SUPPORT. Reads after writes, and that every memory operation keeps the canonical form. -/

namespace Sys2Proof.Machine

open Sys2Proof

/-- The canonical form of a list with a head. -/
theorem Memory.wf_cons (c : Host.Cell) (m : Memory) :
    Memory.wf (c :: m) = true ↔ c.2 ≠ 0 ∧ (∀ d ∈ m, c.1 < d.1) ∧ Memory.wf m = true := by
  induction m generalizing c with
  | nil => simp [Memory.wf]
  | cons d rest ih =>
    simp only [Memory.wf, Bool.and_eq_true, bne_iff_ne, decide_eq_true_eq, List.mem_cons, forall_eq_or_imp]
    constructor
    · rintro ⟨⟨h1, h2⟩, h3⟩
      exact ⟨h1, ⟨h2, fun e he => lt_trans h2 (((ih d).1 h3).2.1 e he)⟩, h3⟩
    · rintro ⟨h1, ⟨h2, -⟩, h3⟩
      exact ⟨⟨h1, h2⟩, h3⟩

/-- An address below every entry reads as 0. -/
theorem Memory.get_below (m : Memory) (a : Nat) (h : ∀ d ∈ m, a < d.1) : m.get a = 0 := by
  cases m with
  | nil => rfl
  | cons c rest => simp [Memory.get, h c (by simp)]

/-- Entries of a write lie above what lies below the address and the old entries. -/
theorem Memory.set_above (m : Memory) (a : Nat) (v : Byte) (b : Nat) (hb : b < a) (h : ∀ d ∈ m, b < d.1) :
    ∀ d ∈ m.set a v, b < d.1 := by
  induction m with
  | nil => simp only [Memory.set]; split <;> simp [hb]
  | cons c rest ih =>
    have hc := h c (by simp)
    have hr : ∀ d ∈ rest, b < d.1 := fun d hd => h d (by simp [hd])
    simp only [Memory.set]
    split
    · split
      · exact h
      · intro d hd; rcases List.mem_cons.1 hd with rfl | hd
        · exact hb
        · exact h d hd
    · split
      · split
        · exact hr
        · intro d hd; rcases List.mem_cons.1 hd with rfl | hd
          · exact hb
          · exact hr d hd
      · intro d hd; rcases List.mem_cons.1 hd with rfl | hd
        · exact hc
        · exact ih hr d hd

/-- A write of one byte keeps the canonical form. -/
theorem Memory.set_wf (m : Memory) (a : Nat) (v : Byte) (h : m.wf = true) : (m.set a v).wf = true := by
  induction m with
  | nil =>
    simp only [Memory.set]; split
    · rfl
    · rename_i hv; simpa [Memory.wf] using hv
  | cons c rest ih =>
    obtain ⟨h1, h2, h3⟩ := (Memory.wf_cons c rest).1 h
    simp only [Memory.set]
    split
    · rename_i hlt
      split
      · exact h
      · rename_i hv
        refine (Memory.wf_cons _ _).2 ⟨hv, ?_, h⟩
        intro d hd; rcases List.mem_cons.1 hd with rfl | hd
        · exact hlt
        · exact lt_trans hlt (h2 d hd)
    · split
      · rename_i heq
        split
        · exact h3
        · rename_i hv
          exact (Memory.wf_cons _ _).2 ⟨hv, by simpa [heq] using h2, h3⟩
      · rename_i hlt hne
        exact (Memory.wf_cons _ _).2 ⟨h1, Memory.set_above rest a v c.1 (by omega) h2, ih h3⟩

/-- A read of one byte after a write of one byte. -/
theorem Memory.get_set (m : Memory) (a b : Nat) (v : Byte) (h : m.wf = true) :
    (m.set a v).get b = if b = a then v else m.get b := by
  induction m with
  | nil =>
    simp only [Memory.set]
    by_cases hv : v = 0
    · simp [hv, Memory.get]
    · simp only [hv, if_false, Memory.get]
      by_cases hba : b = a
      · simp [hba]
      · by_cases hlt : b < a <;> simp [hlt, hba]
  | cons c rest ih =>
    obtain ⟨h1, h2, h3⟩ := (Memory.wf_cons c rest).1 h
    simp only [Memory.set]
    by_cases hlt : a < c.1
    · simp only [hlt, if_true]
      by_cases hv : v = 0
      · simp only [hv, if_true]
        by_cases hba : b = a
        · subst hba; simp [Memory.get, hlt]
        · simp [hba]
      · simp only [hv, if_false, Memory.get]
        by_cases hba : b = a
        · simp [hba]
        · by_cases hbl : b < a
          · have : b < c.1 := by omega
            simp [hbl, this, hba]
          · simp [hbl, hba]
    · simp only [hlt, if_false]
      by_cases heq : a = c.1
      · simp only [heq, if_true]
        by_cases hv : v = 0
        · simp only [hv, if_true, Memory.get]
          by_cases hba : b = c.1
          · simp only [hba, if_true]; exact Memory.get_below rest c.1 h2
          · simp only [hba, if_false]
            by_cases hbl : b < c.1
            · simp only [hbl, if_true]; exact Memory.get_below rest b (fun d hd => lt_trans hbl (h2 d hd))
            · simp [hbl]
        · simp only [hv, if_false, Memory.get]
          by_cases hba : b = c.1
          · simp [hba]
          · by_cases hbl : b < c.1 <;> simp [hbl, hba]
      · simp only [heq, if_false, Memory.get]
        by_cases hbl : b < c.1
        · have : b ≠ a := by omega
          simp [hbl, this]
        · by_cases hbc : b = c.1
          · have : b ≠ a := by omega
            simp [hbc, Ne.symm heq]
          · simp [hbl, hbc, ih h3]

/-- A little-endian write keeps the canonical form. -/
theorem Memory.write_wf (m : Memory) (a n v : Nat) (h : m.wf = true) : (m.write a n v).wf = true := by
  induction n generalizing m a v with
  | zero => exact h
  | succ n ih => exact ih _ _ _ (Memory.set_wf m a _ h)

/-- A write of a list of bytes keeps the canonical form. -/
theorem Memory.put_wf (m : Memory) (a : Nat) (bs : List Byte) (h : m.wf = true) : (m.put a bs).wf = true := by
  induction bs generalizing m a with
  | nil => exact h
  | cons b bs ih => exact ih _ _ (Memory.set_wf m a _ h)

/-- Dropping entries keeps the canonical form. -/
theorem Memory.filter_wf (m : Memory) (p : Host.Cell → Bool) (h : m.wf = true) : Memory.wf (m.filter p) = true := by
  induction m with
  | nil => rfl
  | cons c rest ih =>
    obtain ⟨h1, h2, h3⟩ := (Memory.wf_cons c rest).1 h
    rw [List.filter_cons]
    split
    · exact (Memory.wf_cons _ _).2 ⟨h1, fun d hd => h2 d (List.mem_of_mem_filter hd), ih h3⟩
    · exact ih h3

/-- Clearing a range keeps the canonical form. -/
theorem Memory.clear_wf (m : Memory) (lo hi : Nat) (h : m.wf = true) : (m.clear lo hi).wf = true :=
  Memory.filter_wf m _ h

/-- A nibble write keeps the canonical form. -/
theorem Memory.nib_wf (m : Memory) (a : Nat) (hi : Bool) (v : BitVec 4) (h : m.wf = true) : (m.nib a hi v).wf = true :=
  Memory.set_wf m a _ h

/-- Any number of one-byte writes keeps the canonical form. -/
theorem Memory.foldl_set_wf {α : Type} (l : List α) (f : α → Nat) (g : α → Byte) (m : Memory) (h : m.wf = true) :
    Memory.wf (l.foldl (fun m x => m.set (f x) (g x)) m) = true := by
  induction l generalizing m with
  | nil => exact h
  | cons x xs ih => exact ih _ (Memory.set_wf m _ _ h)

/-- What lies outside a write of n bytes reads as before. -/
theorem Memory.get_write_outside (m : Memory) (a n v b : Nat) (h : m.wf = true) (hb : b < a ∨ a + n ≤ b) :
    (m.write a n v).get b = m.get b := by
  induction n generalizing m a v with
  | zero => rfl
  | succ n ih =>
    have := ih (m.set a (BitVec.ofNat 8 v)) (a + 1) (v / 256) (Memory.set_wf m a _ h) (by omega)
    rw [Memory.write, this, Memory.get_set m a b _ h, if_neg (by omega)]

/-- A read of what lies outside a write of n bytes. -/
theorem Memory.read_write_outside (m : Memory) (a n v b k : Nat) (h : m.wf = true) (hb : b + k ≤ a ∨ a + n ≤ b) :
    (m.write a n v).read b k = m.read b k := by
  induction k generalizing b with
  | zero => rfl
  | succ k ih =>
    simp only [Memory.read]
    rw [ih (b + 1) (by omega), Memory.get_write_outside m a n v b h (by omega)]

/-- The lowest byte of a number and the bytes above it. -/
theorem pow256_split (n v : Nat) : v % 256 ^ (n + 1) = v % 256 + 256 * (v / 256 % 256 ^ n) := by
  rw [Nat.pow_succ, Nat.mul_comm (256 ^ n) 256, Nat.mod_mul]

/-- A read after a write of the same n bytes. -/
theorem Memory.read_write (m : Memory) (a n v : Nat) (h : m.wf = true) : (m.write a n v).read a n = v % 256 ^ n := by
  induction n generalizing m a v with
  | zero => simp [Memory.read, Nat.mod_one]
  | succ n ih =>
    simp only [Memory.read, Memory.write]
    rw [ih _ _ _ (Memory.set_wf m a _ h), Memory.get_write_outside _ _ _ _ _ (Memory.set_wf m a _ h) (by omega),
      Memory.get_set m a a _ h, if_pos rfl, BitVec.toNat_ofNat]
    exact (pow256_split n v).symm

/-- A number below the width of n bytes is itself under `bytesOfNat` and `natOfBytes`. -/
theorem natOfBytes_bytesOfNat (n v : Nat) : natOfBytes (bytesOfNat n v) = v % 256 ^ n := by
  induction n generalizing v with
  | zero => simp [natOfBytes, bytesOfNat, Nat.mod_one]
  | succ n ih =>
    simp only [natOfBytes, bytesOfNat, ih, BitVec.toNat_ofNat]
    exact (pow256_split n v).symm

end Sys2Proof.Machine
end

