-- ==== Sys2Proof/Laws/State.lean ====
section
/-! SUPPORT. What each update of the state leaves alone, and what it writes: one lemma for each field. -/

namespace Sys2Proof.Machine

open Sys2Proof

/-! ### modGang -/

@[simp] theorem State.modGang_now (s : State) (g : Nat) (f : Gang → Gang) : (s.modGang g f).now = s.now := rfl
@[simp] theorem State.modGang_mem (s : State) (g : Nat) (f : Gang → Gang) : (s.modGang g f).mem = s.mem := rfl
@[simp] theorem State.modGang_dev (s : State) (g : Nat) (f : Gang → Gang) : (s.modGang g f).dev = s.dev := rfl
@[simp] theorem State.modGang_cores (s : State) (g : Nat) (f : Gang → Gang) : (s.modGang g f).cores = s.cores := rfl
@[simp] theorem State.modGang_parts (s : State) (g : Nat) (f : Gang → Gang) : (s.modGang g f).parts = s.parts := rfl
@[simp] theorem State.modGang_gangs (s : State) (g : Nat) (f : Gang → Gang) : (s.modGang g f).gangs = s.gangs.map (fun x => if x.id == g then f x else x) := rfl
@[simp] theorem State.modGang_tasks (s : State) (g : Nat) (f : Gang → Gang) : (s.modGang g f).tasks = s.tasks := rfl
@[simp] theorem State.modGang_ops (s : State) (g : Nat) (f : Gang → Gang) : (s.modGang g f).ops = s.ops := rfl
@[simp] theorem State.modGang_subs (s : State) (g : Nat) (f : Gang → Gang) : (s.modGang g f).subs = s.subs := rfl
@[simp] theorem State.modGang_waiters (s : State) (g : Nat) (f : Gang → Gang) : (s.modGang g f).waiters = s.waiters := rfl
@[simp] theorem State.modGang_fifo (s : State) (g : Nat) (f : Gang → Gang) : (s.modGang g f).fifo = s.fifo := rfl
@[simp] theorem State.modGang_nextTask (s : State) (g : Nat) (f : Gang → Gang) : (s.modGang g f).nextTask = s.nextTask := rfl
@[simp] theorem State.modGang_nextSeq (s : State) (g : Nat) (f : Gang → Gang) : (s.modGang g f).nextSeq = s.nextSeq := rfl
@[simp] theorem State.modGang_nextOp (s : State) (g : Nat) (f : Gang → Gang) : (s.modGang g f).nextOp = s.nextOp := rfl
@[simp] theorem State.modGang_seed (s : State) (g : Nat) (f : Gang → Gang) : (s.modGang g f).seed = s.seed := rfl
@[simp] theorem State.modGang_cur (s : State) (g : Nat) (f : Gang → Gang) : (s.modGang g f).cur = s.cur := rfl
@[simp] theorem State.modGang_sweep (s : State) (g : Nat) (f : Gang → Gang) : (s.modGang g f).sweep = s.sweep := rfl
@[simp] theorem State.modGang_inbox (s : State) (g : Nat) (f : Gang → Gang) : (s.modGang g f).inbox = s.inbox := rfl
@[simp] theorem State.modGang_outbox (s : State) (g : Nat) (f : Gang → Gang) : (s.modGang g f).outbox = s.outbox := rfl

/-! ### modTk -/

@[simp] theorem State.modTk_now (s : State) (g t : Nat) (f : Tussock → Tussock) : (s.modTk g t f).now = s.now := rfl
@[simp] theorem State.modTk_mem (s : State) (g t : Nat) (f : Tussock → Tussock) : (s.modTk g t f).mem = s.mem := rfl
@[simp] theorem State.modTk_dev (s : State) (g t : Nat) (f : Tussock → Tussock) : (s.modTk g t f).dev = s.dev := rfl
@[simp] theorem State.modTk_cores (s : State) (g t : Nat) (f : Tussock → Tussock) : (s.modTk g t f).cores = s.cores := rfl
@[simp] theorem State.modTk_parts (s : State) (g t : Nat) (f : Tussock → Tussock) : (s.modTk g t f).parts = s.parts := rfl
@[simp] theorem State.modTk_tasks (s : State) (g t : Nat) (f : Tussock → Tussock) : (s.modTk g t f).tasks = s.tasks := rfl
@[simp] theorem State.modTk_ops (s : State) (g t : Nat) (f : Tussock → Tussock) : (s.modTk g t f).ops = s.ops := rfl
@[simp] theorem State.modTk_subs (s : State) (g t : Nat) (f : Tussock → Tussock) : (s.modTk g t f).subs = s.subs := rfl
@[simp] theorem State.modTk_waiters (s : State) (g t : Nat) (f : Tussock → Tussock) : (s.modTk g t f).waiters = s.waiters := rfl
@[simp] theorem State.modTk_fifo (s : State) (g t : Nat) (f : Tussock → Tussock) : (s.modTk g t f).fifo = s.fifo := rfl
@[simp] theorem State.modTk_nextTask (s : State) (g t : Nat) (f : Tussock → Tussock) : (s.modTk g t f).nextTask = s.nextTask := rfl
@[simp] theorem State.modTk_nextSeq (s : State) (g t : Nat) (f : Tussock → Tussock) : (s.modTk g t f).nextSeq = s.nextSeq := rfl
@[simp] theorem State.modTk_nextOp (s : State) (g t : Nat) (f : Tussock → Tussock) : (s.modTk g t f).nextOp = s.nextOp := rfl
@[simp] theorem State.modTk_seed (s : State) (g t : Nat) (f : Tussock → Tussock) : (s.modTk g t f).seed = s.seed := rfl
@[simp] theorem State.modTk_cur (s : State) (g t : Nat) (f : Tussock → Tussock) : (s.modTk g t f).cur = s.cur := rfl
@[simp] theorem State.modTk_sweep (s : State) (g t : Nat) (f : Tussock → Tussock) : (s.modTk g t f).sweep = s.sweep := rfl
@[simp] theorem State.modTk_inbox (s : State) (g t : Nat) (f : Tussock → Tussock) : (s.modTk g t f).inbox = s.inbox := rfl
@[simp] theorem State.modTk_outbox (s : State) (g t : Nat) (f : Tussock → Tussock) : (s.modTk g t f).outbox = s.outbox := rfl

/-! ### modSlot -/

@[simp] theorem State.modSlot_now (s : State) (g t k : Nat) (f : Slot → Slot) : (s.modSlot g t k f).now = s.now := rfl
@[simp] theorem State.modSlot_mem (s : State) (g t k : Nat) (f : Slot → Slot) : (s.modSlot g t k f).mem = s.mem := rfl
@[simp] theorem State.modSlot_dev (s : State) (g t k : Nat) (f : Slot → Slot) : (s.modSlot g t k f).dev = s.dev := rfl
@[simp] theorem State.modSlot_cores (s : State) (g t k : Nat) (f : Slot → Slot) : (s.modSlot g t k f).cores = s.cores := rfl
@[simp] theorem State.modSlot_parts (s : State) (g t k : Nat) (f : Slot → Slot) : (s.modSlot g t k f).parts = s.parts := rfl
@[simp] theorem State.modSlot_tasks (s : State) (g t k : Nat) (f : Slot → Slot) : (s.modSlot g t k f).tasks = s.tasks := rfl
@[simp] theorem State.modSlot_ops (s : State) (g t k : Nat) (f : Slot → Slot) : (s.modSlot g t k f).ops = s.ops := rfl
@[simp] theorem State.modSlot_subs (s : State) (g t k : Nat) (f : Slot → Slot) : (s.modSlot g t k f).subs = s.subs := rfl
@[simp] theorem State.modSlot_waiters (s : State) (g t k : Nat) (f : Slot → Slot) : (s.modSlot g t k f).waiters = s.waiters := rfl
@[simp] theorem State.modSlot_fifo (s : State) (g t k : Nat) (f : Slot → Slot) : (s.modSlot g t k f).fifo = s.fifo := rfl
@[simp] theorem State.modSlot_nextTask (s : State) (g t k : Nat) (f : Slot → Slot) : (s.modSlot g t k f).nextTask = s.nextTask := rfl
@[simp] theorem State.modSlot_nextSeq (s : State) (g t k : Nat) (f : Slot → Slot) : (s.modSlot g t k f).nextSeq = s.nextSeq := rfl
@[simp] theorem State.modSlot_nextOp (s : State) (g t k : Nat) (f : Slot → Slot) : (s.modSlot g t k f).nextOp = s.nextOp := rfl
@[simp] theorem State.modSlot_seed (s : State) (g t k : Nat) (f : Slot → Slot) : (s.modSlot g t k f).seed = s.seed := rfl
@[simp] theorem State.modSlot_cur (s : State) (g t k : Nat) (f : Slot → Slot) : (s.modSlot g t k f).cur = s.cur := rfl
@[simp] theorem State.modSlot_sweep (s : State) (g t k : Nat) (f : Slot → Slot) : (s.modSlot g t k f).sweep = s.sweep := rfl
@[simp] theorem State.modSlot_inbox (s : State) (g t k : Nat) (f : Slot → Slot) : (s.modSlot g t k f).inbox = s.inbox := rfl
@[simp] theorem State.modSlot_outbox (s : State) (g t k : Nat) (f : Slot → Slot) : (s.modSlot g t k f).outbox = s.outbox := rfl

/-! ### modPart -/

@[simp] theorem State.modPart_now (s : State) (p : Nat) (f : Partition → Partition) : (s.modPart p f).now = s.now := rfl
@[simp] theorem State.modPart_mem (s : State) (p : Nat) (f : Partition → Partition) : (s.modPart p f).mem = s.mem := rfl
@[simp] theorem State.modPart_dev (s : State) (p : Nat) (f : Partition → Partition) : (s.modPart p f).dev = s.dev := rfl
@[simp] theorem State.modPart_cores (s : State) (p : Nat) (f : Partition → Partition) : (s.modPart p f).cores = s.cores := rfl
@[simp] theorem State.modPart_parts (s : State) (p : Nat) (f : Partition → Partition) : (s.modPart p f).parts = s.parts.map (fun x => if x.num == p then f x else x) := rfl
@[simp] theorem State.modPart_gangs (s : State) (p : Nat) (f : Partition → Partition) : (s.modPart p f).gangs = s.gangs := rfl
@[simp] theorem State.modPart_tasks (s : State) (p : Nat) (f : Partition → Partition) : (s.modPart p f).tasks = s.tasks := rfl
@[simp] theorem State.modPart_ops (s : State) (p : Nat) (f : Partition → Partition) : (s.modPart p f).ops = s.ops := rfl
@[simp] theorem State.modPart_subs (s : State) (p : Nat) (f : Partition → Partition) : (s.modPart p f).subs = s.subs := rfl
@[simp] theorem State.modPart_waiters (s : State) (p : Nat) (f : Partition → Partition) : (s.modPart p f).waiters = s.waiters := rfl
@[simp] theorem State.modPart_fifo (s : State) (p : Nat) (f : Partition → Partition) : (s.modPart p f).fifo = s.fifo := rfl
@[simp] theorem State.modPart_nextTask (s : State) (p : Nat) (f : Partition → Partition) : (s.modPart p f).nextTask = s.nextTask := rfl
@[simp] theorem State.modPart_nextSeq (s : State) (p : Nat) (f : Partition → Partition) : (s.modPart p f).nextSeq = s.nextSeq := rfl
@[simp] theorem State.modPart_nextOp (s : State) (p : Nat) (f : Partition → Partition) : (s.modPart p f).nextOp = s.nextOp := rfl
@[simp] theorem State.modPart_seed (s : State) (p : Nat) (f : Partition → Partition) : (s.modPart p f).seed = s.seed := rfl
@[simp] theorem State.modPart_cur (s : State) (p : Nat) (f : Partition → Partition) : (s.modPart p f).cur = s.cur := rfl
@[simp] theorem State.modPart_sweep (s : State) (p : Nat) (f : Partition → Partition) : (s.modPart p f).sweep = s.sweep := rfl
@[simp] theorem State.modPart_inbox (s : State) (p : Nat) (f : Partition → Partition) : (s.modPart p f).inbox = s.inbox := rfl
@[simp] theorem State.modPart_outbox (s : State) (p : Nat) (f : Partition → Partition) : (s.modPart p f).outbox = s.outbox := rfl

/-! ### modJob -/

@[simp] theorem State.modJob_now (s : State) (p tenant rcb : Nat) (f : Job → Job) : (s.modJob p tenant rcb f).now = s.now := rfl
@[simp] theorem State.modJob_mem (s : State) (p tenant rcb : Nat) (f : Job → Job) : (s.modJob p tenant rcb f).mem = s.mem := rfl
@[simp] theorem State.modJob_dev (s : State) (p tenant rcb : Nat) (f : Job → Job) : (s.modJob p tenant rcb f).dev = s.dev := rfl
@[simp] theorem State.modJob_cores (s : State) (p tenant rcb : Nat) (f : Job → Job) : (s.modJob p tenant rcb f).cores = s.cores := rfl
@[simp] theorem State.modJob_gangs (s : State) (p tenant rcb : Nat) (f : Job → Job) : (s.modJob p tenant rcb f).gangs = s.gangs := rfl
@[simp] theorem State.modJob_tasks (s : State) (p tenant rcb : Nat) (f : Job → Job) : (s.modJob p tenant rcb f).tasks = s.tasks := rfl
@[simp] theorem State.modJob_ops (s : State) (p tenant rcb : Nat) (f : Job → Job) : (s.modJob p tenant rcb f).ops = s.ops := rfl
@[simp] theorem State.modJob_subs (s : State) (p tenant rcb : Nat) (f : Job → Job) : (s.modJob p tenant rcb f).subs = s.subs := rfl
@[simp] theorem State.modJob_waiters (s : State) (p tenant rcb : Nat) (f : Job → Job) : (s.modJob p tenant rcb f).waiters = s.waiters := rfl
@[simp] theorem State.modJob_fifo (s : State) (p tenant rcb : Nat) (f : Job → Job) : (s.modJob p tenant rcb f).fifo = s.fifo := rfl
@[simp] theorem State.modJob_nextTask (s : State) (p tenant rcb : Nat) (f : Job → Job) : (s.modJob p tenant rcb f).nextTask = s.nextTask := rfl
@[simp] theorem State.modJob_nextSeq (s : State) (p tenant rcb : Nat) (f : Job → Job) : (s.modJob p tenant rcb f).nextSeq = s.nextSeq := rfl
@[simp] theorem State.modJob_nextOp (s : State) (p tenant rcb : Nat) (f : Job → Job) : (s.modJob p tenant rcb f).nextOp = s.nextOp := rfl
@[simp] theorem State.modJob_seed (s : State) (p tenant rcb : Nat) (f : Job → Job) : (s.modJob p tenant rcb f).seed = s.seed := rfl
@[simp] theorem State.modJob_cur (s : State) (p tenant rcb : Nat) (f : Job → Job) : (s.modJob p tenant rcb f).cur = s.cur := rfl
@[simp] theorem State.modJob_sweep (s : State) (p tenant rcb : Nat) (f : Job → Job) : (s.modJob p tenant rcb f).sweep = s.sweep := rfl
@[simp] theorem State.modJob_inbox (s : State) (p tenant rcb : Nat) (f : Job → Job) : (s.modJob p tenant rcb f).inbox = s.inbox := rfl
@[simp] theorem State.modJob_outbox (s : State) (p tenant rcb : Nat) (f : Job → Job) : (s.modJob p tenant rcb f).outbox = s.outbox := rfl

/-! ### modTask -/

@[simp] theorem State.modTask_now (s : State) (t : Nat) (f : Task → Task) : (s.modTask t f).now = s.now := rfl
@[simp] theorem State.modTask_mem (s : State) (t : Nat) (f : Task → Task) : (s.modTask t f).mem = s.mem := rfl
@[simp] theorem State.modTask_dev (s : State) (t : Nat) (f : Task → Task) : (s.modTask t f).dev = s.dev := rfl
@[simp] theorem State.modTask_cores (s : State) (t : Nat) (f : Task → Task) : (s.modTask t f).cores = s.cores := rfl
@[simp] theorem State.modTask_parts (s : State) (t : Nat) (f : Task → Task) : (s.modTask t f).parts = s.parts := rfl
@[simp] theorem State.modTask_gangs (s : State) (t : Nat) (f : Task → Task) : (s.modTask t f).gangs = s.gangs := rfl
@[simp] theorem State.modTask_tasks (s : State) (t : Nat) (f : Task → Task) : (s.modTask t f).tasks = s.tasks.map (fun x => if x.id == t then f x else x) := rfl
@[simp] theorem State.modTask_ops (s : State) (t : Nat) (f : Task → Task) : (s.modTask t f).ops = s.ops := rfl
@[simp] theorem State.modTask_subs (s : State) (t : Nat) (f : Task → Task) : (s.modTask t f).subs = s.subs := rfl
@[simp] theorem State.modTask_waiters (s : State) (t : Nat) (f : Task → Task) : (s.modTask t f).waiters = s.waiters := rfl
@[simp] theorem State.modTask_fifo (s : State) (t : Nat) (f : Task → Task) : (s.modTask t f).fifo = s.fifo := rfl
@[simp] theorem State.modTask_nextTask (s : State) (t : Nat) (f : Task → Task) : (s.modTask t f).nextTask = s.nextTask := rfl
@[simp] theorem State.modTask_nextSeq (s : State) (t : Nat) (f : Task → Task) : (s.modTask t f).nextSeq = s.nextSeq := rfl
@[simp] theorem State.modTask_nextOp (s : State) (t : Nat) (f : Task → Task) : (s.modTask t f).nextOp = s.nextOp := rfl
@[simp] theorem State.modTask_seed (s : State) (t : Nat) (f : Task → Task) : (s.modTask t f).seed = s.seed := rfl
@[simp] theorem State.modTask_cur (s : State) (t : Nat) (f : Task → Task) : (s.modTask t f).cur = s.cur := rfl
@[simp] theorem State.modTask_sweep (s : State) (t : Nat) (f : Task → Task) : (s.modTask t f).sweep = s.sweep := rfl
@[simp] theorem State.modTask_inbox (s : State) (t : Nat) (f : Task → Task) : (s.modTask t f).inbox = s.inbox := rfl
@[simp] theorem State.modTask_outbox (s : State) (t : Nat) (f : Task → Task) : (s.modTask t f).outbox = s.outbox := rfl

/-! ### modOp -/

@[simp] theorem State.modOp_now (s : State) (o : Nat) (f : Op → Op) : (s.modOp o f).now = s.now := rfl
@[simp] theorem State.modOp_mem (s : State) (o : Nat) (f : Op → Op) : (s.modOp o f).mem = s.mem := rfl
@[simp] theorem State.modOp_dev (s : State) (o : Nat) (f : Op → Op) : (s.modOp o f).dev = s.dev := rfl
@[simp] theorem State.modOp_cores (s : State) (o : Nat) (f : Op → Op) : (s.modOp o f).cores = s.cores := rfl
@[simp] theorem State.modOp_parts (s : State) (o : Nat) (f : Op → Op) : (s.modOp o f).parts = s.parts := rfl
@[simp] theorem State.modOp_gangs (s : State) (o : Nat) (f : Op → Op) : (s.modOp o f).gangs = s.gangs := rfl
@[simp] theorem State.modOp_tasks (s : State) (o : Nat) (f : Op → Op) : (s.modOp o f).tasks = s.tasks := rfl
@[simp] theorem State.modOp_ops (s : State) (o : Nat) (f : Op → Op) : (s.modOp o f).ops = s.ops.map (fun x => if x.id == o then f x else x) := rfl
@[simp] theorem State.modOp_subs (s : State) (o : Nat) (f : Op → Op) : (s.modOp o f).subs = s.subs := rfl
@[simp] theorem State.modOp_waiters (s : State) (o : Nat) (f : Op → Op) : (s.modOp o f).waiters = s.waiters := rfl
@[simp] theorem State.modOp_fifo (s : State) (o : Nat) (f : Op → Op) : (s.modOp o f).fifo = s.fifo := rfl
@[simp] theorem State.modOp_nextTask (s : State) (o : Nat) (f : Op → Op) : (s.modOp o f).nextTask = s.nextTask := rfl
@[simp] theorem State.modOp_nextSeq (s : State) (o : Nat) (f : Op → Op) : (s.modOp o f).nextSeq = s.nextSeq := rfl
@[simp] theorem State.modOp_nextOp (s : State) (o : Nat) (f : Op → Op) : (s.modOp o f).nextOp = s.nextOp := rfl
@[simp] theorem State.modOp_seed (s : State) (o : Nat) (f : Op → Op) : (s.modOp o f).seed = s.seed := rfl
@[simp] theorem State.modOp_cur (s : State) (o : Nat) (f : Op → Op) : (s.modOp o f).cur = s.cur := rfl
@[simp] theorem State.modOp_sweep (s : State) (o : Nat) (f : Op → Op) : (s.modOp o f).sweep = s.sweep := rfl
@[simp] theorem State.modOp_inbox (s : State) (o : Nat) (f : Op → Op) : (s.modOp o f).inbox = s.inbox := rfl
@[simp] theorem State.modOp_outbox (s : State) (o : Nat) (f : Op → Op) : (s.modOp o f).outbox = s.outbox := rfl

/-! ### dropOp -/

@[simp] theorem State.dropOp_now (s : State) (o : Nat) : (s.dropOp o).now = s.now := rfl
@[simp] theorem State.dropOp_mem (s : State) (o : Nat) : (s.dropOp o).mem = s.mem := rfl
@[simp] theorem State.dropOp_dev (s : State) (o : Nat) : (s.dropOp o).dev = s.dev := rfl
@[simp] theorem State.dropOp_cores (s : State) (o : Nat) : (s.dropOp o).cores = s.cores := rfl
@[simp] theorem State.dropOp_parts (s : State) (o : Nat) : (s.dropOp o).parts = s.parts := rfl
@[simp] theorem State.dropOp_gangs (s : State) (o : Nat) : (s.dropOp o).gangs = s.gangs := rfl
@[simp] theorem State.dropOp_tasks (s : State) (o : Nat) : (s.dropOp o).tasks = s.tasks := rfl
@[simp] theorem State.dropOp_ops (s : State) (o : Nat) : (s.dropOp o).ops = s.ops.filter (fun x => x.id != o) := rfl
@[simp] theorem State.dropOp_subs (s : State) (o : Nat) : (s.dropOp o).subs = s.subs := rfl
@[simp] theorem State.dropOp_waiters (s : State) (o : Nat) : (s.dropOp o).waiters = s.waiters := rfl
@[simp] theorem State.dropOp_fifo (s : State) (o : Nat) : (s.dropOp o).fifo = s.fifo := rfl
@[simp] theorem State.dropOp_nextTask (s : State) (o : Nat) : (s.dropOp o).nextTask = s.nextTask := rfl
@[simp] theorem State.dropOp_nextSeq (s : State) (o : Nat) : (s.dropOp o).nextSeq = s.nextSeq := rfl
@[simp] theorem State.dropOp_nextOp (s : State) (o : Nat) : (s.dropOp o).nextOp = s.nextOp := rfl
@[simp] theorem State.dropOp_seed (s : State) (o : Nat) : (s.dropOp o).seed = s.seed := rfl
@[simp] theorem State.dropOp_cur (s : State) (o : Nat) : (s.dropOp o).cur = s.cur := rfl
@[simp] theorem State.dropOp_sweep (s : State) (o : Nat) : (s.dropOp o).sweep = s.sweep := rfl
@[simp] theorem State.dropOp_inbox (s : State) (o : Nat) : (s.dropOp o).inbox = s.inbox := rfl
@[simp] theorem State.dropOp_outbox (s : State) (o : Nat) : (s.dropOp o).outbox = s.outbox := rfl

/-! ### modCore -/

@[simp] theorem State.modCore_now (s : State) (c : Nat) (f : Core → Core) : (s.modCore c f).now = s.now := rfl
@[simp] theorem State.modCore_mem (s : State) (c : Nat) (f : Core → Core) : (s.modCore c f).mem = s.mem := rfl
@[simp] theorem State.modCore_dev (s : State) (c : Nat) (f : Core → Core) : (s.modCore c f).dev = s.dev := rfl
@[simp] theorem State.modCore_cores (s : State) (c : Nat) (f : Core → Core) : (s.modCore c f).cores = s.cores.modify c f := rfl
@[simp] theorem State.modCore_parts (s : State) (c : Nat) (f : Core → Core) : (s.modCore c f).parts = s.parts := rfl
@[simp] theorem State.modCore_gangs (s : State) (c : Nat) (f : Core → Core) : (s.modCore c f).gangs = s.gangs := rfl
@[simp] theorem State.modCore_tasks (s : State) (c : Nat) (f : Core → Core) : (s.modCore c f).tasks = s.tasks := rfl
@[simp] theorem State.modCore_ops (s : State) (c : Nat) (f : Core → Core) : (s.modCore c f).ops = s.ops := rfl
@[simp] theorem State.modCore_subs (s : State) (c : Nat) (f : Core → Core) : (s.modCore c f).subs = s.subs := rfl
@[simp] theorem State.modCore_waiters (s : State) (c : Nat) (f : Core → Core) : (s.modCore c f).waiters = s.waiters := rfl
@[simp] theorem State.modCore_fifo (s : State) (c : Nat) (f : Core → Core) : (s.modCore c f).fifo = s.fifo := rfl
@[simp] theorem State.modCore_nextTask (s : State) (c : Nat) (f : Core → Core) : (s.modCore c f).nextTask = s.nextTask := rfl
@[simp] theorem State.modCore_nextSeq (s : State) (c : Nat) (f : Core → Core) : (s.modCore c f).nextSeq = s.nextSeq := rfl
@[simp] theorem State.modCore_nextOp (s : State) (c : Nat) (f : Core → Core) : (s.modCore c f).nextOp = s.nextOp := rfl
@[simp] theorem State.modCore_seed (s : State) (c : Nat) (f : Core → Core) : (s.modCore c f).seed = s.seed := rfl
@[simp] theorem State.modCore_cur (s : State) (c : Nat) (f : Core → Core) : (s.modCore c f).cur = s.cur := rfl
@[simp] theorem State.modCore_sweep (s : State) (c : Nat) (f : Core → Core) : (s.modCore c f).sweep = s.sweep := rfl
@[simp] theorem State.modCore_inbox (s : State) (c : Nat) (f : Core → Core) : (s.modCore c f).inbox = s.inbox := rfl
@[simp] theorem State.modCore_outbox (s : State) (c : Nat) (f : Core → Core) : (s.modCore c f).outbox = s.outbox := rfl

/-! ### modDev -/

@[simp] theorem State.modDev_now (s : State) (f : Device → Device) : (s.modDev f).now = s.now := rfl
@[simp] theorem State.modDev_mem (s : State) (f : Device → Device) : (s.modDev f).mem = s.mem := rfl
@[simp] theorem State.modDev_dev (s : State) (f : Device → Device) : (s.modDev f).dev = f s.dev := rfl
@[simp] theorem State.modDev_cores (s : State) (f : Device → Device) : (s.modDev f).cores = s.cores := rfl
@[simp] theorem State.modDev_parts (s : State) (f : Device → Device) : (s.modDev f).parts = s.parts := rfl
@[simp] theorem State.modDev_gangs (s : State) (f : Device → Device) : (s.modDev f).gangs = s.gangs := rfl
@[simp] theorem State.modDev_tasks (s : State) (f : Device → Device) : (s.modDev f).tasks = s.tasks := rfl
@[simp] theorem State.modDev_ops (s : State) (f : Device → Device) : (s.modDev f).ops = s.ops := rfl
@[simp] theorem State.modDev_subs (s : State) (f : Device → Device) : (s.modDev f).subs = s.subs := rfl
@[simp] theorem State.modDev_waiters (s : State) (f : Device → Device) : (s.modDev f).waiters = s.waiters := rfl
@[simp] theorem State.modDev_fifo (s : State) (f : Device → Device) : (s.modDev f).fifo = s.fifo := rfl
@[simp] theorem State.modDev_nextTask (s : State) (f : Device → Device) : (s.modDev f).nextTask = s.nextTask := rfl
@[simp] theorem State.modDev_nextSeq (s : State) (f : Device → Device) : (s.modDev f).nextSeq = s.nextSeq := rfl
@[simp] theorem State.modDev_nextOp (s : State) (f : Device → Device) : (s.modDev f).nextOp = s.nextOp := rfl
@[simp] theorem State.modDev_seed (s : State) (f : Device → Device) : (s.modDev f).seed = s.seed := rfl
@[simp] theorem State.modDev_cur (s : State) (f : Device → Device) : (s.modDev f).cur = s.cur := rfl
@[simp] theorem State.modDev_sweep (s : State) (f : Device → Device) : (s.modDev f).sweep = s.sweep := rfl
@[simp] theorem State.modDev_inbox (s : State) (f : Device → Device) : (s.modDev f).inbox = s.inbox := rfl
@[simp] theorem State.modDev_outbox (s : State) (f : Device → Device) : (s.modDev f).outbox = s.outbox := rfl

/-! ### poolAdd -/

@[simp] theorem State.poolAdd_now (s : State) (n : Nat) : (s.poolAdd n).now = s.now := rfl
@[simp] theorem State.poolAdd_mem (s : State) (n : Nat) : (s.poolAdd n).mem = s.mem := rfl
@[simp] theorem State.poolAdd_cores (s : State) (n : Nat) : (s.poolAdd n).cores = s.cores := rfl
@[simp] theorem State.poolAdd_parts (s : State) (n : Nat) : (s.poolAdd n).parts = s.parts := rfl
@[simp] theorem State.poolAdd_gangs (s : State) (n : Nat) : (s.poolAdd n).gangs = s.gangs := rfl
@[simp] theorem State.poolAdd_tasks (s : State) (n : Nat) : (s.poolAdd n).tasks = s.tasks := rfl
@[simp] theorem State.poolAdd_ops (s : State) (n : Nat) : (s.poolAdd n).ops = s.ops := rfl
@[simp] theorem State.poolAdd_subs (s : State) (n : Nat) : (s.poolAdd n).subs = s.subs := rfl
@[simp] theorem State.poolAdd_waiters (s : State) (n : Nat) : (s.poolAdd n).waiters = s.waiters := rfl
@[simp] theorem State.poolAdd_fifo (s : State) (n : Nat) : (s.poolAdd n).fifo = s.fifo := rfl
@[simp] theorem State.poolAdd_nextTask (s : State) (n : Nat) : (s.poolAdd n).nextTask = s.nextTask := rfl
@[simp] theorem State.poolAdd_nextSeq (s : State) (n : Nat) : (s.poolAdd n).nextSeq = s.nextSeq := rfl
@[simp] theorem State.poolAdd_nextOp (s : State) (n : Nat) : (s.poolAdd n).nextOp = s.nextOp := rfl
@[simp] theorem State.poolAdd_seed (s : State) (n : Nat) : (s.poolAdd n).seed = s.seed := rfl
@[simp] theorem State.poolAdd_cur (s : State) (n : Nat) : (s.poolAdd n).cur = s.cur := rfl
@[simp] theorem State.poolAdd_sweep (s : State) (n : Nat) : (s.poolAdd n).sweep = s.sweep := rfl
@[simp] theorem State.poolAdd_inbox (s : State) (n : Nat) : (s.poolAdd n).inbox = s.inbox := rfl
@[simp] theorem State.poolAdd_outbox (s : State) (n : Nat) : (s.poolAdd n).outbox = s.outbox := rfl

/-! ### dropLocks -/

@[simp] theorem State.dropLocks_now (s : State) (g : Nat) : (s.dropLocks g).now = s.now := rfl
@[simp] theorem State.dropLocks_mem (s : State) (g : Nat) : (s.dropLocks g).mem = s.mem := rfl
@[simp] theorem State.dropLocks_dev (s : State) (g : Nat) : (s.dropLocks g).dev = s.dev := rfl
@[simp] theorem State.dropLocks_parts (s : State) (g : Nat) : (s.dropLocks g).parts = s.parts := rfl
@[simp] theorem State.dropLocks_gangs (s : State) (g : Nat) : (s.dropLocks g).gangs = s.gangs := rfl
@[simp] theorem State.dropLocks_tasks (s : State) (g : Nat) : (s.dropLocks g).tasks = s.tasks := rfl
@[simp] theorem State.dropLocks_ops (s : State) (g : Nat) : (s.dropLocks g).ops = s.ops := rfl
@[simp] theorem State.dropLocks_subs (s : State) (g : Nat) : (s.dropLocks g).subs = s.subs := rfl
@[simp] theorem State.dropLocks_waiters (s : State) (g : Nat) : (s.dropLocks g).waiters = s.waiters := rfl
@[simp] theorem State.dropLocks_fifo (s : State) (g : Nat) : (s.dropLocks g).fifo = s.fifo := rfl
@[simp] theorem State.dropLocks_nextTask (s : State) (g : Nat) : (s.dropLocks g).nextTask = s.nextTask := rfl
@[simp] theorem State.dropLocks_nextSeq (s : State) (g : Nat) : (s.dropLocks g).nextSeq = s.nextSeq := rfl
@[simp] theorem State.dropLocks_nextOp (s : State) (g : Nat) : (s.dropLocks g).nextOp = s.nextOp := rfl
@[simp] theorem State.dropLocks_seed (s : State) (g : Nat) : (s.dropLocks g).seed = s.seed := rfl
@[simp] theorem State.dropLocks_cur (s : State) (g : Nat) : (s.dropLocks g).cur = s.cur := rfl
@[simp] theorem State.dropLocks_sweep (s : State) (g : Nat) : (s.dropLocks g).sweep = s.sweep := rfl
@[simp] theorem State.dropLocks_inbox (s : State) (g : Nat) : (s.dropLocks g).inbox = s.inbox := rfl
@[simp] theorem State.dropLocks_outbox (s : State) (g : Nat) : (s.dropLocks g).outbox = s.outbox := rfl

/-! ### dropSubs -/

@[simp] theorem State.dropSubs_now (s : State) (g : Nat) : (s.dropSubs g).now = s.now := rfl
@[simp] theorem State.dropSubs_mem (s : State) (g : Nat) : (s.dropSubs g).mem = s.mem := rfl
@[simp] theorem State.dropSubs_dev (s : State) (g : Nat) : (s.dropSubs g).dev = s.dev := rfl
@[simp] theorem State.dropSubs_cores (s : State) (g : Nat) : (s.dropSubs g).cores = s.cores := rfl
@[simp] theorem State.dropSubs_parts (s : State) (g : Nat) : (s.dropSubs g).parts = s.parts := rfl
@[simp] theorem State.dropSubs_gangs (s : State) (g : Nat) : (s.dropSubs g).gangs = s.gangs := rfl
@[simp] theorem State.dropSubs_tasks (s : State) (g : Nat) : (s.dropSubs g).tasks = s.tasks := rfl
@[simp] theorem State.dropSubs_ops (s : State) (g : Nat) : (s.dropSubs g).ops = s.ops := rfl
@[simp] theorem State.dropSubs_waiters (s : State) (g : Nat) : (s.dropSubs g).waiters = s.waiters := rfl
@[simp] theorem State.dropSubs_fifo (s : State) (g : Nat) : (s.dropSubs g).fifo = s.fifo := rfl
@[simp] theorem State.dropSubs_nextTask (s : State) (g : Nat) : (s.dropSubs g).nextTask = s.nextTask := rfl
@[simp] theorem State.dropSubs_nextSeq (s : State) (g : Nat) : (s.dropSubs g).nextSeq = s.nextSeq := rfl
@[simp] theorem State.dropSubs_nextOp (s : State) (g : Nat) : (s.dropSubs g).nextOp = s.nextOp := rfl
@[simp] theorem State.dropSubs_seed (s : State) (g : Nat) : (s.dropSubs g).seed = s.seed := rfl
@[simp] theorem State.dropSubs_cur (s : State) (g : Nat) : (s.dropSubs g).cur = s.cur := rfl
@[simp] theorem State.dropSubs_sweep (s : State) (g : Nat) : (s.dropSubs g).sweep = s.sweep := rfl
@[simp] theorem State.dropSubs_inbox (s : State) (g : Nat) : (s.dropSubs g).inbox = s.inbox := rfl
@[simp] theorem State.dropSubs_outbox (s : State) (g : Nat) : (s.dropSubs g).outbox = s.outbox := rfl

/-! ### sendData -/

@[simp] theorem State.sendData_now (s : State) (p tenant op : Nat) (dest a0 a1 a2 a3 : BitVec 64) (tag : Nat) : (s.sendData p tenant op dest a0 a1 a2 a3 tag).now = s.now := rfl
@[simp] theorem State.sendData_mem (s : State) (p tenant op : Nat) (dest a0 a1 a2 a3 : BitVec 64) (tag : Nat) : (s.sendData p tenant op dest a0 a1 a2 a3 tag).mem = s.mem := rfl
@[simp] theorem State.sendData_dev (s : State) (p tenant op : Nat) (dest a0 a1 a2 a3 : BitVec 64) (tag : Nat) : (s.sendData p tenant op dest a0 a1 a2 a3 tag).dev = s.dev := rfl
@[simp] theorem State.sendData_cores (s : State) (p tenant op : Nat) (dest a0 a1 a2 a3 : BitVec 64) (tag : Nat) : (s.sendData p tenant op dest a0 a1 a2 a3 tag).cores = s.cores := rfl
@[simp] theorem State.sendData_parts (s : State) (p tenant op : Nat) (dest a0 a1 a2 a3 : BitVec 64) (tag : Nat) : (s.sendData p tenant op dest a0 a1 a2 a3 tag).parts = s.parts := rfl
@[simp] theorem State.sendData_gangs (s : State) (p tenant op : Nat) (dest a0 a1 a2 a3 : BitVec 64) (tag : Nat) : (s.sendData p tenant op dest a0 a1 a2 a3 tag).gangs = s.gangs := rfl
@[simp] theorem State.sendData_tasks (s : State) (p tenant op : Nat) (dest a0 a1 a2 a3 : BitVec 64) (tag : Nat) : (s.sendData p tenant op dest a0 a1 a2 a3 tag).tasks = s.tasks := rfl
@[simp] theorem State.sendData_ops (s : State) (p tenant op : Nat) (dest a0 a1 a2 a3 : BitVec 64) (tag : Nat) : (s.sendData p tenant op dest a0 a1 a2 a3 tag).ops = s.ops := rfl
@[simp] theorem State.sendData_subs (s : State) (p tenant op : Nat) (dest a0 a1 a2 a3 : BitVec 64) (tag : Nat) : (s.sendData p tenant op dest a0 a1 a2 a3 tag).subs = s.subs := rfl
@[simp] theorem State.sendData_waiters (s : State) (p tenant op : Nat) (dest a0 a1 a2 a3 : BitVec 64) (tag : Nat) : (s.sendData p tenant op dest a0 a1 a2 a3 tag).waiters = s.waiters := rfl
@[simp] theorem State.sendData_fifo (s : State) (p tenant op : Nat) (dest a0 a1 a2 a3 : BitVec 64) (tag : Nat) : (s.sendData p tenant op dest a0 a1 a2 a3 tag).fifo = s.fifo := rfl
@[simp] theorem State.sendData_nextTask (s : State) (p tenant op : Nat) (dest a0 a1 a2 a3 : BitVec 64) (tag : Nat) : (s.sendData p tenant op dest a0 a1 a2 a3 tag).nextTask = s.nextTask := rfl
@[simp] theorem State.sendData_nextSeq (s : State) (p tenant op : Nat) (dest a0 a1 a2 a3 : BitVec 64) (tag : Nat) : (s.sendData p tenant op dest a0 a1 a2 a3 tag).nextSeq = s.nextSeq := rfl
@[simp] theorem State.sendData_nextOp (s : State) (p tenant op : Nat) (dest a0 a1 a2 a3 : BitVec 64) (tag : Nat) : (s.sendData p tenant op dest a0 a1 a2 a3 tag).nextOp = s.nextOp := rfl
@[simp] theorem State.sendData_seed (s : State) (p tenant op : Nat) (dest a0 a1 a2 a3 : BitVec 64) (tag : Nat) : (s.sendData p tenant op dest a0 a1 a2 a3 tag).seed = s.seed := rfl
@[simp] theorem State.sendData_cur (s : State) (p tenant op : Nat) (dest a0 a1 a2 a3 : BitVec 64) (tag : Nat) : (s.sendData p tenant op dest a0 a1 a2 a3 tag).cur = s.cur := rfl
@[simp] theorem State.sendData_sweep (s : State) (p tenant op : Nat) (dest a0 a1 a2 a3 : BitVec 64) (tag : Nat) : (s.sendData p tenant op dest a0 a1 a2 a3 tag).sweep = s.sweep := rfl
@[simp] theorem State.sendData_inbox (s : State) (p tenant op : Nat) (dest a0 a1 a2 a3 : BitVec 64) (tag : Nat) : (s.sendData p tenant op dest a0 a1 a2 a3 tag).inbox = s.inbox := rfl

/-! ### addOp -/

@[simp] theorem State.addOp_now (s : State) (mk : Nat → Op) : ((s.addOp mk).1).now = s.now := rfl
@[simp] theorem State.addOp_mem (s : State) (mk : Nat → Op) : ((s.addOp mk).1).mem = s.mem := rfl
@[simp] theorem State.addOp_dev (s : State) (mk : Nat → Op) : ((s.addOp mk).1).dev = s.dev := rfl
@[simp] theorem State.addOp_cores (s : State) (mk : Nat → Op) : ((s.addOp mk).1).cores = s.cores := rfl
@[simp] theorem State.addOp_parts (s : State) (mk : Nat → Op) : ((s.addOp mk).1).parts = s.parts := rfl
@[simp] theorem State.addOp_gangs (s : State) (mk : Nat → Op) : ((s.addOp mk).1).gangs = s.gangs := rfl
@[simp] theorem State.addOp_tasks (s : State) (mk : Nat → Op) : ((s.addOp mk).1).tasks = s.tasks := rfl
@[simp] theorem State.addOp_ops (s : State) (mk : Nat → Op) : ((s.addOp mk).1).ops = s.ops ++ [mk s.nextOp] := rfl
@[simp] theorem State.addOp_subs (s : State) (mk : Nat → Op) : ((s.addOp mk).1).subs = s.subs := rfl
@[simp] theorem State.addOp_waiters (s : State) (mk : Nat → Op) : ((s.addOp mk).1).waiters = s.waiters := rfl
@[simp] theorem State.addOp_fifo (s : State) (mk : Nat → Op) : ((s.addOp mk).1).fifo = s.fifo := rfl
@[simp] theorem State.addOp_nextTask (s : State) (mk : Nat → Op) : ((s.addOp mk).1).nextTask = s.nextTask := rfl
@[simp] theorem State.addOp_nextSeq (s : State) (mk : Nat → Op) : ((s.addOp mk).1).nextSeq = s.nextSeq := rfl
@[simp] theorem State.addOp_nextOp (s : State) (mk : Nat → Op) : ((s.addOp mk).1).nextOp = s.nextOp + 1 := rfl
@[simp] theorem State.addOp_seed (s : State) (mk : Nat → Op) : ((s.addOp mk).1).seed = s.seed := rfl
@[simp] theorem State.addOp_cur (s : State) (mk : Nat → Op) : ((s.addOp mk).1).cur = s.cur := rfl
@[simp] theorem State.addOp_sweep (s : State) (mk : Nat → Op) : ((s.addOp mk).1).sweep = s.sweep := rfl
@[simp] theorem State.addOp_inbox (s : State) (mk : Nat → Op) : ((s.addOp mk).1).inbox = s.inbox := rfl
@[simp] theorem State.addOp_outbox (s : State) (mk : Nat → Op) : ((s.addOp mk).1).outbox = s.outbox := rfl

/-! ### free -/

@[simp] theorem State.free_now (s : State) : (s.free.2).now = s.now := rfl
@[simp] theorem State.free_mem (s : State) : (s.free.2).mem = s.mem := rfl
@[simp] theorem State.free_dev (s : State) : (s.free.2).dev = s.dev := rfl
@[simp] theorem State.free_cores (s : State) : (s.free.2).cores = s.cores := rfl
@[simp] theorem State.free_parts (s : State) : (s.free.2).parts = s.parts := rfl
@[simp] theorem State.free_gangs (s : State) : (s.free.2).gangs = s.gangs := rfl
@[simp] theorem State.free_tasks (s : State) : (s.free.2).tasks = s.tasks := rfl
@[simp] theorem State.free_ops (s : State) : (s.free.2).ops = s.ops := rfl
@[simp] theorem State.free_subs (s : State) : (s.free.2).subs = s.subs := rfl
@[simp] theorem State.free_waiters (s : State) : (s.free.2).waiters = s.waiters := rfl
@[simp] theorem State.free_fifo (s : State) : (s.free.2).fifo = s.fifo := rfl
@[simp] theorem State.free_nextTask (s : State) : (s.free.2).nextTask = s.nextTask := rfl
@[simp] theorem State.free_nextSeq (s : State) : (s.free.2).nextSeq = s.nextSeq := rfl
@[simp] theorem State.free_nextOp (s : State) : (s.free.2).nextOp = s.nextOp := rfl
@[simp] theorem State.free_seed (s : State) : (s.free.2).seed = s.seed + 1 := rfl
@[simp] theorem State.free_cur (s : State) : (s.free.2).cur = s.cur := rfl
@[simp] theorem State.free_sweep (s : State) : (s.free.2).sweep = s.sweep := rfl
@[simp] theorem State.free_inbox (s : State) : (s.free.2).inbox = s.inbox := rfl
@[simp] theorem State.free_outbox (s : State) : (s.free.2).outbox = s.outbox := rfl

/-! ### delay -/

@[simp] theorem State.delay_now (s : State) : (s.delay.2).now = s.now := rfl
@[simp] theorem State.delay_mem (s : State) : (s.delay.2).mem = s.mem := rfl
@[simp] theorem State.delay_dev (s : State) : (s.delay.2).dev = s.dev := rfl
@[simp] theorem State.delay_cores (s : State) : (s.delay.2).cores = s.cores := rfl
@[simp] theorem State.delay_parts (s : State) : (s.delay.2).parts = s.parts := rfl
@[simp] theorem State.delay_gangs (s : State) : (s.delay.2).gangs = s.gangs := rfl
@[simp] theorem State.delay_tasks (s : State) : (s.delay.2).tasks = s.tasks := rfl
@[simp] theorem State.delay_ops (s : State) : (s.delay.2).ops = s.ops := rfl
@[simp] theorem State.delay_subs (s : State) : (s.delay.2).subs = s.subs := rfl
@[simp] theorem State.delay_waiters (s : State) : (s.delay.2).waiters = s.waiters := rfl
@[simp] theorem State.delay_fifo (s : State) : (s.delay.2).fifo = s.fifo := rfl
@[simp] theorem State.delay_nextTask (s : State) : (s.delay.2).nextTask = s.nextTask := rfl
@[simp] theorem State.delay_nextSeq (s : State) : (s.delay.2).nextSeq = s.nextSeq := rfl
@[simp] theorem State.delay_nextOp (s : State) : (s.delay.2).nextOp = s.nextOp := rfl
@[simp] theorem State.delay_seed (s : State) : (s.delay.2).seed = s.seed + 1 := rfl
@[simp] theorem State.delay_cur (s : State) : (s.delay.2).cur = s.cur := rfl
@[simp] theorem State.delay_sweep (s : State) : (s.delay.2).sweep = s.sweep := rfl
@[simp] theorem State.delay_inbox (s : State) : (s.delay.2).inbox = s.inbox := rfl
@[simp] theorem State.delay_outbox (s : State) : (s.delay.2).outbox = s.outbox := rfl

/-! ### freeLanes -/

@[simp] theorem State.freeLanes_now (s : State) : (s.freeLanes.2).now = s.now := rfl
@[simp] theorem State.freeLanes_mem (s : State) : (s.freeLanes.2).mem = s.mem := rfl
@[simp] theorem State.freeLanes_dev (s : State) : (s.freeLanes.2).dev = s.dev := rfl
@[simp] theorem State.freeLanes_cores (s : State) : (s.freeLanes.2).cores = s.cores := rfl
@[simp] theorem State.freeLanes_parts (s : State) : (s.freeLanes.2).parts = s.parts := rfl
@[simp] theorem State.freeLanes_gangs (s : State) : (s.freeLanes.2).gangs = s.gangs := rfl
@[simp] theorem State.freeLanes_tasks (s : State) : (s.freeLanes.2).tasks = s.tasks := rfl
@[simp] theorem State.freeLanes_ops (s : State) : (s.freeLanes.2).ops = s.ops := rfl
@[simp] theorem State.freeLanes_subs (s : State) : (s.freeLanes.2).subs = s.subs := rfl
@[simp] theorem State.freeLanes_waiters (s : State) : (s.freeLanes.2).waiters = s.waiters := rfl
@[simp] theorem State.freeLanes_fifo (s : State) : (s.freeLanes.2).fifo = s.fifo := rfl
@[simp] theorem State.freeLanes_nextTask (s : State) : (s.freeLanes.2).nextTask = s.nextTask := rfl
@[simp] theorem State.freeLanes_nextSeq (s : State) : (s.freeLanes.2).nextSeq = s.nextSeq := rfl
@[simp] theorem State.freeLanes_nextOp (s : State) : (s.freeLanes.2).nextOp = s.nextOp := rfl
@[simp] theorem State.freeLanes_seed (s : State) : (s.freeLanes.2).seed = s.seed + 32 := rfl
@[simp] theorem State.freeLanes_cur (s : State) : (s.freeLanes.2).cur = s.cur := rfl
@[simp] theorem State.freeLanes_sweep (s : State) : (s.freeLanes.2).sweep = s.sweep := rfl
@[simp] theorem State.freeLanes_inbox (s : State) : (s.freeLanes.2).inbox = s.inbox := rfl
@[simp] theorem State.freeLanes_outbox (s : State) : (s.freeLanes.2).outbox = s.outbox := rfl

@[simp] theorem State.addOp_num (s : State) (mk : Nat → Op) : (s.addOp mk).2 = s.nextOp := rfl
@[simp] theorem State.free_fst (s : State) : s.free.1 = Config.freeValue s.seed := rfl
@[simp] theorem State.delay_fst (s : State) : s.delay.1 = Config.freeDelay s.seed := rfl

end Sys2Proof.Machine
end

