-- ==== Sys2Proof/Tests/Slice0.lean ====
section
/-! SUPPORT. Named tests: words written out from the encoding tables of the spec decode to the instructions they stand for;
each check of well-formedness refuses an ill-formed term; and for each obligation a concrete state and operands that meet
the hypotheses of its clauses. -/

set_option maxRecDepth 100000

namespace Sys2Proof

open Sys2Proof.Machine Sys2Proof.Says

/-- A word's tail with no guard, no tag and no gap. -/
abbrev t0 : Tail := { gn := false, gp := 7, sba := 0, sbw := 0, gap := 0, yld := false }

/-- The same tail under predicate 0. -/
abbrev t1 : Tail := { gn := false, gp := 0, sba := 0, sbw := 0, gap := 0, yld := false }

theorem test_decode_control_1 :
    decodeWord 0x0000000000071E90 = .ok (.nop { t0 with sbw := 122, gap := 2 }) ∧
    decodeWord 0x0100000000070004 = .ok (.exit { t0 with yld := true }) ∧
    decodeWord 0x02A3FFFFFF900000 = .ok (.pbt { t0 with gp := 0 } 5 1073741817) ∧
    decodeWord 0x030346C0000712C0 = .ok (.pbtr { t0 with sbw := 75 } 6 27) ∧
    decodeWord 0x0474000000080003 = .ok (.xfer { t0 with gn := true, gp := 0 } 3 5 true true) ∧
    decodeWord 0x04C0000000070006 = .ok (.xfer { t0 with yld := true } 6 0 true false) ∧
    decodeWord 0x0552800000010000 = .ok (.btinv { t0 with gp := 1 } 165) ∧
    decodeWord 0x060300C000070004 = .ok (.btmov { t0 with yld := true } 6 3) ∧
    decodeWord 0x070042664007C000 = .ok (.icinv { t0 with sba := 6 } 9 50) ∧
    decodeWord 0x0800003FFFDC0000 = .ok (.yield { t0 with gn := true, gp := 4 } .none 262141) := by
  decide

theorem test_decode_control_2 :
    decodeWord 0x08004A4000C10001 = .ok (.yield { t0 with gp := 1 } (.barrier 41) 12) ∧
    decodeWord 0x0B46802000576000 = .ok (.movi { t0 with sba := 3 } (.n 13) 131077) ∧
    decodeWord 0x0B8A800004D70000 = .ok (.movi t0 (.g 21 false) 77) ∧
    decodeWord 0x0C4F6F56DF77D097 = .ok (.movw { t0 with gn := true, gp := 2, sbw := 9, gap := 3, yld := true } (.n 30) 3735928559) ∧
    decodeWord 0x0CB0891A2B3C3800 = .ok (.movw t0 (.g 33 true) 305419896) ∧
    decodeWord 0x0D42000290070004 = .ok (.spill { t0 with yld := true } 4 true 9) ∧
    decodeWord 0x0E440000BC97A000 = .ok (.stage { t0 with sba := 5 } 8 11 201) := by
  decide

theorem test_decode_integer_1 :
    decodeWord 0x10D4E950800C0000 = .ok (.iadd { t0 with gn := true, gp := 4 } (.wq 1 false) (.fifo 1 true) (.src (.n 4 false))) ∧
    decodeWord 0x10D7E76E48578001 = .ok (.iadd { t0 with sba := 4 } (.wq 3 true) (.const 29) (.imm 189573)) ∧
    decodeWord 0x11D4E9AF20070810 = .ok (.isub { t0 with sbw := 32, gap := 2 } (.wq 1 false) (.fifo 2 true) (.src (.g 57 true))) ∧
    decodeWord 0x110003F5FA380001 = .ok (.isub { t0 with gn := true, gp := 0 } .push (.q 15) (.imm 221091)) ∧
    decodeWord 0x12D76BB460050000 = .ok (.imul { t0 with gp := 5 } (.wq 2 true) (.wq 2 true) (.src (.fifo 3 false))) ∧
    decodeWord 0x12D46BA46DAA0001 = .ok (.imul { t0 with gn := true, gp := 2 } (.wq 0 false) (.wq 2 true) (.imm 149210)) ∧
    decodeWord 0x13D565B480070004 = .ok (.imulh { t0 with yld := true } false (.wq 2 false) (.const 22) (.src (.fifo 0 true))) ∧
    decodeWord 0x1300833F8D890003 = .ok (.imulh { t0 with gn := true, gp := 1 } true .discard (.q 12) (.imm 260312)) ∧
    decodeWord 0x1500D475E0090002 = .ok (.imin { t0 with gn := true, gp := 1 } true .discard (.g 17 true) (.src (.wq 3 true))) ∧
    decodeWord 0x1542811DDDF70005 = .ok (.imin { t0 with yld := true } false (.n 5) (.q 4) (.imm 122335)) := by
  decide

theorem test_decode_integer_2 :
    decodeWord 0x1600327440030002 = .ok (.imax { t0 with gp := 3 } true .push (.n 9 true) (.src (.fifo 2 false))) ∧
    decodeWord 0x160061B341BB0003 = .ok (.imax { t0 with gn := true, gp := 3 } true .push (.const 6) (.imm 209947)) ∧
    decodeWord 0x144E00E0C8910000 = .ok (.imad { t0 with gp := 1 } (.n 28) (.q 3) (.g 6 false) (.n 9 false)) ∧
    decodeWord 0x1746E8C0000713C0 = .ok (.iabs { t0 with sbw := 79 } (.n 13) (.fifo 3 false)) ∧
    decodeWord 0x18D731F3C0071EE8 = .ok (.and { t0 with sbw := 123, gap := 5 } (.wq 2 true) (.n 7 true) (.src (.const 30))) ∧
    decodeWord 0x1844B57D43770005 = .ok (.and { t0 with yld := true } (.n 9) (.n 21 true) (.imm 250935)) ∧
    decodeWord 0x194B80370007A000 = .ok (.or { t0 with sba := 5 } (.n 23) (.q 0) (.src (.special .slot))) ∧
    decodeWord 0x19D702DC84771F89 = .ok (.or { t0 with sbw := 126, gap := 1 } (.wq 2 true) (.q 11) (.imm 116807)) ∧
    decodeWord 0x1AD4EDB520071498 = .ok (.xor { t0 with sbw := 82, gap := 3 } (.wq 1 false) (.special .clk) (.src (.wq 1 false))) ∧
    decodeWord 0x1A00B07C72570005 = .ok (.xor { t0 with yld := true } .discard (.n 1 true) (.imm 247589)) := by
  decide

theorem test_decode_integer_3 :
    decodeWord 0x1B006D4000070668 = .ok (.not { t0 with sbw := 25, gap := 5 } .push (.special .grove)) := by
  decide

theorem test_decode_bits_1 :
    decodeWord 0x204F0281E00702D8 = .ok (.shl { t0 with sbw := 11, gap := 3 } (.n 30) (.q 10) (.src (.q 15))) ∧
    decodeWord 0x20D4633D302B0001 = .ok (.shl { t0 with gn := true, gp := 3 } (.wq 0 false) (.const 12) (.imm 250626)) ∧
    decodeWord 0x21D56DB320078000 = .ok (.shr { t0 with sba := 4 } (.wq 2 false) (.special .clk) (.src (.const 25))) ∧
    decodeWord 0x21408392B5D50001 = .ok (.shr { t0 with gp := 5 } (.n 1) (.q 14) (.imm 76637)) ∧
    decodeWord 0x22D56850C0070004 = .ok (.sar { t0 with yld := true } (.wq 2 false) (.fifo 1 false) (.src (.n 6 false))) ∧
    decodeWord 0x2240D6DEC9F70005 = .ok (.sar { t0 with yld := true } (.n 1) (.g 27 true) (.imm 126111)) ∧
    decodeWord 0x234B66B7000708B0 = .ok (.rot { t0 with sbw := 34, gap := 6 } (.n 22) (.const 26) (.src (.special .slot))) ∧
    decodeWord 0x2300E9177017A001 = .ok (.rot { t0 with sba := 5 } .discard (.fifo 0 true) (.imm 96001)) ∧
    decodeWord 0x2444E1C01A460002 = .ok (.bfx { t0 with gp := 6 } true (.n 9) (.const 7) (.fifo 0 true)) ∧
    decodeWord 0x254181A0BA370004 = .ok (.bfi { t0 with yld := true } (.n 3) (.q 6) (.g 5 false) (.fifo 3 false)) := by
  decide

theorem test_decode_bits_2 :
    decodeWord 0x2900E973DA5B0000 = .ok (.sel { t0 with gn := true, gp := 3 } .discard (.fifo 1 true) (.const 30) (.fifo 1 true)) ∧
    decodeWord 0x260003400007E000 = .ok (.popc { t0 with sba := 7 } .push (.q 13)) ∧
    decodeWord 0x270033C0000B0000 = .ok (.clz { t0 with gn := true, gp := 3 } .push (.n 15 true)) ∧
    decodeWord 0x2844EA8000090000 = .ok (.brev { t0 with gn := true, gp := 1 } (.n 9) (.wq 2 false)) ∧
    decodeWord 0x2A0000C000071C90 = .ok (.mov { t0 with sbw := 114, gap := 2 } .push (.q 3)) ∧
    decodeWord 0x2B0001C1BA770004 = .ok (.lea { t0 with yld := true } .push (.q 7) (.src (.q 13) (.fifo 3 true))) ∧
    decodeWord 0x2B4B52C27E670005 = .ok (.lea { t0 with yld := true } (.n 22) (.g 11 true) (.imm 10214)) ∧
    decodeWord 0x229C41E1000711F8 = .ok (.sar { t0 with sbw := 71, gap := 7 } (.g 56 false) (.g 7 false) (.src (.g 8 false))) ∧
    decodeWord 0x1498C1F113F70000 = .ok (.imad t0 (.g 49 false) (.g 7 false) (.const 8) (.g 63 false)) := by
  decide

theorem test_decode_predicates_1 :
    decodeWord 0x1CFAA18060E710E0 = .ok (.icmp { t0 with sbw := 67, gap := 4 } 6 true 5 (.n 6 false) (.q 3)) ∧
    decodeWord 0x1CF832F6403A0000 = .ok (.icmp { t0 with gn := true, gp := 2 } 3 false 0 (.n 11 true) (.special .gang)) ∧
    decodeWord 0x1DF9ED3123570004 = .ok (.fcmp { t0 with yld := true } 5 2 true 3 (.special .core) (.const 9)) ∧
    decodeWord 0x1DFB42E0E0F70004 = .ok (.fcmp { t0 with yld := true } 7 1 false 6 (.g 11 false) (.g 7 false)) ∧
    decodeWord 0x1EF90300E0678000 = .ok (.plog { t0 with sba := 4 } 6 2 true 4 false 7) ∧
    decodeWord 0x1F48800000020000 = .ok (.pmovR { t0 with gp := 2 } (.n 17)) ∧
    decodeWord 0x1F00A380001E0000 = .ok (.pmovW { t0 with gn := true, gp := 6 } (.n 14 false)) := by
  decide

theorem test_decode_crosslane_1 :
    decodeWord 0x2CFB814000071BC8 = .ok (.voteAnd { t0 with sbw := 111, gap := 1 } 7 false 5) ∧
    decodeWord 0x2CFA000000170004 = .ok (.voteOr { t0 with yld := true } 4 false 0) ∧
    decodeWord 0x2CF9020000272000 = .ok (.votePar { t0 with sba := 1 } 2 true 0) ∧
    decodeWord 0x2C00810000374000 = .ok (.voteMask { t0 with sba := 2 } .discard false 4) ∧
    decodeWord 0x2C00020000470004 = .ok (.voteCnt { t0 with yld := true } .push true 0) ∧
    decodeWord 0x2C0081C000570140 = .ok (.voteLead { t0 with sbw := 5 } .discard false 7) ∧
    decodeWord 0x2D4DEBF440878000 = .ok (.shflSel { t0 with sba := 4 } false (.n 27) (.wq 3 true) (.src (.fifo 2 false)) 2) ∧
    decodeWord 0x2D00EB401007E003 = .ok (.shflSel { t0 with sba := 7 } true .discard (.wq 1 true) (.imm 8) 0) ∧
    decodeWord 0x2D00005B01580000 = .ok (.shflRot { t0 with gn := true, gp := 0 } false .push (.q 1) (.src (.n 24 true)) 5) ∧
    decodeWord 0x2D454E402A9701BB = .ok (.shflRot { t0 with sbw := 6, gap := 7 } true (.n 10) (.g 57 false) (.imm 21) 2) := by
  decide

theorem test_decode_crosslane_2 :
    decodeWord 0x2D0002C000E70802 = .ok (.shflRev { t0 with sbw := 32 } true .push (.q 11) (.src (.q 0)) 3) ∧
    decodeWord 0x2D00EA40202B0001 = .ok (.shflRev { t0 with gn := true, gp := 3 } false .discard (.wq 1 false) (.imm 16) 0) ∧
    decodeWord 0x2D00A664C1390000 = .ok (.shflXor { t0 with gn := true, gp := 1 } false .discard (.n 25 false) (.src (.g 38 false)) 4) ∧
    decodeWord 0x2D00EE403EB7C003 = .ok (.shflXor { t0 with sba := 6 } true .discard (.special .mask) (.imm 31) 2) ∧
    decodeWord 0x2E00E87100076000 = .ok (.bcast { t0 with sba := 3 } .discard (.fifo 1 false) (.const 8)) := by
  decide

theorem test_decode_floatF32_1 :
    decodeWord 0x3040B21B00060000 = .ok (.faddF32 { t0 with gp := 6 } 0 false (.n 1) (.n 8 true) (.n 24 true)) ∧
    decodeWord 0x3100277500178000 = .ok (.fsubF32 { t0 with sba := 4 } 0 true .push (.n 29 false) (.wq 0 false)) ∧
    decodeWord 0x32000181C0171A08 = .ok (.fmulF32 { t0 with sbw := 104, gap := 1 } 0 true .push (.q 6) (.q 14)) ∧
    decodeWord 0x334F6AB43A570006 = .ok (.ffmaF32 { t0 with yld := true } 2 (.n 30) (.wq 2 false) (.fifo 1 false) (.fifo 1 true)) ∧
    decodeWord 0x344F37F500071410 = .ok (.fminF32 { t0 with sbw := 80, gap := 2 } (.n 30) (.n 31 true) (.wq 0 false)) ∧
    decodeWord 0x35006BB3A0070004 = .ok (.fmaxF32 { t0 with yld := true } .push (.wq 2 true) (.const 29)) ∧
    decodeWord 0x3600278000040002 = .ok (.frcpF32 { t0 with gp := 4 } 2 .push (.n 30 false)) ∧
    decodeWord 0x364E4C4000170005 = .ok (.frsqF32 { t0 with yld := true } 1 (.n 28) (.g 49 false)) ∧
    decodeWord 0x3648540000240000 = .ok (.fsqrtF32 { t0 with gp := 4 } 0 (.n 16) (.g 16 true)) ∧
    decodeWord 0x36006040003707B9 = .ok (.fexp2F32 { t0 with sbw := 30, gap := 7 } 1 .push (.const 1)) := by
  decide

theorem test_decode_floatF32_2 :
    decodeWord 0x36005480004B0002 = .ok (.flog2F32 { t0 with gn := true, gp := 3 } 2 .push (.g 18 true)) ∧
    decodeWord 0x3600254000570006 = .ok (.fsinF32 { t0 with yld := true } 2 .push (.n 21 false)) ∧
    decodeWord 0x36466B0000671B32 = .ok (.fcosF32 { t0 with sbw := 108, gap := 6 } 2 (.n 12) (.wq 0 true)) ∧
    decodeWord 0x37006E4000070270 = .ok (.fclassF32 { t0 with sbw := 9, gap := 6 } .push (.special .mask)) := by
  decide

theorem test_decode_floatF16X2_1 :
    decodeWord 0x40006C21A01A0000 = .ok (.faddF16X2 { t0 with gn := true, gp := 2 } 0 true .push (.special .lane) (.g 13 false)) ∧
    decodeWord 0x4100650160174000 = .ok (.fsubF16X2 { t0 with sba := 2 } 0 true .push (.const 20) (.q 11)) ∧
    decodeWord 0x4200E85B400E0002 = .ok (.fmulF16X2 { t0 with gn := true, gp := 6 } 2 false .discard (.fifo 1 false) (.n 26 true)) ∧
    decodeWord 0x434403F2B6670006 = .ok (.ffmaF16X2 { t0 with yld := true } 2 (.n 8) (.q 15) (.const 21) (.g 38 true)) ∧
    decodeWord 0x4400827320070004 = .ok (.fminF16X2 { t0 with yld := true } .discard (.q 9) (.const 25)) ∧
    decodeWord 0x4546E8F2A0010000 = .ok (.fmaxF16X2 { t0 with gp := 1 } (.n 13) (.fifo 3 false) (.const 21)) ∧
    decodeWord 0x4600018000070005 = .ok (.frcpF16X2 { t0 with yld := true } 1 .push (.q 6)) ∧
    decodeWord 0x4600A50000190002 = .ok (.frsqF16X2 { t0 with gn := true, gp := 1 } 2 .discard (.n 20 false)) ∧
    decodeWord 0x464D668000271A19 = .ok (.fsqrtF16X2 { t0 with sbw := 104, gap := 3 } 1 (.n 26) (.const 26)) ∧
    decodeWord 0x460051C000370006 = .ok (.fexp2F16X2 { t0 with yld := true } 2 .push (.g 7 true)) := by
  decide

theorem test_decode_floatF16X2_2 :
    decodeWord 0x464883000047045B = .ok (.flog2F16X2 { t0 with sbw := 17, gap := 3 } 3 (.n 17) (.q 12)) ∧
    decodeWord 0x4600408000570004 = .ok (.fsinF16X2 { t0 with yld := true } 0 .push (.g 2 false)) ∧
    decodeWord 0x4600EDC000670007 = .ok (.fcosF16X2 { t0 with yld := true } 3 .discard (.special .clkh)) ∧
    decodeWord 0x4700EDC000080000 = .ok (.fclassF16X2 { t0 with gn := true, gp := 0 } .discard (.special .clkh)) := by
  decide

theorem test_decode_floatBF16X2_1 :
    decodeWord 0x4843010060170004 = .ok (.faddBF16X2 { t0 with yld := true } 0 true (.n 6) (.q 4) (.q 3)) ∧
    decodeWord 0x4944007540140000 = .ok (.fsubBF16X2 { t0 with gp := 4 } 0 true (.n 8) (.q 1) (.wq 2 false)) ∧
    decodeWord 0x4A00EC5880070007 = .ok (.fmulBF16X2 { t0 with yld := true } 3 false .discard (.special .tk) (.n 4 true)) ∧
    decodeWord 0x4B49E46BFA170740 = .ok (.ffmaBF16X2 { t0 with sbw := 29 } 0 (.n 19) (.const 17) (.g 31 true) (.fifo 1 false)) ∧
    decodeWord 0x4C00EA9980070004 = .ok (.fminBF16X2 { t0 with yld := true } .discard (.wq 2 false) (.n 12 true)) ∧
    decodeWord 0x4D48036BA0070004 = .ok (.fmaxBF16X2 { t0 with yld := true } (.n 16) (.q 13) (.g 29 true)) ∧
    decodeWord 0x4E00E5C0000D0003 = .ok (.frcpBF16X2 { t0 with gn := true, gp := 5 } 3 .discard (.const 23)) ∧
    decodeWord 0x4E006A0000172003 = .ok (.frsqBF16X2 { t0 with sba := 1 } 3 .push (.wq 0 false)) ∧
    decodeWord 0x4E47638000276002 = .ok (.fsqrtBF16X2 { t0 with sba := 3 } 2 (.n 14) (.const 14)) ∧
    decodeWord 0x4E0081C0003703BB = .ok (.fexp2BF16X2 { t0 with sbw := 14, gap := 7 } 3 .discard (.q 7)) := by
  decide

theorem test_decode_floatBF16X2_2 :
    decodeWord 0x4E00B24000470004 = .ok (.flog2BF16X2 { t0 with yld := true } 0 .discard (.n 9 true)) ∧
    decodeWord 0x4E00834000572000 = .ok (.fsinBF16X2 { t0 with sba := 1 } 0 .discard (.q 13)) ∧
    decodeWord 0x4E006A8000690000 = .ok (.fcosBF16X2 { t0 with gn := true, gp := 1 } 0 .push (.wq 2 false)) ∧
    decodeWord 0x4F45EAC000076000 = .ok (.fclassBF16X2 { t0 with sba := 3 } (.n 11) (.wq 3 false)) := by
  decide

theorem test_decode_double_1 :
    decodeWord 0x3E000000000715B0 = .ok (.flagsRd { t0 with sbw := 86, gap := 6 } .push) ∧
    decodeWord 0x3F00000001570E50 = .ok (.flagsClr { t0 with sbw := 57, gap := 2 } 21) ∧
    decodeWord 0x500025B0E0000002 = .ok (.dadd { t0 with gp := 0 } 2 false .push (.n 22 false) (.const 7)) ∧
    decodeWord 0x51004DD040078003 = .ok (.dmul { t0 with sba := 4 } 3 false .push (.g 55 false) (.n 2 false)) ∧
    decodeWord 0x504B6325C0170004 = .ok (.dadd { t0 with yld := true } 0 true (.n 22) (.const 12) (.g 46 false)) ∧
    decodeWord 0x524D031309C70005 = .ok (.dfma { t0 with yld := true } 1 (.n 26) (.q 12) (.n 24 false) (.n 28 false)) ∧
    decodeWord 0x530000A5C0060000 = .ok (.dmin { t0 with gp := 6 } .push (.q 2) (.g 46 false)) ∧
    decodeWord 0x540048E000070AC0 = .ok (.dmax { t0 with sbw := 43 } .push (.g 35 false) (.g 0 false)) := by
  decide

theorem test_decode_convert_1 :
    decodeWord 0x584F6BC005000003 = .ok (.cvt { t0 with gp := 0 } 3 0 2 1 (.n 30) (.wq 3 true)) ∧
    decodeWord 0x580003C002B71D70 = .ok (.cvt { t0 with sbw := 117, gap := 6 } 0 3 5 0 .push (.q 15)) ∧
    decodeWord 0x5800C4C000672000 = .ok (.cvt { t0 with sba := 1 } 0 6 0 0 .discard (.g 19 false)) ∧
    decodeWord 0x590042B140071BE8 = .ok (.pack4N4 { t0 with sbw := 111, gap := 5 } .push (.g 10 false) (.const 10)) ∧
    decodeWord 0x5A41650000078000 = .ok (.unpk4N4 { t0 with sba := 4 } false (.n 2) (.const 20)) ∧
    decodeWord 0x5942429B40170004 = .ok (.pack4B8 { t0 with yld := true } (.n 4) (.g 10 false) (.n 26 true)) ∧
    decodeWord 0x5A47034000570004 = .ok (.unpk4B8 { t0 with yld := true } true (.n 14) (.q 13)) ∧
    decodeWord 0x5900EC768027C000 = .ok (.pack4H16 { t0 with sba := 6 } .discard (.special .tk) (.special .core)) ∧
    decodeWord 0x5A00484000670920 = .ok (.unpk4H16 { t0 with sbw := 36, gap := 4 } true .push (.g 33 false)) ∧
    decodeWord 0x5B47824140074002 = .ok (.rngCb { t0 with sba := 2 } 2 (.n 15) (.q 9) (.q 10)) := by
  decide

theorem test_decode_convert_2 :
    decodeWord 0x5C476B00168B0000 = .ok (.vtopk { t0 with gn := true, gp := 3 } 5 2 true false (.n 14) (.wq 0 true)) := by
  decide

theorem test_decode_memory_1 :
    decodeWord 0x6097B4900CF00000 = .ok (.ldg { t0 with gp := 0 } { sx := false, scope := 0, kind := 0, size := 3 } (.g 47 false) 3 (.n 18 false) 15) ∧
    decodeWord 0x61446D9640010000 = .ok (.stg { t0 with gp := 1 } { sx := false, scope := 4, kind := 1, size := 0 } 6 (.special .gang) (.const 16) 0) ∧
    decodeWord 0x6289066C044D0000 = .ok (.ldp { t0 with gn := true, gp := 5 } { sx := true, scope := 0, kind := 0, size := 1 } (.g 18 false) (.n 13 true) 4) ∧
    decodeWord 0x63340D5689A7E000 = .ok (.stp { t0 with sba := 7 } { sx := false, scope := 3, kind := 1, size := 0 } (.wq 2 false) (.fifo 2 false) 26) ∧
    decodeWord 0x604C44C830BE0000 = .ok (.ldg { t0 with gn := true, gp := 6 } { sx := false, scope := 0, kind := 1, size := 4 } (.n 24) 4 (.n 25 false) 11) ∧
    decodeWord 0x61255D734F578000 = .ok (.stg { t0 with sba := 4 } { sx := false, scope := 2, kind := 1, size := 2 } 5 (.wq 2 true) (.n 19 true) 53) ∧
    decodeWord 0x62998002A3770004 = .ok (.ldp { t0 with yld := true } { sx := false, scope := 5, kind := 1, size := 0 } (.g 51 false) (.q 0) 55) ∧
    decodeWord 0x63000CBE29078000 = .ok (.stp { t0 with sba := 4 } { sx := false, scope := 0, kind := 0, size := 0 } (.const 23) (.const 10) 16) ∧
    decodeWord 0x64485D5E8A100000 = .ok (.stN4 { t0 with gp := 0 } { sp := false, scope := 4, kind := 2 } 5 (.wq 3 false) (.fifo 2 false) 33) ∧
    decodeWord 0x648008A318776000 = .ok (.stN4 { t0 with sba := 3 } { sp := true, scope := 0, kind := 0 } 0 (.g 20 false) (.n 6 true) 7) := by
  decide

theorem test_decode_memory_2 :
    decodeWord 0x6500FD9803C70004 = .ok (.pref { t0 with yld := true } true 7 (.special .octant) 60) ∧
    decodeWord 0x6602CF4000070440 = .ok (.tbind { t0 with sbw := 17 } 5 61) ∧
    decodeWord 0x67630000000701F0 = .ok (.tinv { t0 with sbw := 7, gap := 6 } 198) ∧
    decodeWord 0x684C83C000050000 = .ok (.ptag { t0 with gp := 5 } (.n 25) (.q 15)) ∧
    decodeWord 0x694600400007A000 = .ok (.ptset { t0 with sba := 5 } (.n 12) (.q 1)) ∧
    decodeWord 0x6A4C43C000070004 = .ok (.ptinv { t0 with yld := true } (.n 24) (.g 15 false)) ∧
    decodeWord 0x6B00416533174000 = .ok (.rbind { t0 with sba := 2 } (.g 5 false) (.g 41 false) (.g 49 false)) := by
  decide

theorem test_decode_atomics_1 :
    decodeWord 0x8347662730070006 = .ok (.atomAdd { t0 with yld := true } { sp := true, w64 := true, kind := 2, treg := 0, scope := 4 } (.n 14) (.const 24) (.g 57 false)) ∧
    decodeWord 0x804E03B733970004 = .ok (.atomMin { t0 with yld := true } { sp := false, w64 := false, kind := 0, treg := 7, scope := 4 } (.n 28) (.q 14) (.special .mask)) ∧
    decodeWord 0x81445DD380A70007 = .ok (.atomMax { t0 with yld := true } { sp := false, w64 := true, kind := 3, treg := 1, scope := 0 } (.n 8) (.g 55 true) (.n 28 false)) ∧
    decodeWord 0x8144210083300000 = .ok (.atomAnd { t0 with gp := 0 } { sp := false, w64 := true, kind := 0, treg := 6, scope := 0 } (.n 8) (.n 4 false) (.q 4)) ∧
    decodeWord 0x824B68AC60470005 = .ok (.atomOr { t0 with yld := true } { sp := true, w64 := false, kind := 1, treg := 0, scope := 0 } (.n 22) (.fifo 2 false) (.g 35 true)) ∧
    decodeWord 0x82474BC0B0576002 = .ok (.atomXor { t0 with sba := 3 } { sp := true, w64 := false, kind := 2, treg := 0, scope := 4 } (.n 14) (.g 47 false) (.q 5)) ∧
    decodeWord 0x814830F0CD670006 = .ok (.atomXchg { t0 with yld := true } { sp := false, w64 := true, kind := 2, treg := 2, scope := 3 } (.n 16) (.n 3 true) (.const 6)) ∧
    decodeWord 0x83444A9388771173 = .ok (.atomCas { t0 with sbw := 69, gap := 6 } { sp := true, w64 := true, kind := 3, treg := 0, scope := 2 } (.n 8) (.g 42 false) (.n 28 false)) ∧
    decodeWord 0x8000EB370F47A002 = .ok (.red { t0 with sba := 5 } { sp := false, w64 := false, kind := 2, treg := 6, scope := 3 } 4 (.wq 0 true) (.special .slot)) := by
  decide

theorem test_decode_ordering_1 :
    decodeWord 0x8400000000570A28 = .ok (.fence { t0 with sbw := 40, gap := 5 } 5) ∧
    decodeWord 0x8400000000C50000 = .ok (.fenceSc { t0 with gp := 5 } 4) ∧
    decodeWord 0x8500000000174000 = .ok (.pfenceSp { t0 with sba := 2 }) ∧
    decodeWord 0x85000000002713F0 = .ok (.pfenceGl { t0 with sbw := 79, gap := 6 }) ∧
    decodeWord 0x8500000000370004 = .ok (.pfenceAll { t0 with yld := true }) ∧
    decodeWord 0x864F414000071CC0 = .ok (.acqE { t0 with sbw := 115 } (.n 30) (.g 5 false)) ∧
    decodeWord 0x870064C000000000 = .ok (.relE { t0 with gp := 0 } (.const 19)) ∧
    decodeWord 0x88000000000C0000 = .ok (.barg { t0 with gn := true, gp := 4 }) ∧
    decodeWord 0x89006225D8A78000 = .ok (.abinit { t0 with sba := 4 } (.const 8) (.g 46 false) (.const 10)) ∧
    decodeWord 0x8A0044F0C0072000 = .ok (.abexp { t0 with sba := 1 } (.g 19 false) (.const 6)) := by
  decide

theorem test_decode_ordering_2 :
    decodeWord 0x8B00667000050000 = .ok (.abarr { t0 with gp := 5 } (.const 25) (.const 0)) ∧
    decodeWord 0x8C0067E2A00D0000 = .ok (.abwait { t0 with gn := true, gp := 5 } (.const 31) (.g 21 false)) ∧
    decodeWord 0x8D004D201FB00000 = .ok (.subl { t0 with gp := 0 } 4 (.fifo 0 true) (.q 7) 59) ∧
    decodeWord 0x8E006C4000072000 = .ok (.unsub { t0 with sba := 1 } (.special .tk)) ∧
    decodeWord 0x8F4D037720040000 = .ok (.slwait { t0 with gp := 4 } (.n 26) (.q 13) (.special .mask)) ∧
    decodeWord 0x950061306027A000 = .ok (.fset { t0 with sba := 5 } true false (.const 4) (.const 3)) ∧
    decodeWord 0x9600CC0000170004 = .ok (.fget { t0 with yld := true } false true .discard (.g 48 false)) ∧
    decodeWord 0x9701E17160070004 = .ok (.qcfg { t0 with yld := true } 3 (.const 5) (.const 11)) := by
  decide

theorem test_decode_tiles_1 :
    decodeWord 0xA009E38000072000 = .ok (.xshape { t0 with sba := 1 } 19 (.const 14)) ∧
    decodeWord 0xA154000940080000 = .ok (.xld { t0 with gn := true, gp := 0 } 21 37) ∧
    decodeWord 0xA201600980071700 = .ok (.xst { t0 with sbw := 92 } 22 38) ∧
    decodeWord 0xA37C0000000714B0 = .ok (.xzero { t0 with sbw := 82, gap := 6 } 31) ∧
    decodeWord 0xA415A02000070998 = .ok (.xmov { t0 with sbw := 38, gap := 3 } 5 26 true) ∧
    decodeWord 0xA5AC000000040000 = .ok (.yzero { t0 with gp := 4 } 11) ∧
    decodeWord 0xA69C000F00176000 = .ok (.yld { t0 with sba := 3 } 7 60 true) ∧
    decodeWord 0xA702800F4007E000 = .ok (.yst { t0 with sba := 7 } 8 61 false) ∧
    decodeWord 0xA8B497AA00074000 = .ok (.mma { t0 with sba := 2 } 5 13 9 30 true false) ∧
    decodeWord 0xA9C8CAE690070670 = .ok (.mloop { t0 with sbw := 25, gap := 6 } { p := 50, abs := 3 } { x := 12, sg := 5, yd := 9, var := 2, pair := 4, xa := true, xb := false }) := by
  decide

theorem test_decode_tiles_2 :
    decodeWord 0xAA8EE50000171358 = .ok (.ycvt { t0 with sbw := 77, gap := 3 } 3 14 20 true) ∧
    decodeWord 0xAB92254000070004 = .ok (.ysca { t0 with yld := true } 4 2 21 false) ∧
    decodeWord 0xAC96100000170004 = .ok (.yred { t0 with yld := true } 5 1 true) ∧
    decodeWord 0xAD02600000070004 = .ok (.mwait { t0 with yld := true } 6) ∧
    decodeWord 0xAE02A00012C60000 = .ok (.yevtRd { t0 with gp := 6 } (.g 44 false) 10) ∧
    decodeWord 0xAE02C00D8007A000 = .ok (.yevtClr { t0 with sba := 5 } 12 22) ∧
    decodeWord 0xAF00610000071998 = .ok (.leave { t0 with sbw := 102, gap := 3 } (.const 4)) := by
  decide

theorem test_decode_streams_1 :
    decodeWord 0xC00140E1B2C74000 = .ok (.sdef { t0 with sba := 2 } 2 (.g 3 false) (.g 13 false) (.g 44 false)) ∧
    decodeWord 0xC100C0C00007C000 = .ok (.sstart { t0 with sba := 6 } 1 (.g 3 false)) ∧
    decodeWord 0xC28280C000010000 = .ok (.sstop { t0 with gp := 1 } (.g 5 false) 3) ∧
    decodeWord 0xC3426D91F1AE0001 = .ok (.isect { t0 with gn := true, gp := 6 } true (.n 4) (.special .clk) (.n 15 false) 26) ∧
    decodeWord 0xC4D001C000100000 = .ok (.mrgk { t0 with gp := 0 } { p := 52, abs := 7 } true) ∧
    decodeWord 0xE0EC0100000E0000 = .ok (.cpyt { t0 with gn := true, gp := 6 } { p := 59, abs := 4 }) ∧
    decodeWord 0xE1E4014000070004 = .ok (.shuf { t0 with yld := true } { p := 57, abs := 5 }) ∧
    decodeWord 0xE2004972A0B10000 = .ok (.rtset { t0 with gp := 1 } 11 (.g 37 false) (.const 21)) ∧
    decodeWord 0xE381000000E70004 = .ok (.rtstate { t0 with yld := true } 14 (.g 2 false)) ∧
    decodeWord 0xE400000000970860 = .ok (.rtdrop { t0 with sbw := 33, gap := 4 } 9) := by
  decide

theorem test_decode_tasks_1 :
    decodeWord 0x9000E4A6937D0000 = .ok (.spawn { t0 with gn := true, gp := 5 } .discard (.const 18) (.g 52 false) (.g 55 false)) ∧
    decodeWord 0x910046E4800A0000 = .ok (.tdep { t0 with gn := true, gp := 2 } (.g 27 false) (.g 36 false)) ∧
    decodeWord 0x9200467060078000 = .ok (.tsig { t0 with sba := 4 } (.g 25 false) (.const 3)) ∧
    decodeWord 0x93004F80000A0000 = .ok (.tend { t0 with gn := true, gp := 2 } (.g 62 false)) ∧
    decodeWord 0x9400642491D78000 = .ok (.migr { t0 with sba := 4 } (.const 16) (.g 36 false) (.g 29 false)) := by
  decide

theorem test_decode_islands_1 :
    decodeWord 0xD0874F8000070004 = .ok (.iscene { t0 with yld := true } (.g 14 false) (.g 62 false)) ∧
    decodeWord 0xD0006180001D0000 = .ok (.isceneDel { t0 with gn := true, gp := 5 } (.const 6)) ∧
    decodeWord 0xD100617035A70004 = .ok (.icon { t0 with yld := true } (.const 5) (.const 1) (.g 26 true)) ∧
    decodeWord 0xD20063B11A470DD0 = .ok (.ijnt { t0 with sbw := 55, gap := 2 } (.const 14) (.const 8) (.fifo 0 true)) ∧
    decodeWord 0xD2006DF559C710D1 = .ok (.ijntDel { t0 with sbw := 67, gap := 2 } (.special .clkh) (.wq 2 false) (.const 28)) ∧
    decodeWord 0xD3004AB1E00712D8 = .ok (.istep { t0 with sbw := 75, gap := 3 } (.g 42 false) (.const 15)) ∧
    decodeWord 0xD400800000076000 = .ok (.ipoll { t0 with sba := 3 } .discard) ∧
    decodeWord 0xD58F80000007C000 = .ok (.igrow { t0 with sba := 6 } (.g 31 false)) ∧
    decodeWord 0xD6000000000713A8 = .ok (.irest { t0 with sbw := 78, gap := 5 }) ∧
    decodeWord 0xD78C434000474000 = .ok (.iinfo { t0 with sba := 2 } 4 (.g 24 false) (.g 13 false)) := by
  decide

theorem test_decode_system_1 :
    decodeWord 0xF000000BEEF90000 = .ok (.trap { t0 with gn := true, gp := 1 } 48879) ∧
    decodeWord 0xF100000000074000 = .ok (.sret { t0 with sba := 2 }) ∧
    decodeWord 0xF1000000000717A1 = .ok (.sretSkip { t0 with sbw := 94, gap := 4 }) ∧
    decodeWord 0xF28C800001370004 = .ok (.rdsr { t0 with yld := true } (.g 25 false) 19) ∧
    decodeWord 0xF300634001A50000 = .ok (.wrsr { t0 with gp := 5 } 26 (.const 13)) ∧
    decodeWord 0xF400C07372570004 = .ok (.ckpt { t0 with yld := true } .discard (.g 1 false) (.const 27) (.g 37 false)) ∧
    decodeWord 0xF50044B331F70004 = .ok (.errinj { t0 with yld := true } (.g 18 false) (.const 25) (.g 31 false)) ∧
    decodeWord 0xF60063A2E0070004 = .ok (.swapf { t0 with yld := true } (.const 14) (.g 23 false)) ∧
    decodeWord 0xF7006400000B0000 = .ok (.halt { t0 with gn := true, gp := 3 } (.const 16)) := by
  decide

/-! ### Ill-formed terms: one for each operand rule of `Instr.wellFormed` -/

/-- GP = 7 with GN = 1 (R163); JB of an XFER without D (R192); a high half of a 64-bit destination (R52, R226). -/
theorem test_refuses_tail_and_control :
    (Instr.nop { t0 with gn := true }).wellFormed = false ∧
    (Instr.xfer t0 1 2 true false).wellFormed = false ∧
    (Instr.movi t0 (.p 1) 5).wellFormed = false ∧
    (Instr.movi { t0 with gp := 2 } (.g 1 false) 5).wellFormed = false ∧
    (Instr.movi t0 (.g 1 true) 5).wellFormed = false ∧
    (Instr.movw { t0 with sba := 1 } (.n 3) 5).wellFormed = false ∧
    (Instr.movw { t0 with gp := 2 } (.g 1 true) 5).wellFormed = false ∧
    (Instr.movw t0 (.wq 1 false) 5).wellFormed = false ∧
    (Instr.spill t0 30 false 2).wellFormed = false ∧
    (Instr.stage t0 30 2 0).wellFormed = false ∧
    (Instr.stage t0 0 2 254).wellFormed = false := by
  decide

/-- Uniform operations (R177), destinations and 64-bit operands of the integer and compare words (R52, R176). -/
theorem test_refuses_integer :
    (Instr.iadd t0 (.g 1 false) (.n 2 false) (.imm 4)).wellFormed = false ∧
    (Instr.iadd t0 (.g 1 false) (.g 2 false) (.src (.q 0))).wellFormed = false ∧
    (Instr.iadd { t0 with gp := 0 } (.g 1 false) (.g 2 false) (.imm 4)).wellFormed = false ∧
    (Instr.iadd t0 (.g 1 true) (.g 2 false) (.imm 4)).wellFormed = false ∧
    (Instr.imad t0 (.g 1 false) (.g 2 false) (.const 4) (.special .lane)).wellFormed = false ∧
    (Instr.mov t0 (.p 1) (.n 2 false)).wellFormed = false ∧
    (Instr.lea t0 (.g 1 false) (.g 2 false) (.src (.g 3 false) (.fifo 0 true))).wellFormed = false ∧
    (Instr.icmp t0 0 true 1 (.n 3 false) (.n 4 false)).wellFormed = false ∧
    (Instr.icmp t0 0 true 1 (.n 2 false) (.g 4 true)).wellFormed = false ∧
    (Instr.fcmp t0 0 1 false 1 (.n 2 false) (.n 5 false)).wellFormed = false ∧
    (Instr.pmovR t0 (.g 1 false)).wellFormed = false ∧
    (Instr.voteMask t0 (.p 1) false 2).wellFormed = false ∧
    (Instr.shflSel t0 false (.n 1) (.n 2 false) (.imm 3) 6).wellFormed = false ∧
    (Instr.bcast t0 (.wq 0 false) (.n 2 false) (.const 3)).wellFormed = false := by
  decide

/-- Floating-point and conversion words (R209, R210, R219). -/
theorem test_refuses_floating_point :
    (Instr.faddF32 t0 1 true (.n 1) (.n 2 false) (.n 3 false)).wellFormed = false ∧
    (Instr.faddF32 t0 1 false (.g 1 false) (.n 2 false) (.n 3 false)).wellFormed = false ∧
    (Instr.dadd t0 0 false (.n 1) (.n 2 false) (.n 4 false)).wellFormed = false ∧
    (Instr.dadd t0 0 false (.n 2) (.n 3 false) (.n 4 false)).wellFormed = false ∧
    (Instr.dfma t0 0 (.n 2) (.n 2 false) (.n 4 false) (.g 5 true)).wellFormed = false ∧
    (Instr.cvt t0 0 0 1 2 (.n 1) (.n 2 false)).wellFormed = false ∧
    (Instr.cvt t0 1 6 0 0 (.n 1) (.n 2 false)).wellFormed = false ∧
    (Instr.cvt t0 0 3 0 0 (.n 1) (.n 2 false)).wellFormed = false ∧
    (Instr.cvt t0 0 0 3 0 (.n 1) (.n 3 false)).wellFormed = false ∧
    (Instr.rngCb t0 0 (.n 1) (.n 2 false) (.n 3 false)).wellFormed = false ∧
    (Instr.vtopk t0 0 3 false false (.n 1) (.n 2 false)).wellFormed = false := by
  decide

/-- Memory words: the modifier of R169, data and destination registers, T of scratchpad forms, ATOM (R179, R239). -/
theorem test_refuses_memory :
    (Instr.ldg t0 { sx := false, scope := 0, kind := 0, size := 5 } (.n 1) 0 (.n 2 false) 0).wellFormed = false ∧
    (Instr.ldg t0 { sx := false, scope := 0, kind := 3, size := 2 } (.n 1) 0 (.n 2 false) 0).wellFormed = false ∧
    (Instr.ldg t0 { sx := false, scope := 1, kind := 0, size := 2 } (.n 1) 0 (.n 2 false) 0).wellFormed = false ∧
    (Instr.ldg t0 { sx := false, scope := 6, kind := 1, size := 2 } (.n 1) 0 (.n 2 false) 0).wellFormed = false ∧
    (Instr.ldg t0 { sx := true, scope := 0, kind := 0, size := 2 } (.n 1) 0 (.n 2 false) 0).wellFormed = false ∧
    (Instr.ldg t0 { sx := false, scope := 0, kind := 0, size := 3 } (.n 1) 0 (.n 2 false) 0).wellFormed = false ∧
    (Instr.ldp t0 { sx := false, scope := 0, kind := 0, size := 4 } (.n 2) (.n 2 false) 0).wellFormed = false ∧
    (Instr.ldp t0 { sx := false, scope := 0, kind := 0, size := 4 } (.g 2 false) (.n 2 false) 0).wellFormed = false ∧
    (Instr.ldp t0 { sx := false, scope := 0, kind := 0, size := 2 } .push (.n 2 false) 0).wellFormed = false ∧
    (Instr.stg t0 { sx := true, scope := 0, kind := 0, size := 0 } 0 (.n 1 false) (.n 2 false) 0).wellFormed = false ∧
    (Instr.stp t0 { sx := false, scope := 0, kind := 0, size := 3 } (.n 1 false) (.n 3 false) 0).wellFormed = false ∧
    (Instr.stp t0 { sx := false, scope := 0, kind := 0, size := 4 } (.n 1 false) (.g 4 false) 0).wellFormed = false ∧
    (Instr.stN4 t0 { sp := true, scope := 0, kind := 0 } 1 (.n 1 false) (.n 2 false) 0).wellFormed = false ∧
    (Instr.stN4 t0 { sp := false, scope := 2, kind := 0 } 1 (.n 1 false) (.n 2 false) 0).wellFormed = false ∧
    (Instr.ptag t0 (.g 1 false) (.n 2 false)).wellFormed = false ∧
    (Instr.ptag t0 (.n 1) (.n 3 false)).wellFormed = false ∧
    (Instr.ptset t0 (.n 2) (.n 2 false)).wellFormed = false ∧
    (Instr.atomAdd t0 { sp := true, w64 := false, kind := 0, treg := 1, scope := 0 } (.n 1) (.n 2 false) (.n 3 false)).wellFormed = false ∧
    (Instr.atomAdd t0 { sp := false, w64 := false, kind := 0, treg := 1, scope := 7 } (.n 1) (.n 2 false) (.n 3 false)).wellFormed = false ∧
    (Instr.atomAdd t0 { sp := false, w64 := true, kind := 0, treg := 1, scope := 0 } (.n 1) (.n 2 false) (.n 4 false)).wellFormed = false ∧
    (Instr.atomAdd t0 { sp := false, w64 := true, kind := 0, treg := 1, scope := 0 } (.n 2) (.n 2 false) (.n 3 false)).wellFormed = false ∧
    (Instr.atomAdd t0 { sp := false, w64 := false, kind := 0, treg := 1, scope := 0 } .discard (.n 2 false) (.n 3 false)).wellFormed = false ∧
    (Instr.atomCas t0 { sp := false, w64 := true, kind := 0, treg := 1, scope := 0 } (.n 2) (.n 2 false) (.n 6 false)).wellFormed = false ∧
    (Instr.red t0 { sp := false, w64 := false, kind := 1, treg := 1, scope := 0 } 0 (.n 2 false) (.n 3 false)).wellFormed = false ∧
    (Instr.red t0 { sp := false, w64 := false, kind := 0, treg := 1, scope := 0 } 7 (.n 2 false) (.n 3 false)).wellFormed = false := by
  decide

/-- Synchronization, tile, engine, task, island and system words. -/
theorem test_refuses_the_rest :
    (Instr.fence t0 6).wellFormed = false ∧
    (Instr.fenceSc t0 7).wellFormed = false ∧
    (Instr.acqE t0 (.n 3) (.g 1 false)).wellFormed = false ∧
    (Instr.slwait t0 (.g 3 false) (.n 1 false) (.n 2 false)).wellFormed = false ∧
    (Instr.fget t0 false false (.n 3) (.g 1 false)).wellFormed = false ∧
    (Instr.mma t0 6 0 1 2 false false).wellFormed = false ∧
    (Instr.mloop t0 { p := 61, abs := 0 } { x := 0, sg := 0, yd := 0, var := 0, pair := 0, xa := false, xb := false }).wellFormed = false ∧
    (Instr.mloop t0 { p := 0, abs := 0 } { x := 2, sg := 0, yd := 0, var := 0, pair := 0, xa := false, xb := false }).wellFormed = false ∧
    (Instr.mloop t0 { p := 0, abs := 0 } { x := 32, sg := 0, yd := 0, var := 0, pair := 0, xa := false, xb := false }).wellFormed = false ∧
    (Instr.mloop t0 { p := 0, abs := 0 } { x := 0, sg := 0, yd := 0, var := 3, pair := 0, xa := false, xb := false }).wellFormed = false ∧
    (Instr.mloop t0 { p := 0, abs := 0 } { x := 0, sg := 0, yd := 0, var := 0, pair := 7, xa := false, xb := false }).wellFormed = false ∧
    (Instr.ysca t0 3 3 1 false).wellFormed = false ∧
    (Instr.yevtRd t0 .push 3).wellFormed = false ∧
    (Instr.mrgk t0 { p := 58, abs := 2 } false).wellFormed = false ∧
    (Instr.shuf t0 { p := 63, abs := 0 }).wellFormed = false ∧
    (Instr.cpyt t0 { p := 60, abs := 4 }).wellFormed = false ∧
    (Instr.sstop t0 (.n 1) 0).wellFormed = false ∧
    (Instr.isect t0 false (.g 1 false) (.n 1 false) (.n 2 false) 0).wellFormed = false ∧
    (Instr.rtstate t0 1 .push).wellFormed = false ∧
    (Instr.spawn t0 (.n 1) (.g 1 false) (.g 2 false) (.g 3 false)).wellFormed = false ∧
    (Instr.iinfo t0 6 (.n 1) (.n 2 false)).wellFormed = false ∧
    (Instr.ipoll t0 (.n 1)).wellFormed = false ∧
    (Instr.rdsr t0 (.g 1 false) 0x006).wellFormed = false ∧
    (Instr.rdsr t0 .push 0x000).wellFormed = false ∧
    (Instr.wrsr t0 0x010 (.g 1 false)).wellFormed = false ∧
    (Instr.wrsr t0 0x000 (.g 1 true)).wellFormed = false ∧
    (Instr.placeGang 1).wellFormed = false := by
  decide

/-! ### Words that are not instructions (R180, R185) -/

/-- Unassigned opcodes, fields that must be 0, reserved sub-operations, specifiers and tile codes. -/
theorem test_refuses_words :
    (decodeWord 0x0900000000070000).toOption = none ∧
    (decodeWord 0x7000000000070000).toOption = none ∧
    (decodeWord 0x0000000100070000).toOption = none ∧
    (decodeWord 0x00000000000F0000).toOption = none ∧
    (decodeWord 0x0000000000070001).toOption = none ∧
    (decodeWord 0x1041041080070000).toOption = none ∧
    (decodeWord 0x10416E9080070000).toOption = none ∧
    (decodeWord 0x3641210000770000).toOption = none ∧
    (decodeWord 0xA180000000070000).toOption = none ∧
    (decodeWord 0xA3C0000000070000).toOption = none ∧
    (decodeWord 0xA800000000070000).toOption = none ∧
    (decodeWord 0x8400000000670000).toOption = none ∧
    (decodeWord 0x8500000000070000).toOption = none := by
  decide

/-! ### A small machine for the witnesses -/

/-- A slot at 0x10000 with all lanes. -/
def wSlot : Slot := { valid := true, pc := 0x10000, mask := 0xFFFFFFFF, queue := List.replicate 16 (List.replicate 32 0), tags := List.replicate 7 0, bregs := List.replicate 8 {} }

/-- A tussock whose p0 is true in no lane. -/
def wTk : Tussock := { active := some 0, n := List.replicate 32 (List.replicate 32 0), home := List.replicate 32 none, m := List.replicate 8 (List.replicate 32 0), g := List.replicate 64 0, p := List.replicate 7 0, t := List.replicate 8 {}, s := List.replicate 4 {}, flags := List.replicate 32 0, sscr := List.replicate 4 0, slots := [wSlot, { queue := List.replicate 16 (List.replicate 32 0), tags := List.replicate 7 0, bregs := List.replicate 8 {} }] }

/-- A gang of one tussock on core 0 with 4096 bytes of scratchpad. -/
def wGang (y : Tussock) : Gang := { id := 1, part := 0, tenant := 0, core := some 0, foot := { entry := 0x10000, regs := 4, sp := 4096 }, windows := List.replicate 16 none, wqs := List.replicate 4 none, tks := [y] }

/-- A partition of granule 0 that runs tenant 0. -/
def wPart : Partition := { num := 0, granules := 1, cxl := 1, eth := 1, sys := false, root := 0, weights := [], fabric := List.replicate 32 5, powerMin := 0, floors := List.replicate 32 0, eps := List.replicate 4 {}, running := some 0, sliceEnd := 27000000, jobs := [{ part := 0, tenant := 0, rcb := 0, out := 2 }] }

/-- The gang's task. -/
def wTask : Task := { id := 1, part := 0, tenant := 0, job := 0, launch := 0, group := 0, ready := true, placed := true, foot := { entry := 0x10000, regs := 4, sp := 4096 } }

/-- The machine with that partition and task, the given gang, and slot 0 of tussock 0 selected. -/
def wWith (x : Gang) : State := { State.reset with dev := { Device.reset with boot := .ready, mgmtAddrs := [5] }, parts := [wPart], tasks := [wTask], gangs := [x], cur := some { gang := 1, tk := 0, slot := 0 }, nextTask := 2 }

/-- The machine with a given tussock. -/
def wTkd (y : Tussock) : State := wWith (wGang y)

/-- The plain machine. -/
def w0 : State := wTkd wTk

/-- The plain machine with g registers 10, 11, … as given. -/
def wG (vs : List (BitVec 64)) : State := wTkd { wTk with g := List.replicate 10 0 ++ vs ++ List.replicate (54 - vs.length) 0 }

/-- Whether a word with tail `t` issues at a slot, and no acquire of the slot is on its way. -/
def ready (s : State) (t : Tail) (c : Ctx) : Bool :=
  (List.range 7).all (fun i => !t.sbw.getLsbD i || c.sl.tags.getD i 0 == 0) &&
  ((t.sba == 0 || decide (c.sl.tags.getD (t.sba.toNat - 1) 0 < 15)) && c.sl.hold.all (fun o => (s.op? o).isNone))

theorem ready_passes {s : State} {t : Tail} {c : Ctx} (hc : s.ctx? t = some c) (h : ready s t c = true) : Passes s t c := by
  simp only [ready, Bool.and_eq_true, List.all_eq_true, List.mem_range, Bool.or_eq_true, Bool.not_eq_true', beq_iff_eq, 
    Option.isNone_iff_eq_none, decide_eq_true_eq] at h
  exact ⟨⟨hc, fun i hi hb => (h.1 i hi).resolve_left (by simp [hb]), fun hn => h.2.1.resolve_left hn⟩, h.2.2⟩

theorem meetsP {s : State} {t : Tail} {P : Ctx → Prop} [DecidablePred P]
    (h : (s.ctx? t).any (fun c => ready s t c && decide (P c)) = true) : ∃ c, Passes s t c ∧ P c := by
  cases hc : s.ctx? t with
  | none => simp [hc] at h
  | some c =>
    simp only [hc, Option.any_some, Bool.and_eq_true] at h
    exact ⟨c, ready_passes hc h.1, of_decide_eq_true h.2⟩

theorem meetsI {s : State} {t : Tail} {P : Ctx → Prop} [DecidablePred P]
    (h : (s.ctx? t).any (fun c => ready s t c && decide (P c)) = true) : ∃ c, Issues s t c ∧ P c :=
  let ⟨c, hp, h⟩ := meetsP h
  ⟨c, hp.toIssues, h⟩

theorem meetsA {s : State} {t : Tail} {P : Ctx → Prop} [DecidablePred P]
    (h : (s.ctx? t).any (fun c => ready s t c && decide (c.act ≠ 0 ∧ P c)) = true) : ∃ c, Acts s t c ∧ P c :=
  let ⟨c, hp, ha, h⟩ := meetsP h
  ⟨c, ⟨hp, ha⟩, h⟩

theorem gets {ε α : Type} {x : Except ε α} {P : α → Prop} [DecidablePred P]
    (h : x.toOption.any (fun a => decide (P a)) = true) : ∃ a, x = .ok a ∧ P a := by
  cases hc : x with
  | error e => simp [hc, Except.toOption] at h
  | ok a => exact ⟨a, rfl, by simpa [hc, Except.toOption] using h⟩

theorem errs {ε α : Type} {x : Except ε α} (h : x.toOption.isNone = true) : ∃ e, x = .error e := by
  cases hc : x with
  | error e => exact ⟨e, rfl⟩
  | ok a => simp [hc, Except.toOption] at h

theorem has {α : Type} {x : Option α} {P : α → Prop} [DecidablePred P]
    (h : x.any (fun a => decide (P a)) = true) : ∃ a, x = some a ∧ P a := by
  cases hc : x with
  | none => simp [hc] at h
  | some a => exact ⟨a, rfl, by simpa [hc] using h⟩

theorem nextWhere {o : Out} {P : State → Prop} [DecidablePred P]
    (h : (match o with
      | .next t => decide (P t)
      | _ => false) = true) : ∃ t, o = .next t ∧ P t := by
  cases o with
  | next t => exact ⟨t, rfl, by simpa using h⟩
  | fault _ => simp at h
  | refused _ => simp at h

theorem mapped {r : State × Walk} {P : State → Nat → Prop} [∀ s a, Decidable (P s a)]
    (h : (match r with
      | (s', .pa a _ _ _ _ _ _ _) => decide (P s' a)
      | _ => false) = true) : ∃ s' a f pg e b w x lines, r = (s', .pa a f pg e b w x lines) ∧ P s' a := by
  obtain ⟨s', q⟩ := r
  cases q with
  | pa a f pg e b w x l => exact ⟨s', a, f, pg, e, b, w, x, l, rfl, by simpa using h⟩
  | _ => simp at h

theorem isFault {r : State × Walk} {k : Walk} (h : decide (r.2 = k) = true) : ∃ s', r = (s', k) := by
  obtain ⟨s', q⟩ := r
  have e : q = k := by simpa using h
  exact ⟨s', by rw [e]⟩

/-- The machine with virtual 0x1_0000 mapped to the frame at 0x20_0000 for tenant 0. -/
def wM (y : Tussock) : State := { wTkd y with mem := loadTables [] }

/-- That with the g registers from 10 on as given. -/
def wMG (vs : List (BitVec 64)) : State := { wG vs with mem := loadTables [] }

/-- The machine with operations in flight. -/
def wOps (os : List Op) : State := { w0 with ops := os, nextOp := os.length }

theorem meetsR {s : State} {t : Tail} {ws : List Want} {P : Ctx → Read → Prop} [∀ c, DecidablePred (P c)]
    (h : (s.ctx? t).any (fun c => ready s t c && (c.read (spent s) ws).toOption.any (fun r => decide (P c r))) = true) :
    ∃ c rd, Passes s t c ∧ c.read (spent s) ws = .ok rd ∧ P c rd := by
  cases hc : s.ctx? t with
  | none => simp [hc] at h
  | some c =>
    simp only [hc, Option.any_some, Bool.and_eq_true] at h
    obtain ⟨r, hr, hp⟩ := gets h.2
    exact ⟨c, r, ready_passes hc h.1, hr, hp⟩

theorem meetsE {s : State} {t : Tail} {ws : List Want}
    (h : (s.ctx? t).any (fun c => ready s t c && (c.read (spent s) ws).toOption.isNone) = true) :
    ∃ c e, Passes s t c ∧ c.read (spent s) ws = .error e := by
  cases hc : s.ctx? t with
  | none => simp [hc] at h
  | some c =>
    simp only [hc, Option.any_some, Bool.and_eq_true] at h
    obtain ⟨e, he⟩ := errs h.2
    exact ⟨c, e, ready_passes hc h.1, he⟩

/-- A gang queue of 32 entries of which `n` are taken. -/
def wQ (n : Nat) : WQueue := { base := 0, entries := 32, head := 0, tail := n, visible := List.range n }

/-- The plain machine with gang queue 3 configured. -/
def wQd (n : Nat) : State := wWith { wGang wTk with wqs := [none, none, none, some (wQ n)] }

/-- The hypotheses of a word whose operands are checked: no active lane, a source that cannot be read, a check that stops it, and a
word that goes out. -/
def CheckMeets (ok bad : State) (ws no : List Want) (α : Type) (check : Ctx → Read → State → Except Res (State × α)) : Prop :=
  (∃ c rd, Passes ok t1 c ∧ c.read (spent ok) ws = .ok rd ∧ c.act = 0) ∧ (∃ c e, Passes ok t0 c ∧ c.read (spent ok) no = .error e) ∧
  (∃ c rd e, Passes bad t0 c ∧ c.read (spent bad) ws = .ok rd ∧ c.act ≠ 0 ∧ check c rd (spent bad) = .error e) ∧
  ∃ c rd s1 a rd1, Passes ok t0 c ∧ c.read (spent ok) ws = .ok rd ∧ c.act ≠ 0 ∧ check c rd (spent ok) = .ok (s1, a) ∧ s1.sound = true ∧
    c.read s1 ws = .ok rd1

theorem checkMeets {α : Type} {ok bad : State} {ws no : List Want} {check : Ctx → Read → State → Except Res (State × α)}
    (h0 : (ok.ctx? t1).any (fun c => ready ok t1 c && (c.read (spent ok) ws).toOption.any (fun _ => decide (c.act = 0))) = true)
    (hn : (ok.ctx? t0).any (fun c => ready ok t0 c && (c.read (spent ok) no).toOption.isNone) = true)
    (hb : (bad.ctx? t0).any (fun c => ready bad t0 c && (c.read (spent bad) ws).toOption.any (fun r =>
      decide (c.act ≠ 0 ∧ (check c r (spent bad)).toOption.isNone = true))) = true)
    (hg : (ok.ctx? t0).any (fun c => ready ok t0 c && (c.read (spent ok) ws).toOption.any (fun r =>
      decide (c.act ≠ 0 ∧ (check c r (spent ok)).toOption.any (fun q => decide (q.1.sound = true ∧
        (c.read q.1 ws).toOption.any (fun _ => true) = true)) = true))) = true) :
    CheckMeets ok bad ws no α check := by
  refine ⟨meetsR h0, meetsE hn, ?_, ?_⟩
  · obtain ⟨c, rd, hp, hr, ha, hk⟩ := meetsR hb
    obtain ⟨e, he⟩ := errs hk
    exact ⟨c, rd, e, hp, hr, ha, he⟩
  · obtain ⟨c, rd, hp, hr, ha, hk⟩ := meetsR hg
    obtain ⟨q, hq, hs, h1⟩ := gets hk
    obtain ⟨rd1, h1, _⟩ := gets (P := fun _ => True) (by simpa using h1)
    exact ⟨c, rd, q.1, q.2, rd1, hp, hr, ha, hq, hs, h1⟩

/-- An operation of the plain machine's slot that is due. -/
def wOp (k : OpKind) : Op := { id := 0, gang := 1, tk := 0, slot := 0, core := some 0, at_ := 0, mask := 0xFFFFFFFF, kind := k }

/-- Branch-target registers 0 prepared and 1 stale. -/
def wBregs : List BReg := { target := 0x20000, state := .prep } :: { target := 0x30000, state := .stale } :: List.replicate 6 {}

/-- A tussock whose p0 is true in lane 0 alone, with those registers. -/
def wSplit : Tussock := { wTk with p := 1 :: List.replicate 6 0, slots := [{ wSlot with bregs := wBregs }, { queue := List.replicate 16 (List.replicate 32 0), tags := List.replicate 7 0, bregs := List.replicate 8 {} }] }

/-- The other slot of it taken. -/
def wSplit2 : Tussock := { wSplit with slots := [{ wSlot with bregs := wBregs }, wSlot] }

/-- A tussock with translation register 0 bound to 0x1_0000. -/
def wT (w : Bool) : Tussock := { wTk with t := { bound := true, base := 0x10000, frame := 0x200000, limit := 65536, w := w } :: List.replicate 7 {} }

/-- The plain machine with register 0 at a value in every lane, and register 1 at another. -/
def wN (a b : BitVec 32) : State := wTkd { wTk with n := List.replicate 32 a :: List.replicate 32 b :: List.replicate 30 (List.replicate 32 0) }

theorem meetsG {ε α : Type} {s : State} {t : Tail} {f : Ctx → Except ε α} {P : Ctx → α → Prop} [∀ c, DecidablePred (P c)]
    (h : (s.ctx? t).any (fun c => ready s t c && (f c).toOption.any (fun a => decide (c.act ≠ 0 ∧ P c a))) = true) :
    ∃ c a, Passes s t c ∧ f c = .ok a ∧ c.act ≠ 0 ∧ P c a := by
  cases hc : s.ctx? t with
  | none => simp [hc] at h
  | some c =>
    simp only [hc, Option.any_some, Bool.and_eq_true] at h
    obtain ⟨a, ha, hp⟩ := gets h.2
    exact ⟨c, a, ready_passes hc h.1, ha, hp⟩

theorem meetsGE {α : Type} {s : State} {t : Tail} {f : Ctx → Except Res α}
    (h : (s.ctx? t).any (fun c => ready s t c && decide (c.act ≠ 0 ∧ (f c).toOption.isNone = true)) = true) :
    ∃ c e, Passes s t c ∧ c.act ≠ 0 ∧ f c = .error e := by
  cases hc : s.ctx? t with
  | none => simp [hc] at h
  | some c =>
    simp only [hc, Option.any_some, Bool.and_eq_true] at h
    have h2 := of_decide_eq_true h.2
    obtain ⟨e, he⟩ := errs h2.2
    exact ⟨c, e, ready_passes hc h.1, h2.1, he⟩

/-- A store of the slot that is not performed yet: to global memory or to scratchpad. -/
def wStore (glob : Bool) : Op := { wOp (.store [{ lane := 0, glob := glob, addr := 0, size := 4, act := .write 1, at_ := 200 }]) with at_ := 200, tag := 1, tagSlots := [0] }

/-- The g registers of which the first given ones are 10, 11 and 12. -/
abbrev g10 : USrc := .g 10 false
abbrev g11 : USrc := .g 11 false
abbrev g12 : USrc := .g 12 false

/-- A tag table of two sets in which line 0 stands in way 3 of set 0. -/
def wTab : TagTable := { sets := 2, z := 128, lines := [none, none, none, some 0, none, none, none, none], used := List.replicate 8 0, stamp := 0 }

/-- A gang with four x tiles of one FP32 element, one of 2 × 64, and one accumulator tile without cells. -/
def wTiles (y : Tussock) : Gang := { wGang y with xt := List.replicate 4 ({ ctl := 1 } : XTile) ++ [{ ctl := 0x3F0101 }], yt := [{}] }

/-- The machine with those tiles and the g registers from 10 on as given. -/
def wTG (vs : List (BitVec 64)) : State := wWith (wTiles { wTk with tokens := 1, g := List.replicate 10 0 ++ vs ++ List.replicate (54 - vs.length) 0 })

/-- The loop that MLOOP with parameters from g10 on and pair FP32 arrives at. -/
def wLoop (c : Ctx) : Loop := { team := c.t / c.x.foot.team, word := loopWord { p := 10, abs := 0 } { x := 0, sg := 0, yd := 0, var := 0, pair := 2, xa := false, xb := false }, bar := none, members := [], params := (List.range 4).map (fun k => c.tk.g.getD (10 + k) 0), ca := c.x.ctl 0, cb := c.x.ctl 2 }

/-- A descriptor of 128 bytes at global 0x1_0000 and scratchpad 0, in a direction. -/
def wDesc (dir : Nat) : BitVec 512 := BitVec.ofNat 512 (0x10000 + 2 ^ 51 + dir * 2 ^ 54 + 127 * 2 ^ 128)

/-- The plain machine whose slot has read that descriptor. -/
def wDesced (d : BitVec 512) (vs : List (BitVec 64)) : State := wTkd { wTk with g := List.replicate 10 0 ++ vs ++ List.replicate (54 - vs.length) 0, slots := [{ wSlot with phase := { desc := some d } }, {}] }

/-- A root RCB whose budgets are wide open and whose overrides are all set. -/
def wRoot : BitVec 1024 := BitVec.ofNat 1024 (0x10000000000000000000000000000000000000000000000000000000000000000 + 0x7FF * 0x10000000000000000 + 0x1FFFFFFFFFFFFFFFFFFFFFFFFFFFF * 0x100000000000000000000)

/-- A scene of 8 bodies at 0x1_8000 with room for 4 contacts and 2 joints, made from the launch node at 0x1_0000. -/
def wScDesc : BitVec 512 := BitVec.ofNat 512 (7 + 0x1010000000000 + 2 * 0x10000000000000000 + 4 * 0x1000000000000000000000000 + 0x18000 * 0x1000000000000000000000000000000000000000000000000 + 0x10000 * 0x100000000000000000000000000000000000000000000000000000000000000000000000000000000)

/-- Memory with the mapped page holding a launch node at 0x1_0000, its job at 0x1_0080, its tenant at 0x1_0100, its template at 0x1_0200,
and that scene's descriptor at 0x1_0300. -/
def wTree : Memory := ((((((((((loadTables []).write 0x200000 8 0x3000000010080).write 0x200028 8 0x10200).write 0x200080 8 0x2000000010100).write 0x200100 8 0x1000000000000).write 0x200200 8 0x10000).write 0x100800 8 0x8000000000010100).write 0x200300 8 (7 + 0x1010000000000)).write 0x200308 8 (2 + 4 * 0x100000000)).write 0x200318 8 0x18000).write 0x200328 8 0x10000

/-- The partition with that root. -/
def wTreeP : Partition := { wPart with root := wRoot, jobs := [{ part := 0, tenant := 0, rcb := 0x10080, out := 2, feps := [7, 8] }] }

/-- The gang's task under that job. -/
def wTreeT : Task := { wTask with job := 0x10080, launch := 0x10000 }

/-- The machine with that memory and tree. -/
def wTreeS (vs : List (BitVec 64)) : State := { wG vs with mem := wTree, parts := [wTreeP], tasks := [wTreeT] }

/-- The supervisor of a system partition that owns the near frames. -/
def wSys (vs : List (BitVec 64)) : State := { wTkd { wTk with sup := true, g := List.replicate 10 0 ++ vs ++ List.replicate (54 - vs.length) 0 } with parts := [{ wPart with sys := true }] }

/-! ### One step each: results worked out by hand from the number formats (R73, R79, R199) -/

/-- What an instruction sends to its destination in lane 0. -/
def laneZero (o : Out) : Option (BitVec 64) :=
  match o with
  | .next u => u.ops.findSome? (fun (p : Op) => match p.kind with
      | .result r => r.vals[0]?
      | _ => none)
  | _ => none

/-- IADD wraps: 0xFFFFFFFF + 1. -/
theorem test_iadd_wraps : laneZero (exec (.iadd t0 (.n 2) (.n 0 false) (.src (.n 1 false))) (wN 0xFFFFFFFF 1)) = some 0 := by decide +kernel

/-- ISUB wraps: 0 - 1. -/
theorem test_isub_wraps : laneZero (exec (.isub t0 (.n 2) (.n 0 false) (.src (.n 1 false))) (wN 0 1)) = some 0xFFFFFFFF := by decide +kernel

/-- FMUL.f32: 3 × 0.5 is 1.5. -/
theorem test_fmul : laneZero (exec (.fmulF32 t0 0 false (.n 2) (.n 0 false) (.n 1 false)) (wN 0x40400000 0x3F000000)) = some 0x3FC00000 := by
  decide +kernel

/-- FADD.f32: 1 and the last place's half below it round to even: 1 + 2^-24 is 1. -/
theorem test_fadd_ties_to_even : laneZero (exec (.faddF32 t0 0 false (.n 2) (.n 0 false) (.n 1 false)) (wN 0x3F800000 0x33800000)) = some 0x3F800000 := by
  decide +kernel

/-- FADD.f32 of infinities of both signs: a quiet NaN. -/
theorem test_fadd_invalid : laneZero (exec (.faddF32 t0 0 false (.n 2) (.n 0 false) (.n 1 false)) (wN 0x7F800000 0xFF800000)) = some 0x7FC00000 := by
  decide +kernel

/-- FMUL.f16x2: 1.5 × 2 is 3 in the high half, 65504 × 2 is infinity in the low half. -/
theorem test_fmul_halves : laneZero (exec (.fmulF16X2 t0 0 false (.n 2) (.n 0 false) (.n 1 false)) (wN 0x3E007BFF 0x40004000)) = some 0x42007C00 := by
  decide +kernel

/-! ### Witnesses of the obligations' hypotheses -/

theorem witness_StepRunsTheDecodedWord :
    (let z := { wSlot with fline := some (0x400, 0x70000) }
     let y := { wTk with slots := [z, {}] }
     let s := wTkd y
     s.cur = some ⟨1, 0, 0⟩ ∧ s.gang? 1 = some (wGang y) ∧ (wGang y).core = some 0 ∧ (wGang y).tks[0]? = some y ∧ y.slots[0]? = some z ∧
       z.valid = true ∧ s.part? 0 = some wPart ∧ z.buffered = some 0x70000 ∧ decode (bytesOfWord (wordIn 0x70000 z.pc)) = .ok (.nop t0, [])) ∧
    (let z := { wSlot with fline := some (0x400, 0x0974000000010081) }
     z.buffered = some 0x0974000000010081 ∧ ∃ e, decode (bytesOfWord (wordIn 0x0974000000010081 z.pc)) = .error e) ∧
    (wSlot.buffered = none ∧ wSlot.mask ≠ 0 ∧ wSlot.pc.toNat % 8 = 0 ∧
     (∃ s' a f pg e b w x lines, (wM wTk).translate 0 wPart 0 0x10000 .fetch false ((wM wTk).readerOf 1) = (s', .pa a f pg e b w x lines) ∧
       s'.sound = true ∧ decode (bytesOfWord (wordIn (s'.codeLine a) wSlot.pc)) = .ok (.nop t1, []))) ∧
    (∃ s', ({ w0 with mem := Memory.write [] 0 8 0x20000F } : State).translate 0 wPart 0 0x10000 .fetch false (w0.readerOf 1) = (s', .xlate)) ∧
    (∃ s', ({ w0 with mem := (loadTables []).write 0x142008 8 0x200003 } : State).translate 0 wPart 0 0x10000 .fetch false (w0.readerOf 1) = (s', .prot)) :=
  ⟨by decide +kernel, ⟨by decide +kernel, errs (by decide +kernel)⟩, ⟨by decide +kernel, by decide +kernel, by decide +kernel, mapped (by decide +kernel)⟩, isFault (by decide +kernel), isFault (by decide +kernel)⟩

theorem witness_StepRunsTheDueEvent :
    ({ State.reset with inbox := [.dieHot 7 true] } : State).inbox = .dieHot 7 true :: [] ∧
    (let s := { wOps [{ id := 0, gang := 1, tk := 0, slot := 0, core := some 0, at_ := 0, kind := .tagOnly }] with cur := none }
     s.cur = none ∧ s.inbox = [] ∧ s.due = some (.loadComplete 0)) ∧
    (let s := { State.reset with sweep := [(191, 7)] }
     s.cur = none ∧ s.inbox = [] ∧ s.due = none ∧ s.sweep = (191, 7) :: []) ∧
    (State.reset.cur = none ∧ State.reset.inbox = [] ∧ State.reset.due = none ∧ State.reset.sweep = []) := by decide +kernel

theorem witness_MemoryStaysCanonical :
    ∃ t, step (State.reset.withFetchWord 64 0x70000) = .next t ∧ (State.reset.withFetchWord 64 0x70000).mem.wf = true ∧
      ∀ x ∈ (State.reset.withFetchWord 64 0x70000).gangs, Memory.wf x.sp = true ∧ Memory.wf x.arr = true := nextWhere (by decide +kernel)

theorem witness_DecodingAndEncodingAgree :
    (Instr.nop t0).wellFormed = true ∧ (Instr.exit t1).wellFormed = true ∧ decode (bytesOfWord 0x70000) = .ok (.nop t0, []) := by decide +kernel

theorem witness_TailsAndNop :
    (∃ c, Issues w0 t0 c ∧ True) ∧
    (w0.slot? 1 0 0 = some wSlot ∧ wSlot.join ≠ some 0x10008 ∧ wSlot.mask ≠ 0) ∧
    (decode (bytesOfWord 0x70040) = .ok (.nop { t0 with sbw := 1 }, []) ∧ wordTail 0x70040 = { t0 with sbw := 1 } ∧
      ∃ c, (wTkd { wTk with slots := [{ wSlot with tags := [1, 0, 0, 0, 0, 0, 0] }, {}] }).ctx? (wordTail 0x70040) = some c ∧ c.sl.tags.getD 0 0 ≠ 0) ∧
    (decode (bytesOfWord 0x72000) = .ok (.nop { t0 with sba := 1 }, []) ∧ (wordTail 0x72000).sba ≠ 0 ∧
      ∃ c, (wTkd { wTk with slots := [{ wSlot with tags := [15, 0, 0, 0, 0, 0, 0] }, {}] }).ctx? (wordTail 0x72000) = some c ∧
        c.sl.tags.getD ((wordTail 0x72000).sba.toNat - 1) 0 = 15) :=
  ⟨meetsI (by decide +kernel), by decide +kernel, ⟨by decide +kernel, by decide +kernel, has (by decide +kernel)⟩, by decide +kernel, by decide +kernel, has (by decide +kernel)⟩

theorem witness_TakingATrap :
    (let x := { wGang wTk with handler := 0x20000 }
     let s := wWith x
     s.gang? 1 = some x ∧ s.tk? 1 0 = some wTk ∧ s.slot? 1 0 0 = some wSlot ∧ wTk.suspended 0 = false ∧ wTk.sup = false ∧ x.handler ≠ 0 ∧
       Trap.fatal { code := .qerr, lanes := 1 } = false) ∧
    (w0.gang? 1 = some (wGang wTk) ∧ w0.tk? 1 0 = some wTk ∧ w0.slot? 1 0 0 = some wSlot ∧ (wGang wTk).handler = 0) ∧
    (let y := { wTk with sup := true }
     let s := wTkd y
     s.tk? 1 0 = some y ∧ y.suspended 0 = false ∧ y.sup = true) ∧
    (let f : HFrame := { slot := 1, pc := 0x10000, mask := 1, join := none, queue := [], pushes := 0, bregs := [], ended := 0, otherValid := true, depth := 0 }
     let y := { wTk with sup := true, frame := some f, slots := [wSlot, wSlot] }
     let s := wTkd y
     s.tk? 1 0 = some y ∧ s.slot? 1 0 0 = some wSlot ∧ y.suspended 0 = true) := by decide +kernel

/-- What a lane instruction with these sources needs: its word issues and its sources are read, with lanes and with none; they cannot
be read where a source's queue is not configured; the gang queue of its destination has room, is full, or is not configured. -/
abbrev LanesMeet (ws bad : List Want) : Prop :=
  (∃ c rd, Passes w0 t0 c ∧ c.read (spent w0) ws = .ok rd ∧ c.act ≠ 0) ∧
  (∃ c rd, Passes w0 t1 c ∧ c.read (spent w0) ws = .ok rd ∧ c.act = 0) ∧
  (∃ c e, Passes w0 t0 c ∧ c.read (spent w0) bad = .error e) ∧
  (∃ c rd, Passes (wQd 31) t0 c ∧ c.read (spent (wQd 31)) ws = .ok rd ∧ c.act ≠ 0 ∧ wqueue c rd.s 3 = some (wQ 31) ∧
    (wQ 31).tail - (wQ 31).head < (wQ 31).entries) ∧
  (∃ c rd, Passes (wQd 32) t0 c ∧ c.read (spent (wQd 32)) ws = .ok rd ∧ c.act ≠ 0 ∧ wqueue c rd.s 3 = some (wQ 32) ∧
    (wQ 32).entries ≤ (wQ 32).tail - (wQ 32).head) ∧
  (∃ c rd, Passes w0 t0 c ∧ c.read (spent w0) ws = .ok rd ∧ c.act ≠ 0 ∧ wqueue c rd.s 3 = none)

theorem witness_IntegerWords :
    LanesMeet [(.n 31 false, .int, 1), (.q 15, .int, 1), (.g 63 true, .int, 1)] [(.n 31 false, .int, 1), (.q 15, .int, 1), (.wq 0 false, .int, 1)] ∧
    LanesMeet [(.n 30 true, .int, 2)] [(.wq 0 false, .int, 2)] ∧
    (∃ c, Issues w0 t0 c ∧ True) :=
  ⟨⟨meetsR (by decide +kernel), meetsR (by decide +kernel), meetsE (by decide +kernel), meetsR (by decide +kernel), meetsR (by decide +kernel), meetsR (by decide +kernel)⟩,
   ⟨meetsR (by decide +kernel), meetsR (by decide +kernel), meetsE (by decide +kernel), meetsR (by decide +kernel), meetsR (by decide +kernel), meetsR (by decide +kernel)⟩, meetsI (by decide +kernel)⟩

theorem witness_PredicatesAndLanes :
    LanesMeet [(.n 0 false, .int, 1), (.const 31, .int, 1)] [(.n 0 false, .int, 1), (.wq 0 false, .int, 1)] ∧
    LanesMeet [(.g 63 false, .int, 2), (.const 0, .int, 2)] [(.g 63 false, .int, 2), (.wq 0 false, .int, 2)] ∧ (∃ c rd, Passes w0 t0 c ∧ c.read (spent w0) [] = .ok rd ∧ c.act ≠ 0) ∧
    (∃ c rd, Passes w0 t0 c ∧ c.read (spent w0) [(.q 0, .int, 1)] = .ok rd ∧ c.act ≠ 0) :=
  ⟨⟨meetsR (by decide +kernel), meetsR (by decide +kernel), meetsE (by decide +kernel), meetsR (by decide +kernel), meetsR (by decide +kernel), meetsR (by decide +kernel)⟩,
   ⟨meetsR (by decide +kernel), meetsR (by decide +kernel), meetsE (by decide +kernel), meetsR (by decide +kernel), meetsR (by decide +kernel), meetsR (by decide +kernel)⟩,
   meetsR (by decide +kernel), meetsR (by decide +kernel)⟩

theorem witness_FloatWords :
    LanesMeet [(.n 31 true, .fp f32, 1), (.const 31, .fp f32, 1), (.q 15, .fp f32, 1)] [(.n 31 true, .fp f32, 1), (.const 31, .fp f32, 1), (.wq 0 false, .fp f32, 1)] ∧
    LanesMeet [(.n 0 false, .packed bf16, 1)] [(.wq 0 false, .packed bf16, 1)] ∧
    LanesMeet [(.n 30 false, .fp f64, 2), (.g 0 false, .fp f64, 2)] [(.n 30 false, .fp f64, 2), (.wq 0 false, .fp f64, 2)] ∧
    ([Instr.frcpF32, .frsqF32, .fsqrtF32, .fexp2F32, .flog2F32, .fsinF32, .fcosF32])[6]? = some Instr.fcosF32 :=
  ⟨⟨meetsR (by decide +kernel), meetsR (by decide +kernel), meetsE (by decide +kernel), meetsR (by decide +kernel), meetsR (by decide +kernel), meetsR (by decide +kernel)⟩,
   ⟨meetsR (by decide +kernel), meetsR (by decide +kernel), meetsE (by decide +kernel), meetsR (by decide +kernel), meetsR (by decide +kernel), meetsR (by decide +kernel)⟩,
   ⟨meetsR (by decide +kernel), meetsR (by decide +kernel), meetsE (by decide +kernel), meetsR (by decide +kernel), meetsR (by decide +kernel), meetsR (by decide +kernel)⟩, rfl⟩

theorem witness_FloatResultsAreRounded :
    f32 ∈ [f64, f32, f16, bf16] ∧ 0x7F7FFFFF < 2 ^ f32.width ∧ finite f32 0x7F7FFFFF = true ∧ finite f32 0x80000001 = true ∧ finite f32 0 = true ∧
    f64 ∈ [f64, f32, f16, bf16] ∧ 0xFFEFFFFFFFFFFFFF < 2 ^ f64.width ∧ finite f64 0xFFEFFFFFFFFFFFFF = true := by decide +kernel

theorem witness_FloatSpecialOperands :
    (0x7F800001 < 2 ^ f32.width ∧ isNaN f32 0x7F800001 = true ∧ isSNaN f32 0x7F800001 = true ∧ (2 : Nat) < 3) ∧
    (magnitude f32 0x7F800000 = f32.infBits ∧ magnitude f32 0xFF800000 = f32.infBits ∧ negative f32 0x7F800000 ≠ negative f32 0xFF800000) ∧
    (magnitude f32 (flushed f32 true 0x00000001) = 0 ∧ magnitude f32 0xFF800000 = f32.infBits) ∧
    (isNaN f32 0x7FC00000 = true ∧ magnitude f32 (flushed f32 false 0x3F800000) ≠ 0 ∧ magnitude f32 0x3F800000 ≠ f32.infBits) ∧
    (finite f16 0x8001 = true ∧ magnitude f16 (flushed f16 false 0x8001) ≠ 0 ∧ negative f16 0x8001 = true) ∧
    (magnitude bf16 (flushed bf16 true 0x8001) = 0 ∧ 0x3F80 = bf16.bias * 2 ^ bf16.fb ∧ 0xFF80 = bf16.signed true bf16.infBits) ∧
    LanesMeet [(.n 0 false, .fp f32, 1), (.n 31 false, .fp f32, 1)] [(.n 0 false, .fp f32, 1), (.wq 0 false, .fp f32, 1)] ∧
    LanesMeet [(.n 0 false, .fp f64, 2), (.n 30 false, .fp f64, 2)] [(.n 0 false, .fp f64, 2), (.wq 0 false, .fp f64, 2)] :=
  ⟨by decide +kernel, by decide +kernel, by decide +kernel, by decide +kernel, by decide +kernel, by decide +kernel,
   ⟨meetsR (by decide +kernel), meetsR (by decide +kernel), meetsE (by decide +kernel), meetsR (by decide +kernel), meetsR (by decide +kernel), meetsR (by decide +kernel)⟩,
   ⟨meetsR (by decide +kernel), meetsR (by decide +kernel), meetsE (by decide +kernel), meetsR (by decide +kernel), meetsR (by decide +kernel), meetsR (by decide +kernel)⟩⟩

theorem witness_Conversion :
    LanesMeet [(.n 0 false, cvtCk 0, 1)] [(.wq 0 false, cvtCk 0, 1)] ∧
    LanesMeet [(.n 30 false, cvtCk 3, 2)] [(.wq 0 false, cvtCk 3, 2)] ∧
    ((0xC4 : Nat) = rn8 52 % 2 ^ 8 ∨ rn8 52 = rn8 52) ∧ (-52 : Int) ≤ 52 ∧ (∀ n : Int, n ∈ [-52, 0, 52] → rn8 n < 256) ∧
    isReal (.fin true 1 0 0) ∧ isReal (.zero false) ∧ cvtSource false 6 3 0xFF000000 = (.zero false, flNV) :=
  ⟨⟨meetsR (by decide +kernel), meetsR (by decide +kernel), meetsE (by decide +kernel), meetsR (by decide +kernel), meetsR (by decide +kernel), meetsR (by decide +kernel)⟩,
   ⟨meetsR (by decide +kernel), meetsR (by decide +kernel), meetsE (by decide +kernel), meetsR (by decide +kernel), meetsR (by decide +kernel), meetsR (by decide +kernel)⟩,
   Or.inr rfl, by decide +kernel, by decide +kernel, Nat.one_ne_zero, trivial, by decide +kernel⟩

theorem witness_PackingRandomTopKAndFlags :
    LanesMeet [(.n 0 false, .int, 1), (.n 31 false, .int, 1)] [(.n 0 false, .int, 1), (.wq 0 false, .int, 1)] ∧
    LanesMeet [(.n 0 false, .int, 1), (.n 30 false, .int, 2)] [(.n 0 false, .int, 1), (.wq 0 false, .int, 2)] ∧
    (∃ c, Issues w0 t0 c ∧ c.act ≠ 0) ∧ ∃ c, Issues w0 t1 c ∧ c.act = 0 :=
  ⟨⟨meetsR (by decide +kernel), meetsR (by decide +kernel), meetsE (by decide +kernel), meetsR (by decide +kernel), meetsR (by decide +kernel), meetsR (by decide +kernel)⟩,
   ⟨meetsR (by decide +kernel), meetsR (by decide +kernel), meetsE (by decide +kernel), meetsR (by decide +kernel), meetsR (by decide +kernel), meetsR (by decide +kernel)⟩,
   meetsI (by decide +kernel), meetsI (by decide +kernel)⟩

theorem witness_ResidueCellsAreExact :
    (-8388480 ≤ total [-8388480] ∧ total [-8388480] ≤ 8388479) ∧ (-8388480 ≤ total [8388479] ∧ total [8388479] ≤ 8388479) ∧
    (∃ k : Int, k ≠ 0 ∧ -251 < k ∧ k < 251 ∧ -8388480 ≤ total [8388480] - k * 16776960 ∧ total [8388480] - k * 16776960 ≤ 8388479) :=
  ⟨by decide +kernel, by decide +kernel, 1, by decide +kernel⟩

theorem witness_BranchTargetRegisters :
    (∃ c, Issues w0 t1 c ∧ c.act = 0) ∧ (∃ c, Issues (wG [2 ^ 48]) t0 c ∧ c.act ≠ 0 ∧ 2 ^ 48 ≤ (c.tk.g.getD 10 0).toNat) ∧
    (∃ c, Issues (wG [2 ^ 48 - 1]) t0 c ∧ c.act ≠ 0 ∧ (c.tk.g.getD 10 0).toNat < 2 ^ 48 ∧ (c.tk.g.getD 10 0).toNat % 8 ≠ 0) ∧
    (∃ c, Issues (wG [2 ^ 48 - 8]) t0 c ∧ c.act ≠ 0 ∧ (c.tk.g.getD 10 0).toNat < 2 ^ 48 ∧ (c.tk.g.getD 10 0).toNat % 8 = 0) ∧
    w0.slot? 1 0 0 = some wSlot :=
  ⟨meetsI (by decide +kernel), meetsI (by decide +kernel), meetsI (by decide +kernel), meetsI (by decide +kernel), by decide +kernel⟩

theorem witness_TransferOfControl :
    (∃ c, Issues w0 t0 c ∧ (c.sl.bregs.getD 7 {}).state = .unprep) ∧
    (∃ c, Issues (wTkd wSplit) t0 c ∧ (c.sl.bregs.getD 0 {}).state ≠ .unprep ∧ c.act = c.sl.mask) ∧
    (∃ c, Issues (wTkd { wSplit with p := [0] }) t1 c ∧ (c.sl.bregs.getD 0 {}).state ≠ .unprep ∧ c.act = 0 ∧ c.sl.mask ≠ 0) ∧
    (∃ c, Issues (wTkd wSplit) t1 c ∧ (c.sl.bregs.getD 1 {}).state ≠ .unprep ∧ c.act ≠ 0 ∧ c.act ≠ c.sl.mask ∧
      (c.sl.bregs.getD 7 {}).state = .unprep) ∧
    (∃ c, Issues (wTkd { wSplit with stack := List.replicate 64 ⟨0, 0, none, 0, true⟩ }) t1 c ∧ (c.sl.bregs.getD 0 {}).state ≠ .unprep ∧
      c.act ≠ 0 ∧ c.act ≠ c.sl.mask ∧ (c.sl.bregs.getD 1 {}).state ≠ .unprep ∧
      64 < c.tk.stack.length + (if (c.tk.slots.getD (1 - c.k) {}).valid then 2 else 1)) ∧
    (∃ c, Issues (wTkd { wSplit with stack := List.replicate 63 ⟨0, 0, none, 0, true⟩ }) t1 c ∧ c.tk.slots.length = 2 ∧
      (c.sl.bregs.getD 0 {}).state ≠ .unprep ∧ (c.sl.bregs.getD 1 {}).state ≠ .unprep ∧ c.act ≠ 0 ∧ c.act ≠ c.sl.mask ∧
      (c.sl.bregs.getD 0 {}).target ≠ (c.sl.bregs.getD 1 {}).target ∧ (c.tk.slots.getD (1 - c.k) {}).lone = false ∧
      c.tk.stack.length + (if (c.tk.slots.getD (1 - c.k) {}).valid then 2 else 1) ≤ 64 ∧ (c.tk.slots.getD (1 - c.k) {}).valid = false) ∧
    (∃ c, Issues (wTkd { wSplit2 with stack := List.replicate 62 ⟨0, 0, none, 0, true⟩ }) t1 c ∧ c.tk.slots.length = 2 ∧
      (c.sl.bregs.getD 0 {}).state ≠ .unprep ∧ (c.sl.bregs.getD 1 {}).state ≠ .unprep ∧ c.act ≠ 0 ∧ c.act ≠ c.sl.mask ∧
      (c.sl.bregs.getD 0 {}).target ≠ (c.sl.bregs.getD 1 {}).target ∧ (c.tk.slots.getD (1 - c.k) {}).lone = false ∧
      c.tk.stack.length + (if (c.tk.slots.getD (1 - c.k) {}).valid then 2 else 1) ≤ 64 ∧ (c.tk.slots.getD (1 - c.k) {}).valid = true) :=
  ⟨meetsI (by decide +kernel), meetsI (by decide +kernel), meetsI (by decide +kernel), meetsI (by decide +kernel), meetsI (by decide +kernel), meetsI (by decide +kernel), meetsI (by decide +kernel)⟩

theorem witness_ExitStagingAndCode :
    (∃ c, Issues w0 t1 c ∧ c.act = 0) ∧ (∃ c, Issues (wTkd wSplit) t1 c ∧ c.act ≠ 0 ∧ c.act ≠ c.sl.mask) ∧
    (∃ c, Issues (wG [2 ^ 33]) t0 c ∧ c.act ≠ 0 ∧ c.act = c.sl.mask ∧ 2 ^ 33 ≤ (c.tk.g.getD 10 0).toNat) ∧
    (∃ c, Issues (wG [2 ^ 32 + 4080]) t0 c ∧ c.act ≠ 0 ∧ c.act = c.sl.mask ∧ (c.tk.g.getD 10 0).toNat < 2 ^ 33 ∧
      (c.tk.g.getD 10 0).toNat % 2 ^ 32 < c.x.foot.sp ∧ (c.tk.g.getD 10 0).toNat % 16 = 0) ∧
    (∃ c, Issues (wTkd wSplit2) t0 c ∧ c.tk.slots.all (fun x => x.valid) = true) ∧
    (∃ c, Issues w0 t0 c ∧ c.tk.m.length < 8 + 1) ∧
    (∃ c, Issues (wTkd { wTk with home := some 7 :: List.replicate 31 none }) t0 c ∧ c.tk.home[0]? = some (some 7) ∧ 0 < 1 ∧ 7 ≤ 7 ∧ 7 < 7 + 1) ∧
    (∃ c, Issues w0 t0 c ∧ ¬ c.tk.slots.all (fun x => x.valid) = true ∧ 0 + 8 ≤ c.tk.m.length ∧ (∀ h ∈ c.tk.home, h = none) ∧
      (∀ i ∈ w0.dev.injs, ¬ (i.array = 2 ∧ i.home = c.core))) ∧
    (∃ c, Issues w0 t0 c ∧ c.tk.home.getD 31 none = none) ∧
    (∃ c, Issues (wTkd { wTk with home := some 0 :: List.replicate 31 none }) t0 c ∧ ¬ c.tk.slots.all (fun x => x.valid) = true ∧
      c.tk.home.getD 0 none ≠ none ∧ ∀ i ∈ w0.dev.injs, ¬ (i.array = 3 ∧ i.home = c.core)) ∧
    (∃ c, Passes w0 t1 c ∧ c.act = 0) ∧
    (∃ c, Passes (wTkd wSplit) t0 c ∧ c.act ≠ 0 ∧ (spent (wTkd wSplit)).ownWrites c.g c.t c.k = [] ∧
      (spent (wTkd wSplit)).fifoAll (c.core / 8) ≤ (wTkd wSplit).now ∧ c.tk.active.isSome = true ∧ c.x.core = some c.core ∧
      (wTkd wSplit).slot? c.g c.t 0 = some c.sl ∧ (c.sl.bregs[0]?).map (·.state) = some .prep) :=
  ⟨meetsI (by decide +kernel), meetsI (by decide +kernel), meetsI (by decide +kernel), meetsI (by decide +kernel), meetsI (by decide +kernel), meetsI (by decide +kernel), meetsI (by decide +kernel),
   meetsI (by decide +kernel), meetsI (by decide +kernel), meetsI (by decide +kernel), meetsP (by decide +kernel), meetsP (by decide +kernel)⟩

theorem witness_SourcesAreRead :
    (∃ c, w0.ctx? t0 = some c ∧ (∀ i ∈ w0.dev.injs, ¬ (i.array = 3 ∧ i.home = c.core)) ∧
      (∀ w ∈ ([(.n 31 true, .int, 1), (.special .clk, .int, 2)] : List Want), pops w.1 = false) ∧ ¬ c.tk.slots.all (fun z => z.valid) = true ∧
      w0.tk? c.g c.t = some c.tk) ∧
    (∃ c, (wTkd wSplit2).ctx? t0 = some c ∧ c.tk.slots.all (fun z => z.valid) = true ∧ pops (.n 0 true) = false) ∧
    (∃ c, (wQd 1).ctx? t0 = some c ∧ (wQd 1).gang? c.g = some c.x ∧ (wQd 1).tk? c.g c.t = some c.tk ∧ (wQd 1).part? c.x.part = some wPart ∧
      c.act ≠ 0 ∧ wqueue c (wQd 1) 0 = none ∧ wqueue c (wQd 1) 3 = some (wQ 1) ∧ (wQ 1).head ∈ (wQ 1).visible) ∧
    (∃ c, (wQd 0).ctx? t0 = some c ∧ c.act ≠ 0 ∧ wqueue c (wQd 0) 3 = some (wQ 0) ∧ (wQ 0).head ∉ (wQ 0).visible) ∧
    (∃ c, (wQd 0).ctx? t1 = some c ∧ c.act = 0) ∧
    (let st : Machine.Stream := { bound := true, count := 64, next := 32, started := true, fifo := [List.replicate 32 7] }
     let ended : Machine.Stream := { bound := true, count := 32, next := 32, started := true }
     let waits : Machine.Stream := { bound := true, count := 33, next := 32, started := true }
     let s := wTkd { wTk with s := [{}, st, ended, waits] }
     ∃ c, s.ctx? t0 = some c ∧ c.act ≠ 0 ∧ s.tk? c.g c.t = some c.tk ∧ c.tk.s[0]? = some ({} : Machine.Stream) ∧ ({} : Machine.Stream).bound = false ∧
       c.tk.s[1]? = some st ∧ st.fifo = List.replicate 32 7 :: [] ∧ c.tk.s[2]? = some ended ∧ ended.fifo = [] ∧ ended.count ≤ ended.next ∧
       c.tk.s[3]? = some waits ∧ waits.fifo = [] ∧ waits.next < waits.count ∧ waits.faulted = false) :=
  ⟨has (by decide +kernel), has (by decide +kernel), has (by decide +kernel), has (by decide +kernel), has (by decide +kernel), has (by decide +kernel)⟩

theorem witness_ResultsLand :
    (let r : Result := { nreg := some (30, 2), greg := some (63, true), preds := [(6, 1)], entry := some 15, qslots := [0], mask := 0x80000001, vals := List.replicate 32 9 }
     let o := { wOp (.result r) with tag := 7, tagSlots := [0] }
     let s := wOps [o]
     s.op? 0 = some o ∧ o.kind = .result r ∧ s.opDue o = true ∧ s.tk? o.gang o.tk = some wTk ∧ r.wpush = none ∧ r.wrsr = none ∧
       wTk.parked = false ∧ o.tag ≠ 0 ∧ wTk.slots[0]? = some wSlot) ∧
    (let r : Result := { mask := 1, wrsr := some (0x01B, 3) }
     let o := wOp (.result r)
     let s := wOps [o]
     s.op? 0 = some o ∧ s.opDue o = true ∧ s.tk? o.gang o.tk = some wTk ∧ r = { mask := r.mask, inHandler := r.inHandler, wrsr := some (0x01B, 3) }) ∧
    (let r : Result := { mask := 0x80000000, vals := List.replicate 32 9, wpush := some (3, 32) }
     let o := wOp (.result r)
     let s := { wQd 1 with ops := [o], nextOp := 1 }
     s.op? 0 = some o ∧ s.opDue o = true ∧ s.gang? o.gang = some ({ wGang wTk with wqs := [none, none, none, some (wQ 1)] } : Gang) ∧
       Memory.wf (wGang wTk).sp = true ∧ ([none, none, none, some (wQ 1)] : List (Option WQueue))[3]? = some (some (wQ 1)) ∧
       r = { mask := r.mask, vals := r.vals, inHandler := r.inHandler, wpush := some (3, 32) }) := by decide +kernel

theorem witness_AccessesGoOut :
    CheckMeets (wTkd (wT false)) w0 [(.n 0 false, .int, 1)] [(.wq 0 false, .int, 1)] (List LanePa)
      (fun c rd s => c.globalLanes s (c.part s) 0 (once (.n 8) (lanesAt c rd (31 * 4))) 4 .read 0 true) ∧
    CheckMeets (wN 4080 0) (wN 4096 0) [(.n 0 false, .int, 1)] [(.wq 0 false, .int, 1)] (List LanePa)
      (fun c rd s => scratchCheck c s (once (.g 8 false) (lanesAt c rd 0)) 16 false) ∧
    CheckMeets (wTkd (wT true)) w0 [(.n 0 false, .int, 1), (.n 4 false, .int, 4)] [(.n 0 false, .int, 1), (.wq 0 false, .int, 4)] (List LanePa)
      (fun c rd s => c.globalLanes s (c.part s) 0 (lanesAt c rd 0) 16 .write 1 true) ∧
    CheckMeets (wTkd (wT true)) w0 [(.n 0 false, .int, 1), (.n 31 false, .int, 1)] [(.n 0 false, .int, 1), (.wq 0 false, .int, 1)] (List LanePa)
      (fun c rd s => c.globalLanes s (c.part s) 0 ((lanesAt c rd 31).map (fun e => (e.1, e.2 / 2))) 1 .write 2 true) ∧
    CheckMeets (wTkd (wT true)) w0 [(.n 0 false, .int, 1), (.n 28 false, .int, 4)] [(.n 0 false, .int, 1), (.wq 0 false, .int, 4)] (List LanePa)
      (fun c rd s => c.globalLanes s (c.part s) 0 (lanesAt c rd 0) 8 .write 2 true) := by
  refine ⟨?_, ?_, ?_, ?_, ?_⟩ <;> exact checkMeets (by decide +kernel) (by decide +kernel) (by decide +kernel) (by decide +kernel)

theorem witness_LaneAddresses :
    (let s := w0
     s.tk? 1 0 = some wTk ∧ wTk.t[7]? = some ({} : TReg) ∧ ({} : TReg).bound = false ∧ [((31 : Nat), (0 : Int))] ≠ []) ∧
    (let r : TReg := { bound := true, base := 0x10000, frame := 0x200000, limit := 65536, w := false }
     let s := wTkd (wT false)
     let va := fun (o : Int) => (((r.base.toNat : Int) + o) % 2 ^ 64).toNat
     s.tk? 1 0 = some (wT false) ∧ (wT false).t[0]? = some r ∧ [((0 : Nat), (2 : Int))].filter (fun o => va o.2 % 4 ≠ 0) ≠ [] ∧
       [((0 : Nat), (65532 : Int))].filter (fun o => va o.2 % 4 ≠ 0) = [] ∧ r.retrans = false ∧ (0 : Int) ≤ 65532 ∧ (65532 : Int) + 4 ≤ r.limit ∧
       r.w = false ∧ (s.core 0).locks = [] ∧ r.s = false) ∧
    (let out := [((31 : Nat), (4096 : Int))].filter (fun o => (wGang wTk).foot.sp ≤ (o.2 % 2 ^ 32).toNat)
     out ≠ []) ∧
    (let out := [((31 : Nat), (4094 : Int))].filter (fun o => (wGang wTk).foot.sp ≤ (o.2 % 2 ^ 32).toNat)
     let odd := [((31 : Nat), (4094 : Int))].filter (fun o => (o.2 % 2 ^ 32).toNat % 4 ≠ 0)
     out = [] ∧ odd ≠ []) ∧
    (let out := [((31 : Nat), (4092 : Int))].filter (fun o => (wGang wTk).foot.sp ≤ (o.2 % 2 ^ 32).toNat)
     let odd := [((31 : Nat), (4092 : Int))].filter (fun o => (o.2 % 2 ^ 32).toNat % 4 ≠ 0)
     out = [] ∧ odd = [] ∧ (w0.core 0).locks = [] ∧ ∀ x ∈ w0.gang? 1, ∀ w ∈ x.windows, w = none) := by decide +kernel

theorem witness_AccessesArePerformed :
    (let a : Acc := { lane := 31, glob := true, addr := 0x200000, size := 8, act := .read, at_ := 1 }
     let o := wOp (.load (.n 30 2) false [a] false)
     let s := wOps [o]
     o ∈ s.ops ∧ [a][0]? = some a ∧ a.glob = true ∧ a.done = false ∧ a.at_ ≤ s.now + 1) ∧
    (let a : Acc := { lane := 31, glob := true, addr := 0x200000, size := 1, act := .read, at_ := 0, done := true, val := 0x80 }
     let o := wOp (.load (.g 63) true [a] true)
     let s := wOps [o]
     s.op? 0 = some o ∧ s.opDue o = true ∧ (∀ b ∈ [a], b.done = true ∧ b.lane < 32) ∧ s.tk? o.gang o.tk = some wTk ∧
       ([a].map (fun b => b.lane)).Nodup ∧ wTk.parked = false) ∧
    (let a : Acc := { lane := 0, glob := true, addr := 0x200000, size := 8, act := .rmw 7 1, at_ := 0 }
     let o := wOp (.atom .none [a] false)
     let s := wOps [o]
     s.op? 0 = some o ∧ [a][0]? = some a ∧ accReady (s.accClk o a) [a] 0 = true ∧ s.gang? o.gang = some (wGang wTk) ∧ 0 < a.size ∧
       s.mem.wf = true ∧ Memory.wf (wGang wTk).sp = true) ∧
    (let a : Acc := { lane := 0, glob := false, addr := 4095, size := 1, act := .nib true 9, at_ := 0 }
     let o := wOp (.store [a])
     let s := wOps [o]
     s.op? 0 = some o ∧ accReady (s.accClk o a) [a] 0 = true ∧ s.gang? o.gang = some (wGang wTk) ∧ a.size = 1) := by decide +kernel

theorem witness_TranslationRegisters :
    (∃ c rd, Passes w0 t0 c ∧ c.read (spent w0) [(.n 0 false, .int, 1)] = .ok rd ∧ w0.part? c.x.part = some wPart ∧ rd.p6 = none ∧
      (c.tk.t.getD 7 {}).bound = false ∧ w0.mem.wf = true ∧ w0.sound = true) ∧
    (∃ c, Issues w0 t1 c ∧ c.act = 0) ∧
    (∃ c, Issues (wG [2 ^ 48]) t0 c ∧ c.act ≠ 0 ∧ 2 ^ 48 ≤ (c.tk.g.getD 10 0).toNat) ∧
    (∃ c, Issues ({ wG [0x10000] with mem := Memory.write [] 0 8 0x20000F } : State) t0 c ∧ c.act ≠ 0 ∧ (c.tk.g.getD 10 0).toNat < 2 ^ 48 ∧
      ((spent ({ wG [0x10000] with mem := Memory.write [] 0 8 0x20000F } : State)).translate c.core wPart c.x.tenant (c.tk.g.getD 10 0).toNat .read c.tk.sup (c.reader w0)).2 = .xlate) ∧
    (∃ c, Issues ({ wG [0x10000] with mem := (loadTables []).write 0x142008 8 0x100020000F } : State) t0 c ∧ c.act ≠ 0 ∧
      ((spent ({ wG [0x10000] with mem := (loadTables []).write 0x142008 8 0x100020000F } : State)).translate c.core wPart c.x.tenant 0x10000 .read c.tk.sup (c.reader w0)).2 = .prot) ∧
    (∃ c, Issues (wG [0x10000]) t0 c ∧ c.act ≠ 0 ∧ (c.tk.g.getD 10 0).toNat < 2 ^ 48 ∧
      ((spent (wG [0x10000])).translate c.core wPart c.x.tenant 0x10000 .read c.tk.sup (c.reader w0)).2 = .absent 0 ∧
      (c.walkFault ((spent (wG [0x10000])).translate c.core wPart c.x.tenant 0x10000 .read c.tk.sup (c.reader w0)).1 0
        (((List.range 32).filter (fun l => c.act.getLsbD l)).map (fun l => (l, Walk.absent 0, 0x10000)))).isSome = true) ∧
    (∃ s' a f pg e b w x lines, (spent (wMG [0x10000])).translate 0 wPart 0 0x10000 .read false (some (0, 0, 0)) = (s', .pa a f pg e b w x lines) ∧ True) ∧
    (let o := wOp (.tbind 7 { bound := true, base := 0x10000 })
     let s := { wOps [o] with mem := loadTables [] }
     s.op? 0 = some o ∧ s.opDue o = true ∧ s.gang? o.gang = some (wGang wTk) ∧ s.tk? o.gang o.tk = some wTk ∧ s.part? 0 = some wPart ∧
       walk s.mem wPart 0 0x10000 .host true = .pa 0x200000 0x200000 65536 0x142008 false true true [0, 10240, 10272, 10304] ∧ 7 < wTk.t.length) :=
  ⟨meetsR (by decide +kernel), meetsI (by decide +kernel), meetsI (by decide +kernel), meetsI (by decide +kernel), meetsI (by decide +kernel), meetsI (by decide +kernel), mapped (by decide +kernel), by decide +kernel⟩

theorem witness_TagTableOperations :
    [0, 1, 2, 3].find? (fun n => wTab.lines.getD n none == some (127 / wTab.z)) = some 3 ∧
    (∀ n ∈ [4, 5, 6, 7], wTab.lines.getD n none ≠ some (128 / wTab.z)) ∧
    (∃ c rd, Passes w0 t1 c ∧ c.read (spent w0) [(.n 30 false, .int, 2)] = .ok rd ∧ c.act = 0) ∧
    (∃ c rd, Passes w0 t0 c ∧ c.read (spent w0) [(.n 30 false, .int, 2)] = .ok rd ∧ c.act ≠ 0 ∧
      ((rd.s.gang? c.g).bind (fun x => x.tags)).isNone = true) ∧
    (let s := wWith { wGang wTk with tags := some wTab }
     ∃ c rd, Passes s t0 c ∧ c.read (spent s) [(.n 30 false, .int, 2)] = .ok rd ∧ c.act ≠ 0 ∧ (rd.s.gang? c.g).any (fun x => x.tags == some wTab) = true) :=
  ⟨by decide +kernel, by decide +kernel, meetsR (by decide +kernel), meetsR (by decide +kernel), meetsR (by decide +kernel)⟩

theorem witness_FencesAndEntryConsistency :
    (∃ c, Passes w0 t0 c ∧ (spent w0).ownReads c.g c.t c.k = [] ∧ (spent w0).ownWrites c.g c.t c.k = [] ∧ c.ownBanks (spent w0) = [] ∧
      (spent w0).fifoAll (c.core / 8) ≤ w0.now) ∧
    (∃ c, Passes (wOps [wStore true]) t0 c ∧ c.sl.phase.started = false ∧ (spent (wOps [wStore true])).ownWrites c.g c.t c.k ≠ [] ∧
      (spent (wOps [wStore true])).coreWrites c.core false true ≠ []) ∧
    (∃ c, Passes (wOps [wStore false]) t0 c ∧ c.ownBanks (spent (wOps [wStore false])) ≠ [] ∧
      (spent (wOps [wStore false])).coreWrites c.core true false ≠ []) ∧
    (∃ c, Passes (wTkd { wTk with slots := [{ wSlot with phase := { started := true, granted := true } }, {}] }) t0 c ∧
      c.sl.phase.started = true ∧ c.sl.phase.granted = true) ∧
    (let s := wWith { wGang wTk with bwq := [{ at_ := 10, addr := 0, byte := 1 }] }
     ∃ c, Passes s t0 c ∧ (spent s).coreWrites c.core true true = [] ∧ c.clk < (spent s).banksEmptyAt c.core ∧ c.sl.phase.granted = false) ∧
    (∃ c, Passes w0 t1 c ∧ c.act = 0) ∧
    (∃ c, Passes (wG [1]) t0 c ∧ c.act ≠ 0 ∧ (c.tk.uval g10).toNat % 8 ≠ 0) ∧
    (∃ c a, Passes (wMG [0x1FFF8]) t0 c ∧ c.single (spent (wMG [0x1FFF8])) (c.part (wMG [0x1FFF8])) (c.tk.uval g10) 8 .read 0 = .ok a ∧
      c.act ≠ 0 ∧ a.1.sound = true) ∧
    (∃ c a, Passes (wMG [0x10000]) t0 c ∧ c.single (spent (wMG [0x10000])) (c.part (wMG [0x10000])) (c.tk.uval g10) 8 .write 2 = .ok a ∧
      c.act ≠ 0 ∧ True) ∧
    (∃ c, Passes (wG [127]) t0 c ∧ c.act ≠ 0 ∧ (c.tk.uval g10).toNat % 128 ≠ 0) ∧
    (∃ c, Passes (wG [128, 64]) t0 c ∧ c.act ≠ 0 ∧ (c.tk.uval g10).toNat % 128 = 0 ∧ (c.tk.uval g11).toNat % 128 ≠ 0) ∧
    (∃ c, Passes (wG [128, 128, 4]) t0 c ∧ c.act ≠ 0 ∧ (c.tk.uval g10).toNat % 128 = 0 ∧ (c.tk.uval g11).toNat % 128 = 0 ∧
      (c.tk.uval g12).toNat % 8 ≠ 0) ∧
    (∃ c, Passes (wG [128, 0, 8]) t0 c ∧ c.act ≠ 0 ∧ (c.tk.uval g10).toNat % 128 = 0 ∧ (c.tk.uval g11).toNat = 0 ∧
      (c.tk.uval g12).toNat % 8 = 0) ∧
    (∃ c, Passes (wG [128, 128, 8]) t0 c ∧ c.act ≠ 0 ∧ (c.tk.uval g10).toNat % 128 = 0 ∧ (c.tk.uval g11).toNat ≠ 0 ∧
      (c.tk.uval g12).toNat % 8 = 0) ∧
    (let o := { wOp (.rbind true (some (128, 2 ^ 48 - 128, 8))) with who := some (0, 0) }
     let s := wOps [o]
     s.op? 0 = some o ∧ s.opDue o = true ∧ s.gang? o.gang = some (wGang wTk) ∧ s.tk? o.gang o.tk = some wTk ∧ s.part? 0 = some wPart ∧
       o.who = some ((wGang wTk).part, (wGang wTk).tenant) ∧ wTk.p[6]? = some 0 ∧ wPart.binds.length < 1024 ∧ 128 + (2 ^ 48 - 128) ≤ 2 ^ 48) ∧
    (let a : Acc := { lane := 0, glob := true, addr := 0x200000, size := 8, act := .rmw 0 1, at_ := 0 }
     let o := wOp (.relE a 0)
     (wOps [o]).op? 0 = some o ∧ a.done = false ∧ a.at_ ≤ (wOps [o]).now ∧ (wOps [o]).mem.wf = true) :=
  ⟨meetsP (by decide +kernel), meetsP (by decide +kernel), meetsP (by decide +kernel), meetsP (by decide +kernel), meetsP (by decide +kernel), meetsP (by decide +kernel), meetsP (by decide +kernel),
   meetsG (by decide +kernel), meetsG (by decide +kernel), meetsP (by decide +kernel), meetsP (by decide +kernel), meetsP (by decide +kernel), meetsP (by decide +kernel), meetsP (by decide +kernel),
   by decide +kernel, by decide +kernel⟩

theorem witness_Barriers :
    (∃ c, Passes w0 t1 c ∧ c.act = 0) ∧
    (∃ c, Passes (wG [0, 1, 2 ^ 24]) t0 c ∧ c.act ≠ 0 ∧ (c.tk.uval g12).toNat / 2 ^ 24 % 2 ^ 7 ≠ 0) ∧
    (∃ c, Passes (wG [4096, 1, 2 ^ 32 - 1 - 127 * 2 ^ 24]) t0 c ∧ c.act ≠ 0 ∧ (c.tk.uval g12).toNat / 2 ^ 24 % 2 ^ 7 = 0 ∧
      (c.tk.uval g12).toNat < 2 ^ 32 ∧ c.x.foot.sp ≤ (c.tk.uval g10).toNat) ∧
    (∃ c, Passes (wG [4088]) t0 c ∧ c.act ≠ 0 ∧ (c.tk.uval g10).toNat < c.x.foot.sp ∧ (c.tk.uval g10).toNat % 16 ≠ 0) ∧
    (∃ c, Passes (wG [4080, 1]) t0 c ∧ c.act ≠ 0 ∧ (c.tk.uval g10).toNat < 2 ^ 32 ∧ (c.tk.uval g10).toNat < c.x.foot.sp ∧
      (c.tk.uval g10).toNat % 16 = 0 ∧ ((wG [4080, 1]).core c.core).locks = [] ∧
      (∀ x ∈ (wG [4080, 1]).gang? c.g, ∀ w ∈ x.windows, w = none) ∧ c.ownAt (spent (wG [4080, 1])) false (c.tk.uval g10).toNat 16 = [] ∧
      c.x.phaseOf (c.tk.uval g10).toNat ≠ (c.tk.uval g11).getLsbD 0) ∧
    (∃ c, Passes (wG [4080]) t0 c ∧ c.x.phaseOf (c.tk.uval g10).toNat = (c.tk.uval g11).getLsbD 0) ∧
    (∃ c, Passes (wOps [wStore false]) t0 c ∧ c.ownBanks (spent (wOps [wStore false])) ≠ []) ∧
    (∃ c, Passes w0 t0 c ∧ c.ownBanks (spent w0) = [] ∧ w0.gang? c.g = some c.x ∧
      (∀ j ∈ List.range 1, (c.x.tks.getD j {}).slots.length = 2)) ∧
    (let o := wOp (.barrier 4080 2 1 0)
     let x := { wGang wTk with sp := Memory.write [] 4080 4 1 }
     let s := { wWith x with ops := [o], nextOp := 1 }
     s.op? 0 = some o ∧ s.opDue o = true ∧ s.gang? o.gang = some x ∧ Memory.wf x.sp = true ∧ s.arrivalComing o 4080 true = false ∧ s.storeRaces o.gang 4080 (some (o.tk, o.slot)) = false ∧
       Memory.read x.sp 4080 16 % 2 ^ 32 ≠ 0 ∧ Memory.read x.sp 4080 16 < 2 ^ 127) :=
  ⟨meetsP (by decide +kernel), meetsP (by decide +kernel), meetsP (by decide +kernel), meetsP (by decide +kernel), meetsP (by decide +kernel), meetsP (by decide +kernel), meetsP (by decide +kernel),
   meetsP (by decide +kernel), by decide +kernel⟩

theorem witness_Subscriptions :
    (let s := wTkd { wT true with n := List.replicate 32 65528 :: (List.range 32).map (fun _ => (List.range 32).map (fun l => BitVec.ofNat 32 (16 * l))) }
     CheckMeets s (wN 0 0) [(.n 0 false, .int, 1), (.n 1 false, .int, 1)] [(.n 0 false, .int, 1), (.wq 0 false, .int, 1)] (List LanePa)
       (fun c rd s => c.sublCheck s (c.part s) 0 (lanesAt c rd 0)
         (((List.range 32).filter (fun l => c.act.getLsbD l)).map (fun l => (l, ((rd.v.getD 1 []).getD l 0).toNat % 2 ^ 32))))) ∧
    (∃ c rd, Passes (wN 4080 0) t0 c ∧ c.read (spent (wN 4080 0)) [(.n 0 false, .int, 1)] = .ok rd ∧ c.act ≠ 0 ∧
      ∀ l ∈ List.range 32, ((rd.v.getD 0 []).getD l 0).toNat % 2 ^ 32 < c.x.foot.sp ∧ ((rd.v.getD 0 []).getD l 0).toNat % 2 ^ 32 % 16 = 0) ∧
    (∃ c rd, Passes (wN 4080 1) t0 c ∧ c.read (spent (wN 4080 1)) [(.n 0 false, .int, 1), (.n 1 false, .int, 1)] = .ok rd ∧ c.act ≠ 0 ∧
      ((wN 4080 1).core c.core).locks = [] ∧ (∀ x ∈ (wN 4080 1).gang? c.g, ∀ w ∈ x.windows, w = none) ∧
      ∀ l ∈ List.range 32, ((rd.v.getD 0 []).getD l 0).toNat % 2 ^ 32 < c.x.foot.sp ∧ c.ownAt (spent (wN 4080 1)) false 4080 16 = [] ∧
        Memory.read c.x.sp (4080 + 8) 2 ≠ ((rd.v.getD 1 []).getD l 0).toNat % 2 ^ 16) ∧
    (∃ c rd, Passes (wN 4080 0) t0 c ∧ c.read (spent (wN 4080 0)) [(.n 0 false, .int, 1), (.n 1 false, .int, 1)] = .ok rd ∧ c.act ≠ 0 ∧
      ∃ l ∈ List.range 32, Memory.read c.x.sp (4080 + 8) 2 = ((rd.v.getD 1 []).getD l 0).toNat % 2 ^ 16) ∧
    (let o := { wOp (.subl [(31, 0x200000, 4080, 0x142008)]) with who := some (0, 0) }
     let s := wOps [o]
     s.op? 0 = some o ∧ s.opDue o = true ∧ s.gang? o.gang = some (wGang wTk) ∧ s.tk? o.gang o.tk = some wTk ∧ s.part? 0 = some wPart ∧
       o.who = some ((wGang wTk).part, (wGang wTk).tenant) ∧ s.sound = true ∧ wTk.p[6]? = some 0 ∧ Memory.wf (wGang wTk).sp = true ∧ s.subs.find? (fun e => e.addr == 0x200000) = none ∧ s.subs = []) ∧
    (let o := wOp (.subl [(0, 0x200000, 0, 0x142008)])
     let s := { wOps [o] with subs := [{ addr := 0x200000, subs := [{ gang := 1, slot := 0 }] }] }
     s.op? 0 = some o ∧ s.opDue o = true ∧ ∃ e ∈ s.subs, ∃ q ∈ e.subs, q.gang = o.gang ∧ q.slot = 0) :=
  ⟨checkMeets (by decide +kernel) (by decide +kernel) (by decide +kernel) (by decide +kernel), meetsR (by decide +kernel), meetsR (by decide +kernel), meetsR (by decide +kernel), by decide +kernel, by decide +kernel⟩

theorem witness_FuturesAndQueueConfiguration :
    (∃ c, Passes w0 t1 c ∧ c.act = 0) ∧
    (∃ c e, Passes (wG [8]) t0 c ∧ c.act ≠ 0 ∧ c.cell (spent (wG [8])) (c.part (wG [8])) true true (c.tk.uval g10) = .error e) ∧
    (∃ c e, Passes (wG [4096]) t0 c ∧ c.act ≠ 0 ∧ c.cell (spent (wG [4096])) (c.part (wG [4096])) true false (c.tk.uval g10) = .error e) ∧
    (∃ c a, Passes (wG [4080]) t0 c ∧ c.cell (spent (wG [4080])) (c.part (wG [4080])) true true (c.tk.uval g10) = .ok a ∧ c.act ≠ 0 ∧
      a.2.2.getLsbD 64 = false ∧ a.1.mem.wf = true ∧ c.ownBanks a.1 = [] ∧ (a.1.gang? c.g).all (fun y => Memory.wf y.sp) = true) ∧
    (∃ c a, Passes (wMG [0x1FFF0]) t0 c ∧ c.cell (spent (wMG [0x1FFF0])) (c.part (wMG [0x1FFF0])) false true (c.tk.uval g10) = .ok a ∧ c.act ≠ 0 ∧
      a.2.2.getLsbD 64 = false ∧ a.1.mem.wf = true ∧ a.1.ownAccs c.g c.t c.k = [] ∧ a.1.fifoAll (c.core / 8) ≤ a.1.now) ∧
    (let s := { wMG [0x10000] with mem := (loadTables []).write 0x200008 1 1 }
     ∃ c a, Passes s t0 c ∧ c.cell (spent s) (c.part s) false true (c.tk.uval g10) = .ok a ∧ c.act ≠ 0 ∧ a.2.2.getLsbD 64 = true) ∧
    (let s := { wMG [0x10000] with mem := (loadTables []).write 0x200008 1 1 }
     ∃ c a, Passes s t0 c ∧ c.cell (spent s) (c.part s) false false (c.tk.uval g10) = .ok a ∧ c.act ≠ 0 ∧ a.2.2.getLsbD 64 = true) ∧
    (∃ c a, Passes (wMG [0x10000]) t0 c ∧ c.cell (spent (wMG [0x10000])) (c.part (wMG [0x10000])) false false (c.tk.uval g10) = .ok a ∧
      c.act ≠ 0 ∧ a.2.2.getLsbD 64 = false) ∧
    (∃ c, Passes (wG [0, 1]) t0 c ∧ c.act ≠ 0 ∧ (c.tk.uval g11).toNat ≠ 0 ∧ (c.tk.uval g11).toNat < 2) ∧
    (∃ c, Passes (wG [3968, 2]) t0 c ∧ c.act ≠ 0 ∧ 2 ≤ (c.tk.uval g11).toNat ∧ (c.tk.uval g10).toNat % 128 = 0 ∧
      c.x.foot.sp < (c.tk.uval g10).toNat + 128 * (c.tk.uval g11).toNat) ∧
    (∃ c, Passes (wG [2 ^ 32, 1024]) t0 c ∧ c.act ≠ 0 ∧ (c.tk.uval g11).toNat ≤ 1024 ∧ (c.tk.uval g10).toNat % 128 = 0 ∧
      2 ^ 32 ≤ (c.tk.uval g10).toNat) ∧
    (∃ c, Passes (wG [0, 0]) t0 c ∧ c.act ≠ 0 ∧ (spent (wG [0, 0])).pushing c.g 3 = [] ∧ (c.tk.uval g11).toNat = 0) ∧
    (∃ c, Passes (wG [3840, 2]) t0 c ∧ c.act ≠ 0 ∧ (spent (wG [3840, 2])).pushing c.g 3 = [] ∧ 2 ≤ (c.tk.uval g11).toNat ∧
      (c.tk.uval g10).toNat % 128 = 0 ∧ (c.tk.uval g10).toNat + 128 * (c.tk.uval g11).toNat ≤ c.x.foot.sp) ∧
    (let s := { wQd 1 with ops := [{ wOp (.result { mask := 1, wpush := some (3, 0) }) with at_ := 2 }], nextOp := 1 }
     ∃ c, Passes s t0 c ∧ c.act ≠ 0 ∧ (c.x.wqs[3]?).join ≠ none ∧ (spent s).pushing c.g 3 ≠ [] ∧ (c.tk.uval (.const 0)).toNat = 0) :=
  ⟨meetsP (by decide +kernel), meetsGE (by decide +kernel), meetsGE (by decide +kernel), meetsG (by decide +kernel), meetsG (by decide +kernel), meetsG (by decide +kernel), meetsG (by decide +kernel),
   meetsG (by decide +kernel), meetsP (by decide +kernel), meetsP (by decide +kernel), meetsP (by decide +kernel), meetsP (by decide +kernel), meetsP (by decide +kernel), meetsP (by decide +kernel)⟩

/-- The premises that the tile statements share. -/
abbrev TilesFree (s : State) (c : Ctx) : Prop :=
  s.ops.length = 0 ∧ s.dev.injs.length = 0 ∧ (s.core c.core).locks.length = 0 ∧ ∀ x ∈ s.gang? c.g, ∀ w ∈ x.windows, w = none

theorem witness_TileMovement :
    (∃ c, Acts (wTG []) t0 c ∧ TilesFree (wTG []) c ∧ c.x.xt[5]?.isNone = true ∧ c.x.yt[1]?.isNone = true) ∧
    (∃ c, Acts (wTG [0x1000000000000]) t0 c ∧ TilesFree (wTG [0x1000000000000]) c ∧ (c.x.xt[4]?).any (fun q => q.ctl == 0x3F0101) = true ∧
      0x1000000000000 ≤ (c.tk.g.getD 10 0).toNat ∧ ctlBits 0x3F0101 ≠ 0 ∧ ctlCols 0x3F0101 * ctlBits 0x3F0101 % 32 = 0 ∧ ctlValid 0x3F0101 = true) ∧
    (∃ c, Acts (wTG [3588 + 256 * 0x100000000]) t0 c ∧ (c.tk.g.getD 10 0).toNat < 0x1000000000000 ∧ c.x.foot.sp < 3588 + 256 + 256) ∧
    (∃ c, Acts (wTG [2 + 256 * 0x100000000]) t0 c ∧ 2 + 256 + 256 ≤ c.x.foot.sp ∧ (c.tk.g.getD 10 0).toNat % 0x100000000 % 4 ≠ 0) ∧
    (∃ c, Acts (wTG [3584 + 256 * 0x100000000]) t0 c ∧ TilesFree (wTG [3584 + 256 * 0x100000000]) c ∧ 3584 + 256 + 256 ≤ c.x.foot.sp ∧
      (c.tk.g.getD 10 0).toNat % 0x100000000 % 4 = 0 ∧ (c.tk.g.getD 10 0).toNat / 0x100000000 % 2 ^ 16 = 256) ∧
    (∃ c, Acts (wTG [252 * 0x100000000]) t0 c ∧ (c.tk.g.getD 10 0).toNat / 0x100000000 % 2 ^ 16 < 256 ∧ 1 < ctlRows 0x3F0101) ∧
    (∃ c, Acts (wTG [0]) t0 c ∧ ctlValid (c.tk.uval g10) = false) ∧
    (∃ c, Acts (wTG [1]) t0 c ∧ ctlValid (c.tk.uval g10) = true ∧ (spent (wTG [1])).tileNamed c.g 4 = false) ∧
    (portShape 1 true = (ctlFmt 1, ctlRows 1, ctlCols 1) ∧ portShape 0x3F0101 true ≠ (ctlFmt 0x3F0101, 2, 64) ∧ ctlSize 1 ≤ 65536) ∧
    (∃ c, Acts (wTG []) t0 c ∧ c.mwaitOps (spent (wTG [])) 0 = []) ∧
    (let s := { wTG [] with ops := [{ wOp (.tile (.setCells 0 [] [] none) [32]) with at_ := 9, tag := 1, tagSlots := [0] }], nextOp := 1 }
     ∃ c, Acts s t0 c ∧ c.mwaitOps (spent s) 0 ≠ [] ∧ c.sl.phase.started = false) :=
  ⟨meetsA (by decide +kernel), meetsA (by decide +kernel), meetsA (by decide +kernel), meetsA (by decide +kernel), meetsA (by decide +kernel), meetsA (by decide +kernel), meetsA (by decide +kernel),
   meetsA (by decide +kernel), by decide +kernel, meetsA (by decide +kernel), meetsA (by decide +kernel)⟩

theorem witness_TileArithmetic :
    (∃ c, Acts (wTG []) t0 c ∧ TilesFree (wTG []) c ∧ (c.x.xt[0]?).any (fun q => q.ctl == 1) = true ∧ (c.x.xt[3]?).any (fun q => q.ctl == 1) = true ∧
      (c.x.yt[0]?).isSome = true ∧ ((portShape 1 true).1, (portShape 1 false).1) = pairFmts 2 ∧ (portShape 1 true).2.2 = (portShape 1 false).2.1) ∧
    ((portShape 1 false).1, (portShape 1 false).1) ≠ pairFmts 0 ∧
    (∃ c, Acts (wTG []) t0 c ∧ (c.x.xt[4]?).any (fun q => q.ctl == 0x3F0101) = true ∧ ctlFmt 0x3F0101 = 1 ∧ 2 ≤ ctlRows 0x3F0101 ∧
      64 ≤ ctlCols 0x3F0101) ∧ ctlRows 1 < 2 :=
  ⟨meetsA (by decide +kernel), by decide +kernel, meetsA (by decide +kernel), by decide +kernel⟩

theorem witness_ProductsAndReductions :
    (255, 0, 8) ∈ [((255 : Nat), (0 : Nat), (8 : Nat)), (256, 8, 8), (257, 16, 9), (251, 25, 8)] ∧
    (251, 25, 8) ∈ [((255 : Nat), (0 : Nat), (8 : Nat)), (256, 8, 8), (257, 16, 9), (251, 25, 8)] ∧
    ((0 : Nat) < 6 ∧ (0 : Nat) ≠ 3 ∧ (0 : Nat) < 8 ∧ 8 ≤ pairGroup 0 ∧ finite f32 0x7F7FFFFF = true ∧ 0x7F7FFFFF < 0x100000000) ∧
    ((0 : Nat) < 16 ∧ 16 ≤ pairGroup 4) ∧
    (∀ i, i < 16 → isReal (elemVal (pairFmts 4).1 ((fun _ => 7) i)) ∧ isReal (elemVal (pairFmts 4).2 ((fun _ => 7) i))) :=
  ⟨by decide +kernel, by decide +kernel, by decide +kernel, by decide +kernel, fun _ _ => ⟨Nat.one_ne_zero, Nat.one_ne_zero⟩⟩

theorem witness_TileOperationsComplete :
    (let o := wOp (.tile (.store [(4092, [1, 2, 3, 4])]) [4])
     let s := { wTG [] with ops := [o], nextOp := 1 }
     s.op? 0 = some o ∧ o.at_ ≤ s.opClk o ∧ (s.gang? o.gang).isSome = true ∧ (∀ q ∈ s.ops, q.gang = o.gang → q.id = o.id) ∧ s.ops.length = 1) ∧
    Memory.wf (wTiles wTk).sp = true := by decide +kernel

theorem witness_MatrixLoopsAndLeave :
    (∃ c, Acts (wTG []) t0 c ∧ (wTG []).gang? c.g = some c.x ∧ (wTG []).slot? c.g c.t c.k = some c.sl ∧ c.t ∉ c.x.teammis ∧
      (c.loopCheck (spent (wTG [])) (wLoop c)).isSome = true) ∧
    (∃ c, Acts (wTG [0, 0, 1, 0]) t0 c ∧ (wTG [0, 0, 1, 0]).gang? c.g = some c.x ∧ (wTG [0, 0, 1, 0]).slot? c.g c.t c.k = some c.sl ∧
      c.t ∉ c.x.teammis ∧ (c.loopCheck (spent (wTG [0, 0, 1, 0])) (wLoop c)).isNone = true ∧ c.x.arrivals = [] ∧ c.x.foot.team = 1 ∧
      (∀ w ∈ c.x.windows, w = none) ∧ (wTG [0, 0, 1, 0]).ops = [] ∧ (wLoop c).tokens ≤ c.tk.tokens ∧
      ((wTG [0, 0, 1, 0]).core c.core).locks.length ≤ 30 ∧ c.core < (wTG [0, 0, 1, 0]).cores.length ∧ c.sl.join ≠ some (c.sl.pc + 8) ∧ c.sl.mask ≠ 0) ∧
    (let x := wTiles { wTk with g := List.replicate 12 0 ++ [1] ++ List.replicate 51 0 }
     let s := wWith { x with foot := { x.foot with team := 2 } }
     ∃ c, Acts s t0 c ∧ (c.loopCheck (spent s) (wLoop c)).isNone = true ∧ c.x.arrivals = [] ∧ 1 < c.x.foot.team) ∧
    (∃ c, Issues w0 t1 c ∧ c.act = 0) ∧ (∃ c, Issues (wG [2 ^ 16]) t0 c ∧ c.act ≠ 0 ∧ 2 ^ 16 ≤ (c.tk.uval g10).toNat) ∧
    (∃ c, Issues (wG [0]) t0 c ∧ c.act ≠ 0 ∧ c.tk.uval g10 = 0) ∧
    (∃ c, Issues (wDesced 0 [2 ^ 16 - 1]) t0 c ∧ c.act ≠ 0 ∧ (c.tk.uval g10).toNat < 2 ^ 16 ∧ c.tk.uval g10 ≠ 0 ∧ c.sl.phase.granted = false ∧
      (wDesced 0 [2 ^ 16 - 1]).part? c.x.part = some wPart ∧ (wDesced 0 [2 ^ 16 - 1]).gang? c.g = some c.x ∧
      wPart.bucket < min (c.tk.uval g10).toNat 4218) ∧
    (let s := { wG [4218] with parts := [{ wPart with bucket := 4218 }] }
     ∃ c, Issues s t0 c ∧ c.act ≠ 0 ∧ (c.tk.uval g10).toNat = 4218 ∧ (s.part? c.x.part).any (fun p => p.bucket == 4218 && p.running == some c.x.tenant) = true ∧
       c.x.power = []) ∧
    (let s := wTkd { wTk with g := List.replicate 64 1, slots := [{ wSlot with phase := { granted := true } }, {}] }
     ∃ c, Issues s t0 c ∧ c.act ≠ 0 ∧ (c.tk.uval g10) ≠ 0 ∧ c.sl.phase.granted = true) :=
  ⟨meetsA (by decide +kernel), meetsA (by decide +kernel), meetsA (by decide +kernel), meetsI (by decide +kernel), meetsI (by decide +kernel), meetsI (by decide +kernel), meetsI (by decide +kernel),
   meetsI (by decide +kernel), meetsI (by decide +kernel)⟩

/-- The machine in which register r holds l + r in lane l. -/
def wRising : State := wTkd { wTk with n := (List.range 32).map (fun r => (List.range 32).map (fun l => BitVec.ofNat 32 (l + r))) }

/-- The check of ISECT.T: both lists rise. -/
def sortCheck (c : Ctx) (rd : Read) (s : State) : Except Res (State × Unit) :=
  let keys := fun (k : Nat) => ((List.range 32).filter (fun l => c.act.getLsbD l)).map (fun l => ((rd.v.getD k []).getD l 0).toNat % 0x100000000)
  if (isect (keys 0) (keys 1)).2.2.2 = true then .error (c.trap .sort) else .ok (s, ())

theorem witness_StreamsAndIntersection :
    (∃ c, Acts (wG [0, 0, 0x800000000]) t0 c ∧ 0x800000000 ≤ (c.tk.uval g12).toNat) ∧ (∃ c, Acts (wG [0, 0, 3 * 0x100000000]) t0 c ∧ (c.tk.uval g12).toNat / 0x100000000 % 4 = 3) ∧
    (∃ c, Acts (wG [2, 0, 0x400000000]) t0 c ∧ (c.tk.uval g12).toNat < 0x800000000 ∧ (c.tk.uval g10).toNat % 4 ≠ 0) ∧
    (∃ c, Acts (wG [4, 2, 2 * 0x100000000]) t0 c ∧ (c.tk.uval g10).toNat % 4 = 0 ∧ (c.tk.uval g11).toNat % 4 ≠ 0) ∧
    (∃ c, Acts (wG [0x1000000000000, 0, 1]) t0 c ∧ (c.tk.uval g10).toNat % 4 = 0 ∧ 0x1000000000000 ≤ (c.tk.uval g10).toNat) ∧
    (∃ c, Acts (wG [0x1000000000000 - 4, 0x1000000000000, 1]) t0 c ∧ (c.tk.uval g10).toNat < 0x1000000000000 ∧ 0x1000000000000 ≤ (c.tk.uval g11).toNat) ∧
    (∃ c, Acts (wG [0x1000000000000 - 4, 0x1000000000000 - 1, 0x100000000 - 1]) t0 c ∧ (c.tk.uval g12).toNat < 0x800000000 ∧ (c.tk.uval g10).toNat < 0x1000000000000 ∧
      (c.tk.uval g11).toNat < 0x1000000000000 ∧ (c.tk.uval g10).toNat % 4 = 0) ∧
    (∃ c, Acts w0 t0 c ∧ (c.tk.s.getD 3 {}).bound = false) ∧
    (let s := wTkd { wTk with s := { bound := true, count := 33, next := 32, started := true } :: List.replicate 3 {} }
     (∃ c, Acts s t0 c ∧ (c.tk.s.getD 0 {}).bound = true) ∧ (s.gang? 1).isSome = true ∧ (s.tk? 1 0).isSome = true ∧
       (s.tk? 1 0).any (fun y => (y.s[0]?).any (fun st => st.started && !st.faulted && decide (st.fifo.length < 16) && decide (st.next < st.count) &&
         decide (st.due ≤ s.now))) = true ∧ s.part? 0 = some wPart) ∧
    ([(1 : Nat), 2].length = [(2 : Nat), 1].length ∧ [(1 : Nat), 2] ≠ []) ∧
    CheckMeets wRising w0 [(.n 0 false, .int, 1), (.n 31 false, .int, 1)] [(.n 0 false, .int, 1), (.wq 0 false, .int, 1)] Unit sortCheck :=
  ⟨meetsA (by decide +kernel), meetsA (by decide +kernel), meetsA (by decide +kernel), meetsA (by decide +kernel), meetsA (by decide +kernel), meetsA (by decide +kernel), meetsA (by decide +kernel),
   meetsA (by decide +kernel), ⟨meetsA (by decide +kernel), by decide +kernel, by decide +kernel, by decide +kernel, by decide +kernel⟩, by decide +kernel,
   checkMeets (by decide +kernel) (by decide +kernel) (by decide +kernel) (by decide +kernel)⟩

/-- The premises of a command that goes to a free engine of the plain machine's core. -/
abbrev EngineFree (s : State) (c : Ctx) : Prop :=
  (∀ w ∈ c.x.windows, w = none) ∧ c.core < s.cores.length ∧ s.ops.length < 16 ∧ (s.core c.core).locks.length + 4 ≤ 32 ∧
    c.sl.phase.lockOp = none

theorem witness_EngineCommands :
    (∃ c, Acts (wG [4]) t0 c ∧ c.sl.phase.desc = none ∧ (c.tk.g.getD 10 0).toNat % 8 ≠ 0) ∧
    (∃ c, Acts (wDesced (wDesc 3) []) t0 c ∧ c.sl.phase.desc = some (wDesc 3) ∧ descOk (wDesc 3) c.x.foot.sp = false) ∧
    (∃ c, Acts (wDesced (wDesc 0) []) t0 c ∧ c.sl.phase.desc = some (wDesc 0) ∧ descOk (wDesc 0) c.x.foot.sp = true ∧
      EngineFree (wDesced (wDesc 0) []) c ∧ descDir (wDesc 0) = 0 ∧ descBytes (wDesc 0) < 65536) ∧
    (∃ c, Acts (wDesced (wDesc 1) []) t0 c ∧ descOk (wDesc 1) c.x.foot.sp = true ∧ EngineFree (wDesced (wDesc 1) []) c) ∧
    (∃ c, Acts (wG [0, 0]) t0 c ∧ (c.tk.g.getD 11 0).toNat / 0x100000000 % 2 ^ 16 = 0) ∧
    (∃ c, Acts (wG [4095, 0x100000000 + 0x1000000000000]) t0 c ∧ (c.tk.g.getD 11 0).toNat < 0x8000000000000 ∧ c.x.foot.sp < (c.tk.g.getD 10 0).toNat % 0x100000000 + 2) ∧
    (∃ c, Acts (wG [1, 0x100000000 + 0x1000000000000]) t0 c ∧ (c.tk.g.getD 10 0).toNat % 0x100000000 % 2 ≠ 0 ∧ (c.tk.g.getD 10 0).toNat % 0x100000000 + 2 ≤ c.x.foot.sp) ∧
    (let s := wTkd { wTk with tokens := 1, g := List.replicate 10 0 ++ [4064 + 0x2000000000, 0x100000000 + 0x4000000000000] ++ List.replicate 52 0 }
     ∃ c, Acts s t0 c ∧ EngineFree s c ∧ (16 + 8191) / 8192 ≤ c.tk.tokens) ∧
    (∃ c, Acts (wG [4]) t0 c ∧ (c.tk.g.getD 10 0).toNat % 8 ≠ 0) ∧
    (∃ c, Acts (wG [0x1000000000000, 0, 0, 0, 0]) t0 c ∧ 0x1000000000000 ≤ (c.tk.g.getD 10 0).toNat ∧ (c.tk.g.getD 10 0).toNat % 8 = 0) ∧
    (∃ c, Acts (wG [0, 64, 128, 0, 256]) t0 c ∧ EngineFree (wG [0, 64, 128, 0, 256]) c ∧ (0 + 0 + 63) / 64 ≤ c.tk.tokens) ∧
    (let s := { wDesced (wDesc 0) [] with ops := List.replicate 16 (wOp (.copy { desc := wDesc 0, bar := none })) }
     ∃ c, Acts s t0 c ∧ c.sl.phase.desc = some (wDesc 0) ∧ 16 ≤ (s.ops.filter (fun o => o.core == some c.core && o.engine == some .copy)).length) ∧
    (let s := { wDesced (wDesc 0) [] with cores := { Core.reset with locks := List.replicate 31 ⟨9, 1, true, 0, 0, 0, 0, false⟩ } :: List.replicate 191 Core.reset }
     ∃ c, Acts s t0 c ∧ 30 < (s.core c.core).locks.length ∧ c.sl.phase.lockOp = none) ∧
    (let s := wWith { wGang wTk with windows := List.replicate 15 none ++ [some { desc := wDesc 0, state := .filling, bar := 0 }] }
     ∃ c, Acts s t0 c ∧ (c.x.windows[15]?).join.any (fun w => w.state == .filling) = true) ∧
    (∃ c, Acts (wDesced (wDesc 0) []) t0 c ∧ (c.x.windows[15]?).join = none ∧ c.sl.phase.desc = some (wDesc 0) ∧ descDir (wDesc 0) = 0) ∧
    (let accs := List.replicate 8 ({ lane := 0, glob := true, addr := 0, size := 8, act := .read, at_ := 0, done := true, val := 5 } : Acc)
     let o := wOp (.desc accs)
     let z := { wSlot with phase := { descOp := some 0 } }
     let s := { wTkd { wTk with slots := [z, {}] } with ops := [o], nextOp := 1 }
     s.op? 0 = some o ∧ s.opDue o = true ∧ (∀ a ∈ accs, a.done = true ∧ a.val.toNat < 0x10000000000000000) ∧ accs.length = 8 ∧ s.slot? 1 0 0 = some z) :=
  ⟨meetsA (by decide +kernel), meetsA (by decide +kernel), meetsA (by decide +kernel), meetsA (by decide +kernel), meetsA (by decide +kernel), meetsA (by decide +kernel), meetsA (by decide +kernel),
   meetsA (by decide +kernel), meetsA (by decide +kernel), meetsA (by decide +kernel), meetsA (by decide +kernel), meetsA (by decide +kernel), meetsA (by decide +kernel), meetsA (by decide +kernel),
   meetsA (by decide +kernel), by decide +kernel⟩

/-- The machine with a mapped page, one operation of its slot in flight, and core clocks at 10. -/
def wRun (k : OpKind) : State := { wOps [wOp k] with mem := loadTables [], now := 10, dev := { Device.reset with boot := .ready, gclk := List.replicate 48 10 } }

theorem witness_CopiesFillsAndLeave :
    (let s := wRun (.copy { desc := wDesc 0, bar := none })
     s.op? 0 = some (wOp (.copy { desc := wDesc 0, bar := none })) ∧ (wOp (.copy { desc := wDesc 0, bar := none })).at_ ≤ s.opClk (wOp (.copy { desc := wDesc 0, bar := none }))) ∧
    (let cp : Copy := { desc := wDesc 0, bar := some 4080, started := true }
     let s := wRun (.copy cp)
     s.op? 0 = some (wOp (.copy cp)) ∧ s.gang? 1 = some (wGang wTk) ∧ s.part? 0 = some wPart ∧ cp.paused = none ∧ cp.owed = 0 ∧ cp.done < copyPieces cp.desc ∧
       0 ≤ s.clk 0 ∧ s.dev.injs = [] ∧ s.dev.cxlUp = BitVec.allOnes _ ∧ s.mem.wf = true ∧ Memory.wf (wGang wTk).sp = true ∧ descDir cp.desc = 0 ∧
       ∃ ls, (s.engineWalk 0 wPart 0 false .read (((List.range 128).map (fun i => (0x10000 : Int) + descOffset cp.desc (0 + i))).flatMap
         (fun a => chunksOf a 1)) (s.readerOf 1)).2 = .ok ls ∧ ls ≠ []) ∧
    (let cp : Copy := { desc := wDesc 1, bar := none, started := true }
     let s := wRun (.copy cp)
     descDir cp.desc = 1 ∧ ∃ ls, (s.engineWalk 0 wPart 0 false .write (((List.range 128).map (fun i => (0x10000 : Int) + descOffset cp.desc (0 + i))).flatMap
         (fun a => chunksOf a 1)) (s.readerOf 1)).2 = .ok ls ∧ ls ≠ []) ∧
    (((w0).engineWalk 0 wPart 0 false .read (((List.range 128).map (fun i => (0x10000 : Int) + descOffset (wDesc 0) (0 + i))).flatMap
         (fun a => chunksOf a 1)) (w0.readerOf 1)).2 = .error (.absent 0, 0x10000)) ∧
    (descDir (wDesc 2) = 2 ∧ descDir (wDesc 2) ≤ 2 ∧ 0 < copyPieces (wDesc 2)) ∧
    (let cp : Copy := { desc := wDesc 0, bar := some 4080, window := some 15, started := true, done := 1 }
     let w : Window := { desc := wDesc 0, state := .filling, bar := 4080 }
     let x := { wGang wTk with windows := List.replicate 15 none ++ [some w] }
     let s := { wWith x with ops := [wOp (.copy cp)], nextOp := 1 }
     s.op? 0 = some (wOp (.copy cp)) ∧ copyPieces cp.desc ≤ cp.done ∧ s.gang? 1 = some x ∧ x.windows[15]? = some (some w) ∧ Memory.wf x.sp = true) ∧
    (let r : LeaveReq := { id := 5, part := 0, tenant := 0, launch := 0, gang := 1, tk := 0, slot := 0, tokens := 607392, op := none }
     let z := { wSlot with stall := some (.leave 5) }
     let y := { wTk with slots := [z, {}] }
     let s := { wTkd y with dev := { Device.reset with poolQ := [r] } }
     s.poolHead = some r ∧ s.slot? 1 0 0 = some z ∧ s.tk? 1 0 = some y ∧ r.tokens ≤ s.dev.pool) :=
  ⟨by decide +kernel, ⟨by decide +kernel, by decide +kernel, by decide +kernel, by decide +kernel, by decide +kernel, by decide +kernel, by decide +kernel, by decide +kernel, by decide +kernel, by decide +kernel, by decide +kernel, by decide +kernel, gets (by decide +kernel)⟩,
   ⟨by decide +kernel, gets (by decide +kernel)⟩, by decide +kernel, by decide +kernel, by decide +kernel, by decide +kernel⟩

/-- A merge of lists at 0x1_0000 and 0x1_0100 into 0x1_0200. -/
def wMerge (na nb : Nat) : Merge := { tk := 0, slot := 0, tag := 0, started := true, s32 := true, a := 0x10000, b := 0x10100, o := 0x10200, na := na, nb := nb, st := 0x10400, bar := some 4080 }

theorem witness_ShufflesMergesAndLoops :
    (let f : Shuffle := { src := 0, dst := 2048, table := 4064, n := 16, elog := 4, bar := some 4048, started := true }
     let s := wRun (.shuf f)
     s.op? 0 = some (wOp (.shuf f)) ∧ s.gang? 1 = some (wGang wTk) ∧ (wOp (.shuf f)).core = some 0 ∧ 0 ≤ s.clk 0 ∧ s.dev.injs = [] ∧
       Memory.wf (wGang wTk).sp = true ∧ Memory.wf (wGang wTk).arr = true) ∧
    (let s := wRun (.merge (wMerge 0 0))
     let o := wOp (.merge (wMerge 0 0))
     s.op? 0 = some o ∧ s.gang? o.gang = some (wGang wTk) ∧ s.part? 0 = some wPart ∧ (wMerge 0 0).paused = none ∧ o.at_ ≤ s.clk 0 ∧ s.mem.wf = true ∧
       s.opAsks 0 = false ∧ (wMerge 0 0).na ≤ (wMerge 0 0).i ∧ (wMerge 0 0).nb ≤ (wMerge 0 0).j ∧
       ∃ a, s.mergeAddr o (wMerge 0 0) (wGang wTk) wPart 0 0x10400 .write = .ok a ∧ True) ∧
    (let s := wRun (.merge (wMerge 1 1))
     let o := wOp (.merge (wMerge 1 1))
     (wMerge 1 1).i < (wMerge 1 1).na ∧ (∃ a, s.mergeSide o (wMerge 1 1) (wGang wTk) wPart 0 true 0x10000 = .ok a ∧ a.2 = some (0, 0)) ∧
       (∃ a, s.mergeSide o (wMerge 1 1) (wGang wTk) wPart 0 true 0x10100 = .ok a ∧ a.2 = some (0, 0)) ∧
       (∃ a, s.mergeSide o (wMerge 1 1) (wGang wTk) wPart 0 false 0x10100 = .ok a ∧ a.2 = none) ∧
       (∃ a, s.mergeAddr o (wMerge 1 1) (wGang wTk) wPart 0 0x10200 .write = .ok a ∧ True) ∧
       ∃ a, s.mergeAddr o (wMerge 1 1) (wGang wTk) wPart 0 0x10000 .read = .ok a ∧ a.1.dev.injs.length = 0) ∧
    (let m := { wMerge 1 1 with ended := true }
     (wRun (.merge m)).op? 0 = some (wOp (.merge m)) ∧ m.ended = true ∧ (wOp (.merge m)).waits = []) ∧
    (let l : Loop := { team := 0, word := 0, params := [], bar := some 4080, members := [], started := true, stepEnd := 10 }
     let s := { wWith (wTiles wTk) with ops := [wOp (.loop l)], nextOp := 1, dev := { Device.reset with gclk := List.replicate 48 10 } }
     (s.op? 0).map (·.kind) = some (.loop l) ∧ (s.gang? 1).isSome = true ∧ l.stepEnd ≤ s.opClk (wOp (.loop l)) ∧ s.dev.injs = [] ∧ l.raced = false ∧
       l.x + 3 < (wTiles wTk).xt.length ∧ l.yd < (wTiles wTk).yt.length ∧ l.steps ≤ l.step + 1) ∧
    (let l : Loop := { team := 0, word := 1 <<< 21, params := [0, 0, 2, 0], bar := none, members := [], started := true, stepEnd := 10 }
     l.step + 1 < l.steps ∧ l.sg ≠ 0 ∧ (l.step + 1) % 2 ^ (l.sg - 1) = 0) :=
  ⟨by decide +kernel, ⟨by decide +kernel, by decide +kernel, by decide +kernel, by decide +kernel, by decide +kernel, by decide +kernel, by decide +kernel, by decide +kernel, by decide +kernel, gets (by decide +kernel)⟩,
   ⟨by decide +kernel, gets (by decide +kernel), gets (by decide +kernel), gets (by decide +kernel), gets (by decide +kernel), gets (by decide +kernel)⟩, by decide +kernel, by decide +kernel, by decide +kernel⟩

/-- A request at a unit, at the front and due. -/
def wReq (r : TaskReq) : State := { wTreeS [] with ops := [{ wOp (.task r 0) with core := none, who := some (0, 0) }], nextOp := 1 }

theorem witness_TasksAndTheirUnit :
    (∃ c, Acts (wTreeS [0x10000, 0, 0x1000000]) t0 c ∧ (c.tk.uval g12).toNat / 0x1000000 % 0x10000 ≠ 0) ∧
    (let s := { wTreeS [0x10000, 0, 0xFFFFFF] with tasks := [{ wTreeT with depth := 8 }] }
     ∃ c, Acts s t0 c ∧ 8 < ((s.task? c.g).map (·.depth)).getD 1 + 1) ∧
    (∃ c, Acts (wTreeS [0x10080]) t0 c ∧ ((spent (wTreeS [0x10080])).spawnTask (c.part (wTreeS [0x10080])) c.x.tenant 0x10080 0 2 0 none).isNone = true) ∧
    (∃ c, Acts (wTreeS [0x10000]) t0 c ∧ ((spent (wTreeS [0x10000])).spawnTask (c.part (wTreeS [0x10000])) c.x.tenant 0x10000 0xFFFFFF 2 0 (some 65535)).any
      (fun m => !footNever m.1 m.2.foot) = true) ∧
    (∃ c, Acts (wTreeS [0x10000]) t0 c ∧ ((wTreeS [0x10000]).job? 0 0x10080 c.x.tenant).any (fun j => decide (1 < j.feps.length)) = true) ∧
    (∃ c, Acts (wTreeS [0, 0x10001000001, 1, 0x20000000001]) t0 c ∧ c.handle (spent (wTreeS [0, 0x10001000001, 1, 0x20000000001])) (c.tk.uval g10) = .bad .qerr ∧
      c.handle (spent (wTreeS [0, 0x10001000001, 1, 0x20000000001])) (c.tk.uval g11) = .remote 1 1 ∧
      c.handle (spent (wTreeS [0, 0x10001000001, 1, 0x20000000001])) (c.tk.uval g12) = .here wTreeT ∧
      c.handle (spent (wTreeS [0, 0x10001000001, 1, 0x20000000001])) (c.tk.uval (.g 13 false)) = .bad .qerr) ∧
    (∃ c, Acts { wTreeS [2] with nextTask := 3 } t0 c ∧ c.handle (spent { wTreeS [2] with nextTask := 3 }) (c.tk.uval g10) = .gone) ∧
    (let s := { wTreeS [1, 2] with tasks := [wTreeT, { wTreeT with id := 2, ctr := 65535 }] }
     ∃ c, Acts s t0 c ∧ (spent s).linking 2 = [] ∧ c.handle (spent s) (c.tk.uval g11) = .here { wTreeT with id := 2, ctr := 65535 }) ∧
    (∃ c, Acts (wTreeS [256]) t0 c ∧ 256 ≤ (c.tk.uval g10).toNat ∧ (wTreeS [256]).gang? c.g = some c.x ∧ (wTreeS [256]).tk? c.g c.t = some c.tk ∧
      c.tk.ended = false ∧ c.x.arrivals = []) ∧
    (∃ c, Acts (wTreeS [255]) t0 c ∧ (c.tk.uval g10).toNat < 256 ∧ c.x.tks.length = 1 ∧ (wTreeS [255]).task? c.g = some wTreeT ∧ wTreeT.ended = false ∧
      (wTreeS [255]).part? wTreeT.part = some wTreeP ∧ (∀ z ∈ wTreeP.jobs, 2 ≤ z.out) ∧ (wTreeS [255]).ops = []) ∧
    (let s := { wTreeS [255] with ops := [wStore false], nextOp := 1 }
     ∃ c, Acts s t0 c ∧ (c.tk.uval g10).toNat < 256 ∧ c.x.tks.length = 1 ∧ ∃ o ∈ s.ops, o.gang = c.g) ∧
    (let x := { wGang wTk with tks := [{ wTk with g := List.replicate 64 255 }, wTk], foot := { entry := 0x10000, regs := 4, sp := 4096, tus := 2 } }
     ∃ c, Acts (wWith x) t0 c ∧ (c.tk.uval g10).toNat < 256 ∧ (c.x.tks[1]?).any (fun y => !y.ended) = true) ∧
    (let s := wReq (.spawn (.g 63) { wTreeT with id := 0, ctr := 0 })
     (s.op? 0).map (·.kind) = some (.task (.spawn (.g 63) { wTreeT with id := 0, ctr := 0 }) 0) ∧
       s.atFront { wOp (.task (.spawn (.g 63) { wTreeT with id := 0, ctr := 0 }) 0) with core := none, who := some (0, 0) } = true ∧ (s.tk? 1 0).any (fun y => y.p[6]? == some 0) = true ∧
       s.tasks.length + 2 ≤ 0x1000000) ∧
    (let s := { wReq (.tdep 1 2) with tasks := [wTreeT, { wTreeT with id := 2, ctr := 65534 }] }
     s.task? 1 = some wTreeT ∧ s.task? 2 = some { wTreeT with id := 2, ctr := 65534 } ∧ wTreeT.ended = false) ∧
    (let s := { wReq (.tdep 1 2) with tasks := [{ wTreeT with ended := true }, { wTreeT with id := 2 }] }
     s.task? 1 = some { wTreeT with ended := true }) ∧
    (let s := { wReq (.tsig 1 65535) with tasks := [{ wTreeT with ctr := 65535 }] }
     s.task? 1 = some { wTreeT with ctr := 65535 }) :=
  ⟨meetsA (by decide +kernel), meetsA (by decide +kernel), meetsA (by decide +kernel), meetsA (by decide +kernel), meetsA (by decide +kernel), meetsA (by decide +kernel), meetsA (by decide +kernel),
   meetsA (by decide +kernel), meetsA (by decide +kernel), meetsA (by decide +kernel), meetsA (by decide +kernel), meetsA (by decide +kernel), by decide +kernel, by decide +kernel, by decide +kernel, by decide +kernel⟩

theorem witness_PageMovesAndSwaps :
    (∃ c, Acts (wG [0, 4097, 1]) t0 c ∧ 4096 < (c.tk.uval g11).toNat) ∧
    (∃ c, Acts (wG [0, 4096, 0]) t0 c ∧ c.handle (spent (wG [0, 4096, 0])) (c.tk.uval g12) = .bad .qerr) ∧
    (∃ c, Acts (wTreeS [0, 1, 0x10001000001]) t0 c ∧ c.handle (spent (wTreeS [0, 1, 0x10001000001])) (c.tk.uval g12) = .remote 1 1) ∧
    (∃ c, Acts (wG [65535, 1, 1]) t0 c ∧ c.handle (spent (wG [65535, 1, 1])) (c.tk.uval g12) = .here wTask ∧ (c.tk.uval g10).toNat % 65536 ≠ 0) ∧
    (∃ c, Acts (wG [65536, 1, 1]) t0 c ∧ c.handle (spent (wG [65536, 1, 1])) (c.tk.uval g12) = .here wTask ∧ (c.tk.uval g10).toNat % 65536 = 0) ∧
    (∃ c, Acts (wG [0, 65536]) t0 c ∧ c.tk.sup = false) ∧
    (∃ c, Acts (wSys [1, 0]) t0 c ∧ c.tk.sup = true ∧ (c.part (wSys [1, 0])).sys = true ∧ (c.tk.uval g10).toNat % 65536 ≠ 0) ∧
    (∃ c, Acts (wSys [0x180000000, 0]) t0 c ∧ (c.tk.uval g10).toNat % 65536 = 0 ∧ (c.part (wSys [0x180000000, 0])).ownsNear (c.tk.uval g10).toNat 65536 = false) ∧
    (let s := { wSys [0, 65536] with ops := [{ wOp (.swap 65536 131072) with core := none, at_ := 9 }], nextOp := 1 }
     ∃ c, Acts s t0 c ∧ (c.part s).ownsNear 0 65536 = true ∧ (c.part s).ownsNear 65536 65536 = true ∧ (c.tk.uval g11).toNat = 65536) ∧
    (let s := { wSys [0, 65536] with ops := [wStore true], nextOp := 1 }
     ∃ c, Acts s t0 c ∧ (spent s).reachesFrame c.g c.t c.k 0 ≠ []) ∧
    (∃ c, Acts (wSys [0, 65536]) t0 c ∧ (spent (wSys [0, 65536])).reachesFrame c.g c.t c.k 0 = [] ∧
      (spent (wSys [0, 65536])).reachesFrame c.g c.t c.k 65536 = [] ∧ (c.part (wSys [0, 65536])).ownsNear 65536 65536 = true) ∧
    (let o := { wOp (.swap 0 0x17FFF0000) with core := none }
     (wOps [o]).op? 0 = some o ∧ o.at_ ≤ (wOps [o]).now ∧ (wOps [o]).mem.wf = true ∧ 0x17FFF0000 % 65536 = 0) ∧
    (let o := { wOp (.migrQueued 0x10000 1 1 []) with core := none, who := some (0, 0) }
     let s := { wOps [o] with mem := (loadTables []).write 0x142008 8 0x18000000F }
     s.op? 0 = some o ∧ s.opDue o = true ∧ s.gang? 1 = some (wGang wTk) ∧ s.part? 0 = some wPart ∧ s.mem.wf = true ∧ (∀ q ∈ s.ops, q.id < s.nextOp)) ∧
    (let m : PageMove := { va := 0x10000, entry := 0x142008, mark := 0x20002E, old := 0x20000F, src := 0x200000, dst := 0x210000, part := 0, tenant := 0, near := true, link := some 1, cmd := none }
     let o := { wOp (.move m) with core := none }
     let s := { wOps [o] with mem := (loadTables []).write 0x142008 8 0x20002E }
     s.op? 0 = some o ∧ o.at_ ≤ s.now ∧ o.waits = [] ∧ s.part? m.part = some wPart ∧ s.mem.wf = true ∧ s.mem.read m.entry 8 = m.mark.toNat ∧
       (∀ q ∈ s.ops, q.id < s.nextOp)) :=
  ⟨meetsA (by decide +kernel), meetsA (by decide +kernel), meetsA (by decide +kernel), meetsA (by decide +kernel), meetsA (by decide +kernel), meetsA (by decide +kernel), meetsA (by decide +kernel),
   meetsA (by decide +kernel), meetsA (by decide +kernel), meetsA (by decide +kernel), meetsA (by decide +kernel), by decide +kernel, by decide +kernel, by decide +kernel⟩

/-- A scene of that descriptor with some islands. -/
def wScene (is : List Island) : Scene := { num := 0, tenant := 0, desc := wScDesc, proto := wTreeT, islands := is }

/-- The machine with that scene, whose gang is the gang of island 0. -/
def wIsl (is : List Island) (vs : List (BitVec 64)) : State :=
  let s := wTreeS vs
  { s with parts := [{ wTreeP with scenes := [wScene is] }], gangs := s.gangs.map (fun x => { x with isl := some { scene := 0, island := 0, patch := 0 } }) }

theorem witness_IslandInstructions :
    (∃ c, Acts (wTreeS [0x10304]) t0 c ∧ (c.tk.uval g10).toNat % 8 ≠ 0) ∧
    (∃ c a, Passes (wTreeS [0x10300]) t0 c ∧ (c.descWalk (spent (wTreeS [0x10300])) (c.part (wTreeS [0x10300])) 0x10300).2 = .ok a ∧ c.act ≠ 0 ∧
      ((c.descWalk (spent (wTreeS [0x10300])) (c.part (wTreeS [0x10300])) 0x10300).1.readDesc a = wScDesc ∧ scOk wScDesc = true) ∧
      ((spent (wTreeS [0x10300])).spawnTask (c.part (wTreeS [0x10300])) c.x.tenant (scTemplate wScDesc) 0 1 0 (some 0)).any
        (fun m => decide (m.2.foot.team = 1) && !footNever m.1 (islandFoot wScDesc m.2.foot 32)) = true) ∧
    (∃ c a, Passes (wTreeS [0x10000]) t0 c ∧ (c.descWalk (spent (wTreeS [0x10000])) (c.part (wTreeS [0x10000])) 0x10000).2 = .ok a ∧ c.act ≠ 0 ∧
      scOk ((c.descWalk (spent (wTreeS [0x10000])) (c.part (wTreeS [0x10000])) 0x10000).1.readDesc a) = false) ∧
    (∃ c, Acts (wTreeS [255]) t0 c ∧ ((c.part (wTreeS [255])).scene? 255).isNone = true) ∧
    (∃ c, Acts (wIsl [] [0]) t0 c ∧ ((c.part (wIsl [] [0])).scene? 0).isSome = true ∧ c.tk.uval g11 = 0) ∧
    (∃ c, Acts (wIsl [] [0, 1]) t0 c ∧ c.tk.uval g11 ≠ 0 ∧ c.handle (spent (wIsl [] [0, 1])) (c.tk.uval g11) = .here wTreeT) ∧
    (∃ c, Acts (wIsl [] [0, 9]) t0 c ∧ c.handle (spent (wIsl [] [0, 9])) (c.tk.uval g11) = .bad .qerr) ∧
    (∃ c rd, Passes (wIsl [] []) t0 c ∧ c.read (spent (wIsl [] [])) [(.n 0 false, .int, 1), (.n 1 false, .int, 1), (.n 31 false, .int, 1)] = .ok rd ∧ c.act ≠ 0) ∧
    (∃ c rd, Passes w0 t0 c ∧ c.read (spent w0) [(.n 0 false, .int, 1), (.n 1 false, .int, 1), (.n 31 false, .int, 1)] = .ok rd ∧ c.act ≠ 0 ∧
      ((c.part w0).scene? 0).isNone = true) ∧
    (∃ c, Acts w0 t0 c ∧ w0.gang? c.g = some c.x ∧ (c.isle (spent w0)).isNone = true) ∧
    (let i : Island := { num := 0, bodies := [0, 3], state := .running }
     let k : Island := { num := 5, bodies := [5, 7], state := .sleepingAbsorbed, pendAt := some 0 }
     let s := wIsl [i, k] []
     ∃ c, Acts s t0 c ∧ s.gang? c.g = some c.x ∧ c.isle (spent s) = some (wScene [i, k], i) ∧ (wScene [i, k]).pending 0 = [k] ∧
       i.state ≠ .absorbed ∧ i.state ≠ .growfail ∧ k.state ≠ .absorbed ∧ 2 + 2 ≤ 32 * c.x.foot.tus ∧ Memory.wf c.x.sp = true ∧
       ((spent s).readBodies c.core (c.part s) c.x.tenant c.tk.sup (wScene [i, k]) [5, 7] (c.reader (spent s))).2.toOption.isSome = true) ∧
    (let i : Island := { num := 0, bodies := [0], state := .running }
     ∃ c, Acts (wIsl [i] []) t0 c ∧ c.isle (spent (wIsl [i] [])) = some (wScene [i], i) ∧ (wScene [i]).pending 0 = []) ∧
    (let i : Island := { num := 0, bodies := [0], state := .running }
     let k : Island := { num := 5, bodies := [5], state := .absorbed, pendAt := some 0 }
     ∃ c, Acts (wIsl [i, k] []) t0 c ∧ c.isle (spent (wIsl [i, k] [])) = some (wScene [i, k], i) ∧ ∃ q ∈ (wScene [i, k]).pending 0, q.state = .absorbed) ∧
    (let i : Island := { num := 0, bodies := [0], state := .absorbed, pendAt := some 3 }
     ∃ c, Acts (wIsl [i] []) t0 c ∧ c.isle (spent (wIsl [i] [])) = some (wScene [i], i) ∧ i.state = .absorbed) :=
  ⟨meetsA (by decide +kernel), meetsG (by decide +kernel), meetsG (by decide +kernel), meetsA (by decide +kernel), meetsA (by decide +kernel), meetsA (by decide +kernel), meetsA (by decide +kernel),
   meetsR (by decide +kernel), meetsR (by decide +kernel), meetsA (by decide +kernel), meetsA (by decide +kernel), meetsA (by decide +kernel), meetsA (by decide +kernel), meetsA (by decide +kernel)⟩

/-- A request at the unit of the machine with a scene. -/
def wIslReq (is : List Island) (r : TaskReq) : State := { wIsl is [] with ops := [{ wOp (.task r 0) with core := none, who := some (0, 0) }], nextOp := 1 }

theorem witness_IslandUnits :
    (wScene [{ num := 0, bodies := [0, 1], state := .running }, { num := 2, bodies := [2], state := .running }]).islands.Pairwise
      (fun i j => i.num ≠ j.num ∧ ∀ q ∈ i.bodies, q ∉ j.bodies) ∧
    (let sc := wScene [{ num := 0, bodies := [0, 1], state := .running }, { num := 2, bodies := [2], state := .running }]
     (sc.islandOf 1).num ≠ (sc.islandOf 2).num ∧ (sc.islandOf 1).stands = true ∧ (sc.islandOf 2).stands = true ∧ (∀ i ∈ sc.islands, i.num ∈ i.bodies) ∧
       (sc.islandOf 1).state = .running ∧ (sc.islandOf 1).num < (sc.islandOf 2).num) ∧
    (let sc := wScene [{ num := 0, bodies := [0, 1], state := .growfail }]
     (sc.islandOf 0).num ≠ (sc.islandOf 7).num ∧ (sc.islandOf 7).stands = true ∧ (sc.islandOf 7).state = .sleeping ∧ (sc.islandOf 0).state = .growfail) ∧
    (let sc := wScene [{ num := 0, bodies := [0, 1], state := .idle }]
     (sc.islandOf 0).state = .idle ∧ (sc.islandOf 7).state = .sleeping) ∧
    (let s := wIslReq [] (.icon [(31, 0, 7, 6, 0)])
     let o := { wOp (.task (.icon [(31, 0, 7, 6, 0)]) 0) with core := none, who := some (0, 0) }
     s.op? 0 = some o ∧ o.at_ ≤ s.now ∧ s.atFront o = true ∧ (s.tk? 1 0).any (fun y => y.p[6]? == some 0) = true ∧ s.partOf o = some 0 ∧
       (s.part? 0).any (fun p => p.scenes.find? (fun q => q.num == 0) == some (wScene [])) = true ∧ 7 < scBodies wScDesc ∧ ¬ 8 < scBodies wScDesc ∧
       (wScene []).contacts.length < scCmax wScDesc ∧ (wScene []).joints.length < scJmax wScDesc) ∧
    ((wScene []).stepOver = true ∧ (let s := wIslReq [] (.isceneDel 0)
      s.op? 0 = some { wOp (.task (.isceneDel 0) 0) with core := none, who := some (0, 0) })) ∧
    (let s := wReq (.iscene (.g 63) wScDesc wTreeT)
     s.op? 0 = some { wOp (.task (.iscene (.g 63) wScDesc wTreeT) 0) with core := none, who := some (0, 0) } ∧ (∀ z ∈ wTreeP.scenes, z.num ≠ 0) ∧
       wTreeP.framesOf 0 none + (8 * scBodies wScDesc + 16 * (scCmax wScDesc + scJmax wScDesc) + 65535) / 65536 ≤ rcbField wTreeP.root 3 ∧
       ¬ wPart.framesOf 0 none + (8 * scBodies wScDesc + 16 * (scCmax wScDesc + scJmax wScDesc) + 65535) / 65536 ≤ rcbField wPart.root 3) ∧
    (let s := wIslReq [{ num := 0, bodies := [0, 3], state := .idle }] (.istep 0 1)
     let o := { wOp (.task (.istep 0 1) 0) with core := none, who := some (0, 0) }
     s.op? 0 = some o ∧ o ∈ s.ops ∧ s.atFront o = true ∧ s.partOf o = some 0 ∧ s.ops.length = 1 ∧ (wScene [{ num := 0, bodies := [0, 3], state := .idle }]).stepOver = true) ∧
    (let i : Island := { num := 0, bodies := [0, 3], state := .running }
     let s := { wIsl [i] [] with ops := [{ wOp (.fill none) with core := none, who := some (0, 0) }], nextOp := 1 }
     (s.gang? 1).any (fun x => x.core == some 0 && x.isl == some { scene := 0, island := 0, patch := 0 }) = true ∧ s.task? 1 = some wTreeT ∧ s.ops.length = 1 ∧
       (s.readBodies 0 wTreeP 0 false (wScene [i]) [0, 3] (s.readerOf 1)).2.toOption.isSome = true ∧
       (wScene [i]).island? 0 = some i ∧ [0, 3].length ≤ 32) ∧
    (let i : Island := { num := 0, bodies := [0, 3], state := .growfail }
     (wScene [i]).island? 0 = some i ∧ i.tasks = [] ∧ (∀ k ∈ (wScene [i]).pending 0, k.state ≠ .absorbed)) ∧
    (let z := { wSlot with stall := some .absorbed }
     let s := wTkd { wTk with slots := [z, {}] }
     s.slot? 1 0 0 = some z ∧ s.growFree (wGang { wTk with slots := [z, {}] }) = true ∧ s.gang? 1 = some (wGang { wTk with slots := [z, {}] })) :=
  ⟨by simp [wScene], by decide +kernel, by decide +kernel, by decide +kernel, by decide +kernel, by decide +kernel, by decide +kernel, by decide +kernel,
   by decide +kernel, by decide +kernel, by decide +kernel⟩

/-- A tussock that runs its handler, and the frame of slot 0 that it will go back to. -/
def wHandler (slot : Nat) : Tussock := { wTk with sup := true, frame := some { slot := slot, pc := 0x20000, mask := 1, join := none, queue := [], pushes := 0, bregs := [], ended := 0, otherValid := true, depth := 0 } }

theorem witness_TrapsAndSpecialRegisters :
    (∃ c, Issues w0 t0 c ∧ c.act ≠ 0) ∧ (∃ c, Issues w0 t1 c ∧ c.act = 0) ∧
    (∃ c, Issues w0 t0 c ∧ w0.gang? c.g = some c.x ∧ w0.tk? c.g c.t = some c.tk ∧ w0.slot? c.g c.t c.k = some c.sl ∧ c.tk.sup = false) ∧
    (∃ c, Issues (wTkd { wTk with sup := true }) t0 c ∧ c.tk.frame = none) ∧
    (∃ c, Issues (wTkd (wHandler 1)) t0 c ∧ c.tk.sup = true ∧ c.tk.frame.any (fun f => decide (c.k ≠ f.slot)) = true) ∧
    (∃ c, Issues (wTkd (wHandler 0)) t0 c ∧ c.tk.sup = true ∧ c.tk.ended = false ∧ c.tk.frame.any (fun f => decide (c.k = f.slot ∧
      c.tk.stack.length = f.depth ∧ f.otherValid = true ∧ f.mask &&& ~~~f.ended &&& ~~~c.tk.dead ≠ 0 ∧ f.join = none)) = true) ∧
    (∃ c, Acts w0 t0 c ∧ c.tk.sup = false) ∧ (∃ c, Acts (wTkd { wTk with sup := true }) t0 c ∧ c.tk.sup = true) ∧
    (∃ c, Acts (wG [8, 7]) t0 c ∧ 2 ^ 3 ≤ (c.tk.uval g10).toNat ∧ (c.tk.uval g11).toNat < 2 ^ 3) ∧
    (let o := wOp (.rdsr (.g 10) 0)
     (wOps [o]).op? 0 = some o ∧ (wOps [o]).opDue o = true ∧ (wOps [o]).gang? 1 = some (wGang wTk) ∧ (wOps [o]).tk? 1 0 = some wTk ∧
       (wOps [o]).task? (wGang wTk).id = some wTask ∧ (wOps [o]).part? (wGang wTk).part = some wPart ∧ o.mask ≠ 0) ∧
    (let o := wOp (.rdsr (.n 0 1) 0x013)
     let s := { wTkd (wHandler 0) with ops := [o], nextOp := 1 }
     s.op? 0 = some o ∧ s.opDue o = true ∧ s.tk? 1 0 = some (wHandler 0) ∧ (wHandler 0).frame ≠ none ∧ (wHandler 0).dead.getLsbD 31 = false) :=
  ⟨meetsI (P := fun c => c.act ≠ 0) (by decide +kernel), meetsI (P := fun c => c.act = 0) (by decide +kernel), meetsI (by decide +kernel), meetsI (by decide +kernel), meetsI (by decide +kernel),
   meetsI (by decide +kernel), meetsA (by decide +kernel), meetsA (by decide +kernel), meetsA (by decide +kernel), by decide +kernel, by decide +kernel⟩

/-- The supervisor of a system partition whose table also holds tenant 1, with a mapped page. -/
def wCk (vs : List (BitVec 64)) : State := { wSys vs with mem := (loadTables []).write 0x100808 8 0x8000000000000040 }

/-- The partition of it. -/
def wCkP : Partition := { wPart with sys := true }

/-- The image of a tenant that has nothing, where the firmware lays contexts out as `someCodec` does (how it does is not in the spec,
log 76). -/
theorem bare (h : Config.codec.pack = someCodec.pack) : imageSize ((wCk [1, 0x10000, 0x10000]).sections wCkP 1) = 0x2301 := by
  simp only [State.sections, h]
  decide +kernel

/-- No image is shorter than its table. -/
theorem image_ge (es : List (Nat × List Byte)) : 0x2100 ≤ imageSize es := by
  have f : ∀ (l : List ((Nat × List Byte) × Nat)) (n : Nat), n ≤ l.foldl (fun m e => max m (e.2 + e.1.2.length)) n := by
    intro l
    induction l with
    | nil => simp
    | cons a l ih => exact fun n => le_trans (le_max_left _ _) (ih _)
  exact f _ _

theorem witness_SystemInstructions (h : Config.codec.pack = someCodec.pack) :
    (∃ c, Acts w0 t0 c ∧ c.tk.sup = false) ∧
    (∃ c, Acts (wSys [0x8000000000000000, 0, 1]) t0 c ∧ c.tk.sup = true ∧ (c.part (wSys [0x8000000000000000, 0, 1])).sys = true ∧
      ¬ (c.tk.uval g10).toNat / 2 ^ 60 < 8 ∧ 2 ^ 16 ≤ (c.tk.uval g10).toNat) ∧
    (∃ c, Acts (wSys [0x180000000, 0, 1]) t0 c ∧ (c.tk.uval g10).toNat / 2 ^ 60 < 8 ∧ (c.tk.uval g10).toNat / 2 ^ 48 % 2 ^ 12 = 0 ∧
      (c.tk.uval g12).toNat < 2 ∧ (c.part (wSys [0x180000000, 0, 1])).ownsArray 0 (BitVec.ofNat 48 (c.tk.uval g10).toNat) = false) ∧
    (∃ c, Acts (wSys [0, 0, 1]) t0 c ∧ (c.tk.uval g12).toNat < 2 ∧ (c.part (wSys [0, 0, 1])).ownsArray 0 (BitVec.ofNat 48 (c.tk.uval g10).toNat) = true ∧
      (c.part (wSys [0, 0, 1])).halting = none ∧ (wSys [0, 0, 1]).part? (c.part (wSys [0, 0, 1])).num = some (c.part (wSys [0, 0, 1]))) ∧
    (let s := { wSys [0] with parts := [{ wPart with sys := true, halted := true, halting := some 5 }] }
     ∃ c, Acts s t0 c ∧ c.tk.sup = true ∧ (c.part s).sys = true ∧ (c.part s).halting ≠ none) ∧
    (let s := wCk [0, 0x10000]
     ∃ c, Acts s t0 c ∧ c.tk.sup = true ∧ (c.tk.uval g10).toNat = c.x.tenant) ∧
    (let s := wCk [1, 0x10001]
     ∃ c, Acts s t0 c ∧ s.tenantRcb (c.part s) 1 ≠ none ∧ 1 ≠ c.x.tenant ∧ (c.part s).ckpts = [] ∧ (c.tk.uval g10).toNat = 1 ∧
       (c.tk.uval g11).toNat % 2 ^ 16 ≠ 0) ∧
    (let s := wCk [1, 0x10000, 0]
     0x2100 ≤ imageSize (s.sections wCkP 1) ∧
       ∃ c, Acts s t0 c ∧ c.part s = wCkP ∧ (spent s).moving wCkP.num 1 = [] ∧ (c.tk.uval g12).toNat < 0x2100) ∧
    (let s := wCk [1, 0x10000, 0x10000]
     let q := { s with dev := { s.dev with counters := List.replicate 16384 (1, 0) } }
     imageSize (q.sections wCkP 1) = 0x2301 ∧
       ∃ c, Acts q t0 c ∧ c.part q = wCkP ∧ 0x2301 ≤ (c.tk.uval g12).toNat ∧ q.dev.ctrFull (wCkP.measureOf 1) = true) ∧
    (let s := wCk [1, 0x10000, 0x10000]
     imageSize (s.sections wCkP 1) = 0x2301 ∧ s.dev.ctrFull (wCkP.measureOf 1) = false ∧ s.part? wCkP.num = some wCkP ∧
       (∃ c, Acts s t0 c ∧ c.part s = wCkP ∧ c.core = 0 ∧ c.x.tenant = 0 ∧ (spent s).ownAccs c.g c.t c.k = [] ∧ s.fifoAll (c.core / 8) ≤ s.now ∧ 0x2301 ≤ (c.tk.uval g12).toNat) ∧
       (let q := { s with ops := [wStore true], nextOp := 1 }
        ∃ c, Acts q t0 c ∧ (spent q).ownAccs c.g c.t c.k ≠ []) ∧
       ∃ ls, ((spent s).engineWalk 0 wCkP 0 true .write ((pageCuts 0x10000 0x2301 (0x2301 / 65536 + 2)).map (fun q => ((q.1 : Int), q.2))) ((spent s).readerOf 1)).2 = .ok ls ∧
         ls ≠ []) ∧
    (let o := wOp (.inject 0 0 false 0 1)
     (wOps [o]).op? 0 = some o ∧ (wOps [o]).opDue o = true) ∧
    (let o := { wOp (.ckpt (.g 10) 1 1 true) with who := some (0, 0) }
     (wOps [o]).op? 0 = some o ∧ (wOps [o]).opDue o = true ∧ (wOps [o]).tk? 1 0 = some wTk ∧ wTk.p[6]? = some 0 ∧ o.who = some (wPart.num, 0) ∧
       (wOps [o]).part? wPart.num = some wPart ∧ o.mask ≠ 0) :=
  ⟨meetsA (by decide +kernel), meetsA (by decide +kernel), meetsA (by decide +kernel), meetsA (by decide +kernel), meetsA (by decide +kernel), meetsA (by decide +kernel), meetsA (by decide +kernel),
   ⟨image_ge _, meetsA (by decide +kernel)⟩, ⟨bare h, meetsA (by decide +kernel)⟩,
   ⟨bare h, by decide +kernel, by decide +kernel, meetsA (by decide +kernel), meetsA (by decide +kernel), gets (by decide +kernel)⟩, by decide +kernel, by decide +kernel⟩

theorem witness_LandingsOfLinesAndValues :
    (let o := wOp (.stage [(0, 0, [])])
     (wOps [o]).op? 0 = some o ∧ (wOps [o]).opDue o = true ∧ (wOps [o]).tk? 1 0 = some wTk ∧
       ([(0, 0, [])] : List (Nat × Nat × Lanes 32)).filter (fun e => e.1 == 0) = [(0, 0, [])] ∧ 0 < wTk.n.length) ∧
    (let o := wOp (.spill [(7, List.replicate 32 1)])
     (wOps [o]).op? 0 = some o ∧ (wOps [o]).opDue o = true ∧ 7 < wTk.m.length) ∧
    (let o := wOp (.btLine 0 0x400)
     let z := { wSlot with bregs := [{ target := 0x10000, state := .prep }] }
     let y := { wTk with slots := [z, {}] }
     let s := { wM y with ops := [o], nextOp := 1 }
     s.op? 0 = some o ∧ s.opDue o = true ∧ s.gang? 1 = some (wGang y) ∧ s.part? 0 = some wPart ∧ s.tk? 1 0 = some y ∧ s.slot? 1 0 0 = some z ∧
       z.bregs[0]? = some { target := 0x10000, state := .prep } ∧
       ∃ s' a f pg e b w x lines, ((s, walk s.mem wPart 0 (64 * 0x400) .fetch y.sup) : State × Walk) = (s', .pa a f pg e b w x lines) ∧ a = 0x200000) ∧
    (let accs : List Acc := List.replicate 8 { lane := 0, glob := true, addr := 0x200000, size := 8, act := .read, at_ := 0, done := true, val := 5 }
     let o := wOp (.desc accs)
     let z := { wSlot with phase := { descOp := some 0 } }
     let s := { wTkd { wTk with slots := [z, {}] } with ops := [o], nextOp := 1 }
     s.op? 0 = some o ∧ s.opDue o = true ∧ s.slot? 1 0 0 = some z ∧ z.phase.descOp = some 0 ∧ (∀ a ∈ accs, a.done = true) ∧ accs.length ≤ 8 ∧
       ∀ a ∈ accs, a.val.toNat < 2 ^ 64) ∧
    (let o := wOp (.values (.g 10) (List.replicate 32 1) none (some (11, 5)))
     (wOps [o]).op? 0 = some o ∧ (wOps [o]).opDue o = true ∧ (wOps [o]).tk? 1 0 = some wTk ∧ wTk.p[6]? = some 0 ∧ wTk.parked = false ∧
       o.mask.getLsbD 0 = true) ∧
    (let o := { wOp (.values (.n 30 2) (List.replicate 32 1) none none) with p6 := some true }
     (wOps [o]).op? 0 = some o ∧ (wOps [o]).opDue o = true ∧ 30 + 1 < wTk.n.length ∧ o.p6 = some true) :=
  ⟨by decide +kernel, by decide +kernel, ⟨by decide +kernel, by decide +kernel, by decide +kernel, by decide +kernel, by decide +kernel, by decide +kernel, by decide +kernel, mapped (by decide +kernel)⟩,
   by decide +kernel, by decide +kernel, by decide +kernel⟩

/-- The machine whose slot waits for a condition and goes on to the next word. -/
def wWait (w : WaitCond) (v : Option (BitVec 64)) (d : LDest) : State :=
  wWith { wGang { wTk with waitSince := some 0, slots := [{ wSlot with wait := some { cond := w, start := 0, woken := v, d := d, mask := 1, next := 0x10008 } }, {}] } with
    windows := List.replicate 15 none ++ [some { desc := 0, state := .present, bar := 0 }] }

/-- What every clause about the end of that wait asks of it. -/
def Waits (s : State) (w : WaitCond) (v : Option (BitVec 64)) : Prop :=
  (s.slot? 1 0 0).any (fun z => z.wait.any (fun q => q.cond == w && q.woken == v && z.join != some q.next) && z.valid && !z.waitJoin && z.mask != 0) = true ∧
  (s.gang? 1).any (fun x => x.core == some 0 && !s.frozen x) = true ∧ (s.tk? 1 0).any (fun y => !y.ended && !y.suspended 0 && !y.parked) = true

theorem witness_WaitsPushesAndRecords :
    (Waits (wWait (.barrier 0 true) none .none) (.barrier 0 true) none ∧ (Memory.read [] 0 16).testBit 64 ≠ true) ∧
    Waits (wWait .yieldReady none .none) .yieldReady none ∧
    (Waits (wWait (.barg true) none .none) (.barg true) none ∧ (wGang wTk).phase ≠ true) ∧
    (Waits (wWait (.seq [(0, 16, some 1)]) none (.n 0 1)) (.seq [(0, 16, some 1)]) none ∧ Memory.read [] (16 + 8) 2 ≠ (1 : BitVec 16).toNat) ∧
    Waits (wWait (.future false 0) (some 5) (.g 10)) (.future false 0) (some 5) ∧
    (Waits (wWait (.window [15]) none .none) (.window [15]) none ∧ ((wWait (.window [15]) none .none).gang? 1).any (fun x => !x.loopMember 0 0) = true) ∧
    (let o := wOp (.push 16 5 1 0x200000)
     (wOps [o]).op? 0 = some o ∧ (wOps [o]).opDue o = true ∧ (wOps [o]).pushBehind o 16 = false ∧ (wOps [o]).gang? 1 = some (wGang wTk) ∧
       Memory.wf (wGang wTk).sp = true) ∧
    (let p := { wPart with waitRecs := [7] }
     let s := { w0 with parts := [p] }
     s.part? 0 = some p ∧ p.waitRecs = 7 :: [] ∧ p.records.length < 4096 ∧ s.mem.wf = true) := by
  unfold Waits
  decide +kernel

/-- The machine with no slot selected and octant 0 of core 0 as given. -/
def wOct (x : Gang) (o : Octant) : State := { wWith x with cur := none, cores := { Core.reset with octs := o :: List.replicate 7 {} } :: List.replicate 191 Core.reset }

/-- A second tussock at position 1 that was activated later. -/
def wTk1 : Tussock := { wTk with active := some 1, actAt := 5 }

theorem witness_IssueSelection :
    (let s := wOct (wGang { wTk with active := none }) {}
     s.cur = none ∧ 0 < (s.core 0).octs.length ∧ 0 < s.cores.length ∧ s.candidates 0 0 = []) ∧
    (let s := { wOct { wGang wTk with tks := [wTk, wTk1] } { prev := some (1, 0, 0), fresh := true } with now := 10 }
     s.cur = none ∧ (s.candidates 0 0).length = 2 ∧ (s.candidates 0 0).any (fun d => d.id == (1, 0, 0) && !d.yld) = true) ∧
    (let s := wOct { wGang wTk with tks := [{ wTk with slots := [{ wSlot with yld := true }, {}] }, wTk1] } { prev := some (1, 0, 0), fresh := true }
     (s.candidates 0 0).any (fun d => d.id == (1, 0, 0) && d.yld) = true ∧ (s.candidates 0 0).any (fun d => d.id != (1, 0, 0)) = true) ∧
    (let s := wOct { wGang wTk with tks := [wTk, { wTk1 with slots := [{ wSlot with urgent := 56 }, {}] }] } {}
     (s.candidates 0 0).any (fun d => decide (56 ≤ d.urgent)) = true) ∧
    (let s := wOct { wGang wTk with rr := true, tks := [wTk, wTk1] } { cand := 0 }
     (s.actives 0 0).any (fun e => e.2.1.rr) = true ∧ (s.candidates 0 0).length = 2) := by decide +kernel

/-- The machine whose task waits for its first placement. -/
def wWaiting : State := { wTreeS [] with cur := none, gangs := [], tasks := [{ wTreeT with placed := false }] }

/-- The gang switched out. -/
def wOut : Gang := { wGang wTk with core := none, outAt := some 0 }

/-- A gang of a later index of an ORDERED launch that waits, while the gang of index 0 is switched out and finds no room beside it. -/
def wBlocked : State :=
  let z := { wSlot with wait := some { cond := .barrier 0 true, start := 0, next := 0x10008 } }
  let y := { wTk with waitSince := some 0, slots := [z, {}] }
  let s := wWith { wGang y with foot := { entry := 0x10000, regs := 4, sp := 4096 } }
  { s with cur := none, gangs := s.gangs ++ [{ wOut with id := 2, foot := { entry := 0x10000, regs := 4, sp := 0x10000000 } }], tasks := [{ wTask with ordered := true, index := 1 }, { wTask with id := 2, ordered := true, foot := { entry := 0x10000, regs := 4, sp := 0x10000000 } }], nextTask := 3 }

theorem witness_PlacementAndUnloading :
    (∃ w, wWaiting.nextPlaced wTreeP = some w ∧ w.task.id = 1 ∧ wWaiting.task? 1 = some { wTreeT with placed := false } ∧
      wWaiting.part? 0 = some wTreeP ∧ w.gang = none ∧ w.ch ≠ none) ∧
    (let s := { wWith wOut with cur := none }
     ∃ w, s.nextPlaced wPart = some w ∧ w.task.id = 1 ∧ s.task? 1 = some wTask ∧ s.part? 0 = some wPart ∧ w.gang = some wOut ∧ wOut.loops = [] ∧
       wOut.merges = []) ∧
    ((wBlocked.gang? 1).any (fun x => wBlocked.unloadDue x && !x.stop) = true) ∧
    (let x := { wGang wTk with stop := true }
     (wWith x).gang? 1 = some x ∧ (wWith x).unloadDue x = true ∧ (wWith x).ops = []) :=
  ⟨has (by decide +kernel), has (by decide +kernel), by decide +kernel, by decide +kernel⟩

/-- A tussock that is ready and stands in no active position. -/
def wReadyTk (parked : Bool) : Tussock := { wTk with active := none, parked := parked, readySeq := 1, home := some 0 :: List.replicate 31 none }

/-- The slot of it in a long wait, and what the tussock then is. -/
def wWaitSlot : Slot := { wSlot with wait := some { cond := .barrier 0 true, start := 0, next := 0x10008 } }

/-- A tussock whose slot is in that wait. -/
def wWaitTk : Tussock := { wTk with waitSince := some 10, home := some 0 :: List.replicate 31 none, slots := [wWaitSlot, {}] }

/-- Core clocks at 300. -/
def wLater (s : State) : State := { s with dev := { s.dev with gclk := List.replicate 48 300 } }

theorem witness_ActivationAndParking :
    (wTkd (wReadyTk false)).activateAt (wGang (wReadyTk false)) 0 (wReadyTk false) = some (0, 0) ∧
    (let x := { wGang wTk with tks := [wTk, wReadyTk true] }
     (wWith x).gang? 1 = some x ∧ (wWith x).tk? 1 1 = some (wReadyTk true) ∧ (wWith x).activateAt x 1 (wReadyTk true) = some (0, 1) ∧
       (wWith x).dev.injs = [] ∧ (wReadyTk true).home[0]? = some (some 0)) ∧
    (let y := { wTk with staging := some 300 }
     let s := wLater (wTkd y)
     s.gang? 1 = some (wGang y) ∧ s.tk? 1 0 = some y ∧ (wGang y).core = some 0 ∧ y.staging = some 300 ∧ 300 ≤ s.clk 0) ∧
    (let s := wLater (wTkd wWaitTk)
     s.gang? 1 = some (wGang wWaitTk) ∧ s.tk? 1 0 = some wWaitTk ∧ wWaitTk.active = some 0 ∧ wWaitTk.ended = false ∧ wWaitTk.staging = none ∧
       s.frozen (wGang wWaitTk) = false ∧ wWaitTk.waitSince = some 10 ∧ 10 + 256 ≤ s.clk 0 ∧ s.ops = [] ∧
       wWaitTk.slots = [wWaitSlot, {}] ∧ wWaitSlot.valid = true ∧ wWaitSlot.waitJoin = false ∧ ({} : Slot).valid = false ∧
       wWaitSlot.wait = some { cond := .barrier 0 true, start := 0, next := 0x10008 } ∧ WaitCond.barrier 0 true ≠ .dead ∧
       0 < wWaitTk.m.length) ∧
    (let s := { wTreeS [] with gangs := [wGang wWaitTk], now := 0x10000000000 }
     s.gang? 1 = some (wGang wWaitTk) ∧ s.slot? 1 0 0 = some wWaitSlot ∧ (wGang wWaitTk).core ≠ none ∧ s.frozen (wGang wWaitTk) = false ∧
       wWaitTk.suspended 0 = false ∧ wWaitTk.parked = false ∧ s.overdue (wGang wWaitTk) { cond := .barrier 0 true, start := 0, next := 0x10008 } = true) ∧
    (let y := { wWaitTk with active := none, parked := true }
     let s := { wTreeS [] with gangs := [wGang y], now := 0x10000000000 }
     s.gang? 1 = some (wGang y) ∧ s.tk? 1 0 = some y ∧ s.slot? 1 0 0 = some wWaitSlot ∧ s.frozen (wGang y) = false ∧ y.suspended 0 = false ∧
       s.overdue (wGang y) { cond := .barrier 0 true, start := 0, next := 0x10008 } = true) := by decide +kernel

theorem witness_DeviceUpkeep :
    (let s := { State.reset with dev := { Device.reset with demand := [{ ch := 96, part := 0, job := 2, units := 5 }, { ch := 96, part := 1, job := 3, units := 7 }], arb := [{ ch := 96, part := 0, job := 2, served := 0, num := 1, den := 3 }] } }
     (∃ r ∈ s.dev.demand, r.ch = 96) ∧ (∀ c ∈ s.dev.arb, 0 < c.den) ∧ (0 : Nat) + 5 ≤ s.dev.portCap 0) ∧
    (let s := { State.reset with now := 289678 }
     (s.dev.scrub + 1) * 289678 ≤ s.now ∧ 0 = s.dev.scrub % 805306368 ∧ s.dev.injs = []) ∧
    (let i : Inj := { array := 0, home := 0, persist := true, addr := 0, mask := 3 }
     let s := { w0 with now := 289678, dev := { w0.dev with injs := [i] } }
     (s.dev.scrub + 1) * 289678 ≤ s.now ∧ s.dev.injs = [i] ∧ i.array = 0 ∧ i.home = 0 / 8388608 ∧ i.addr.toNat / 8 = 0 ∧ i.persist = true ∧ i.nat = false ∧
       ((List.range 64).filter (fun k => i.mask.getLsbD k)).length = 2 ∧ s.part? (s.sliceOwner (0 / 8388608)) = some wPart ∧ s.released 0 = []) ∧
    (let s := { w0 with now := 2700000000, dev := { w0.dev with downSince := [(31, 0)] } }
     (31, 0) ∈ s.dev.downSince ∧ 0 + 2700000000 ≤ s.now ∧ 31 < 32) ∧
    (({ array := 7, inst := 0, ctl := 1 } : InjWrite).array.toNat < 8) ∧
    (List.replicate 16 (5 : BitVec 64)).length ≤ 16 ∧
    State.reset.dev.boot = .rom := by decide +kernel

/-- A message of the peer at rank 0 of the job. -/
def wPeer (op : Nat) (tag a0 a1 a2 a3 : BitVec 64) : JcpMsg := { src := 7, hdr := mkHdr 3 op 0 0 0 0 0 0 tag a0 a1 a2 a3, payload := [] }

/-- What makes a message of a peer one that the partition takes. -/
def FromPeer (s : State) (p : Partition) (m : JcpMsg) : Prop :=
  s.part? (hdrPart m.hdr) = some p ∧ hdrVer m.hdr = 1 ∧ hdrEp m.hdr = 0 ∧ p.closing = false ∧ m.src ≠ 0 ∧ ∃ j ∈ p.jobs, j.tenant = hdrTenant m.hdr ∧ m.src ∈ j.feps

/-- The partition whose job has sent a task to rank 0 and waits for it. -/
def wSentP : Partition := { wTreeP with jobs := [{ part := 0, tenant := 0, rcb := 0x10080, out := 2, feps := [7, 8], sent := [(9, 0)] }] }

theorem witness_MessagesOfPeers :
    (∀ p, ¬ FromPeer w0 p (wPeer 0x40 0 0 0 0 0)) ∧
    (let m := wPeer 0x40 9 0x10000 0 0 2
     FromPeer (wTreeS []) wTreeP m ∧ ((wTreeS []).spawnTask wTreeP 0 0x10000 0 2 0 none).any (fun q => !footNever q.1 q.2.foot && ((wTreeS []).job? 0 q.2.job 0).any (fun j => j.feps.contains m.src)) = true ∧
       (wTreeS []).tasks.length + 2 ≤ 0x1000000) ∧
    (let m := wPeer 0x40 9 0x10080 0 0 2
     FromPeer (wTreeS []) wTreeP m ∧ (wTreeS []).spawnTask wTreeP 0 0x10080 0 2 0 none = none) ∧
    (let m := wPeer 0x41 9 1 65535 0 0
     FromPeer (wTreeS []) wTreeP m ∧ (wTreeS []).byHandle 0 0 1 = some wTreeT ∧ wTreeT.tenant = 0 ∧ wTreeT.ended = false ∧
       ∀ q ∈ (wTreeS []).tasks, q.id = wTreeT.id → q = wTreeT) ∧
    (let m := wPeer 0x42 0 5 0 0 0
     let o := { wOp (.task (.remote (.g 63) 0 0 true 0x10080) 0) with core := none, who := some (0, 0) }
     let s := wReq (.remote (.g 63) 0 0 true 0x10080)
     FromPeer s wTreeP m ∧ s.op? 0 = some o ∧ (s.job? 0 0x10080 0).any (fun j => j.feps[0]? == some m.src) = true ∧ o.who.map (·.1) = some 0 ∧ (s.tk? 1 0).isSome = true ∧ (hdrArg m.hdr 0).toNat ≠ 0) ∧
    (let m := wPeer 0x43 9 0 0 0 0
     let s := { wTreeS [] with parts := [wSentP] }
     FromPeer s wSentP m ∧ (wSentP.jobs.find? (fun j => j.sent.any (fun e => e.1 == 9 && j.feps[e.2]? == some m.src))).any (fun j => decide (2 ≤ j.out)) = true ∧
       wSentP.jobs.length = 1) ∧
    ((wTreeS []).part? 0 = some wTreeP ∧ (∀ j ∈ wTreeP.jobs, ¬ ∃ e ∈ j.sent, e.2 = 0)) ∧
    (({ wTreeS [] with parts := [wSentP] } : State).part? 0 = some wSentP ∧ ∃ j ∈ wSentP.jobs, ∃ e ∈ j.sent, e.2 = 0) := by
  refine ⟨?_, ?_⟩
  · rintro p ⟨h, -, -, -, -, j, hj, -, hm⟩
    have : w0.part? (hdrPart (wPeer 0x40 0 0 0 0 0).hdr) = some wPart := by decide +kernel
    rw [this] at h
    obtain rfl := Option.some.inj h
    rw [show wPart.jobs = [{ part := 0, tenant := 0, rcb := 0, out := 2 }] from rfl, List.mem_singleton] at hj
    simp [hj] at hm
  · unfold FromPeer
    refine ⟨?_, ?_, ?_, ?_, ?_, ?_, ?_⟩ <;> decide +kernel

/-! ### Commands -/

/-- A command of a sender that every endpoint of the witness machines knows. -/
def wCmd (op part tenant : Nat) (a0 a1 a2 : BitVec 64) (pl : List Byte) : JcpMsg := { src := 5, hdr := mkHdr 0 op part tenant 0 0 0 pl.length 0 a0 a1 a2 0, payload := pl }

/-- Whether an endpoint takes a command and begins it. -/
def begins (s : State) (m : JcpMsg) (e : Endpoint) : Bool :=
  (s.endpoint? (hdrPart m.hdr) (epOf m) == some e) && decide (m.src ≠ 0 ∧ m.src ∈ senders s m ∧ s.dev.boot ≠ .locked ∧ (∀ x ∈ e.stored, x.1 ≠ hdrSeq m.hdr)) &&
  ((e.busy == none) && ((s.part? (hdrPart m.hdr)).all (fun p => !p.closing) && ((hdrSeq m.hdr == e.seq) && ((taken s m).refusal m == none))))

theorem begins_begins {s : State} {m : JcpMsg} {e : Endpoint} (h : begins s m e = true) : Begins s m e (taken s m) := by
  simp only [begins, Bool.and_eq_true, beq_iff_eq, decide_eq_true_eq] at h
  obtain ⟨⟨hh, h1, h2, h3, h4⟩, hb, ho, hs, hr⟩ := h
  refine ⟨⟨hh, ⟨h1, h2⟩, h3, h4⟩, hb, ?_, hs, rfl, hr⟩
  intro p hp
  rw [hp] at ho
  simpa using ho

/-- A command begins at the idle endpoint, and more holds. -/
theorem meetsB {s : State} {m : JcpMsg} {P : Prop} [Decidable P] (h : (begins s m {} && decide P) = true) : Begins s m {} (taken s m) ∧ P := by
  simp only [Bool.and_eq_true, decide_eq_true_eq] at h
  exact ⟨begins_begins h.1, h.2⟩

/-- A command begins at the idle endpoint of a partition, of which more holds. -/
theorem meetsPB {s : State} {m : JcpMsg} {P : Partition → Prop} [DecidablePred P]
    (h : (begins s m {} && (decide (hdrPart m.hdr ≠ 63) && ((taken s m).part? (hdrPart m.hdr)).any (fun p => decide (P p)))) = true) :
    ∃ p, PartBegins s m {} (taken s m) p ∧ P p := by
  simp only [Bool.and_eq_true, decide_eq_true_eq] at h
  obtain ⟨p, hp, hP⟩ := has h.2.2
  exact ⟨p, ⟨begins_begins h.1, h.2.1, hp⟩, hP⟩

/-- The witness machine whose endpoint 0 is as given. -/
def wEp (e : Endpoint) : State := { wTreeS [] with parts := [{ wTreeP with eps := e :: List.replicate 3 {} }] }

/-- The management endpoint's machine before its firmware is there. -/
def wBoot (b : Boot) : State := { w0 with dev := { w0.dev with boot := b } }

theorem witness_CommandAcceptance :
    (let m := wCmd 0x08 0 0 16 0 0 []
     Command m (.faultFetch m) ∧
     (∃ e, (w0.endpoint? 0 0 = some e ∧ e.busy ≠ some { m with src := 9 }) ∧ (9 : BitVec 64) ∉ senders w0 { m with src := 9 }) ∧
     (let e : Endpoint := { stored := [(0, m)], seq := 1 }
      (wEp e).endpoint? 0 0 = some e ∧ e.busy ≠ some m ∧ m.src ≠ 0 ∧ m.src ∈ senders (wEp e) m ∧ (wEp e).dev.boot ≠ .locked ∧
        e.stored.find? (fun x => x.1 == hdrSeq m.hdr) = some (0, m)) ∧
     (let e : Endpoint := { busy := some { m with src := 9 } }
      Comes (wEp e) m e ∧ e.busy = some { m with src := 9 } ∧ e.busy ≠ some m) ∧
     (let e : Endpoint := { seq := 7 }
      Comes (wEp e) m e ∧ e.busy = none ∧ opened (wEp e) m ∧ hdrSeq m.hdr ≠ e.seq) ∧
     (let n := wCmd 0x08 0 0 0 0 0 []
      Comes (wEp {}) n {} ∧ opened (wEp {}) n ∧ hdrSeq n.hdr = 0 ∧ (taken (wEp {}) n).refusal n = some 2)) ∧
    (let m := wCmd 0x08 9 0 16 0 0 []
     hdrPart m.hdr ≠ 63 ∧ w0.part? (hdrPart m.hdr) = none ∧ m.src ∈ w0.dev.mgmtAddrs ∧ w0.dev.boot ≠ .locked ∧ (9 : BitVec 64) ∉ w0.dev.mgmtAddrs) ∧
    (w0.refusal (wCmd 0x20 0 0 0 0 0 []) = some 2 ∧
     (wBoot .waitfw).refusal (wCmd 0x01 63 0 1 1 0 (List.replicate 448 0)) = some 2 ∧
     w0.refusal (wCmd 0x01 0 0 1 1 0 (List.replicate 448 0)) = some 2 ∧
     w0.refusal (wCmd 0x03 63 0 0 1 0 [1]) = some 3 ∧
     w0.refusal (wCmd 0x0E 63 0 0 0 0 []) = some 2 ∧
     w0.refusal (wCmd 0x05 0 0 0x10000 0 0 []) = some 4 ∧ (wTreeS []).refusal (wCmd 0x05 0 0 0x10000 0 0 []) = none ∧
     w0.refusal (wCmd 0x03 0 4 0 1 0 [1]) = some 2 ∧
     w0.refusal (wCmd 0x08 0 0 0 0 0 []) = some 2) := by
  refine ⟨⟨?_, ?_, ?_, ?_, ?_, ?_⟩, ?_, ?_⟩
  · simp [Command]
  · exact ⟨{}, by decide +kernel⟩
  · decide +kernel
  · exact ⟨⟨by decide +kernel, by decide +kernel, by decide +kernel, by decide +kernel⟩, rfl, by decide +kernel⟩
  · exact ⟨⟨by decide +kernel, by decide +kernel, by decide +kernel, by decide +kernel⟩, rfl, by unfold opened; decide +kernel, by decide +kernel⟩
  · exact ⟨⟨by decide +kernel, by decide +kernel, by decide +kernel, by decide +kernel⟩, by unfold opened; decide +kernel, by decide +kernel, by decide +kernel⟩
  · decide +kernel
  · decide +kernel

/-- A modulus of 4,096 bits. -/
def wModulus : Nat := 0xcc58784d05fa81634b372f07b635155684ea5649d1f36521e1c13891fb71a121dbcd212e1eda9dc2d321eb64672674d1a7810db4e3efeb56207811df9132dc24387213054cfbd6f6d8b370651c6d71e692b79debf7098211cf480a2168d30c974d9e9814c9c5cffde969019d857a52e0f08a15e86d0eca62e45a7e06b7b768af868cd4447fa94a32da63f4c330fb9da40c656e9a752d90499dade93205e2ff1046a0795879f5a78aa2c75aac0924efafb7d36ce36dd8b579a1efacede67367182323b236f78a1fbfdfd8b76b7d26ae45efd572662a3cd99a19f57711eeab591fb9191d5550f0d97310dad6c4318fd68bec9a0daa7f05b4855041b4d89959dbb6fb0ec1b0d1e2311950f8541c71f676155a560fb8b426649f169f3fea9f19d94ccd345cc3c7f0d0621dc8012973f04d60132122652d27132845ce77a93a7d08239a65c4e4b6847766393aeb98f1f652890fc8f0903a91939839b816ee7f280a24fc7bc9110cd4ab6c7177a4f88d3f8a7198b9427eb1ed66b6d24d1c5b2cc3ffde141ee84dfa636836c7c137968c0d683faeb96ee61138364a7d9c900f0efef6363965bcabf302594bca6e1b3b025bc3ae913b1289d933090f4870046e78e0ff7366c25406b6c4fc15cebbf7b748883864a8284f60a3df70e139ac473054d739c25bc27fcf63b1267e02e14db51f70813f092dad0293ef6bc5fa65c8a482375b93

/-- The signature of the eight bytes "firmware" under it, made by another program. -/
def wSignature : Nat := 0x94e4998ab6569ed241227f1a70cad7cea4d09d656d5a9ee4dbfed9cfa2456c314ddc2895659513a31429ef1c1e2b69cbb60322b30b4425093036484ca777de01714003a94646ba64c7ba6f9adad639e65d3f8412f45cdb8ff8d0116bc1ab9bbf0c141a55e1b17851cf3ee0297bf32b97d2027cfbbdc98dc73dcc2e3c4bec8c19b73411041dd706ec77a47743163a5b4f510c8cca49e6c7fb5d036aa9cb1830a04e5e5ca339cb9536723197159db9da5fd63e7c808681f40c739b4868f1d66c9e7541a079da242b95009dab74648c8ea3e048bcc924caef9cc59bed9762cb9c5298b6aa98c863ac30b6b66231b812d8da203e2054ce2212b4be13a6c845a3ea4064eb244023b9fc33a5d42123ed4197db474fc74c99ed1e9ddc7ff987923c8606ba6e95136628e85560fa80214cff33042c0ebf1063b0088e1406f8edb3fadd8aa77947608c8fbb1855376c06fc1a95234796904e838f328945964fbc8c5632e56c1cb5b3e520457485e9db6d1204190c573c4102cac06f471f908c6c66b555c4fcd1eaa788147e4216995029cdaac0621348e853adc1b112567874d70b0d35121e8a7f4ace9989a19630949b416ba6eb0c2a5ba4eba950cae830a18a0de2db9b5b1250eb80f24bcfae9f2da24e9567479d22ed3e22cb0a58cbda0e50bdda4d30e2635f616f3a852b99c992e95f1e3abf992013d07ff3e505ddf1e2f5a3f30b9d

/-- Those eight bytes. -/
def wFirmware : List Byte := [102, 105, 114, 109, 119, 97, 114, 101]

/-- That signature verifies, and does not verify other bytes. -/
theorem test_signature : pssVerify (beBytes 512 wModulus) wFirmware (beBytes 512 wSignature) = true ∧
    pssVerify (beBytes 512 wModulus) (wFirmware ++ [0]) (beBytes 512 wSignature) = false := by decide +kernel

/-- The hash of "abc" in the standard's example begins so. -/
theorem test_sha512 : (sha512 [97, 98, 99]).take 8 = [0xDD, 0xAF, 0x35, 0xA1, 0x93, 0x61, 0x7A, 0xBA] := by decide +kernel

/-- The bytes of PART_CREATE with a root. -/
def wCreate (root : Nat) : List Byte := bytesOfNat 128 root ++ List.replicate 320 0

/-- A device that waits for its firmware under that key, of which the image has arrived. -/
def wWaits (fw : List (Nat × List Byte)) : State := { w0 with dev := { w0.dev with boot := .waitfw, fwKey := beBytes 512 wModulus, fw := fw } }

theorem witness_PartitionsAndResets :
    (let m := fun (root : Nat) (granules : BitVec 64) => wCmd 0x01 63 0 granules 0 0 (wCreate root)
     let r := wRoot.toNat
     hdrPart (m r 2).hdr = 63 ∧ (1 < 48 ∧ (∀ q ∈ w0.parts, q.num ≠ 1) ∧ (∀ k, k < 1 → ∃ q ∈ w0.parts, q.num = k) ∧ w0.mem.wf = true) ∧
     (Begins w0 (m r 2) {} (taken w0 (m r 2)) ∧ (taken w0 (m r 2)).createFault (newPartition (m r 2) 1) = none) ∧
     (Begins w0 (m (2 ^ 48) 2) {} (taken w0 (m (2 ^ 48) 2)) ∧ (taken w0 (m (2 ^ 48) 2)).createFault (newPartition (m (2 ^ 48) 2) 1) = some 5 ∧
       rcbKind (newPartition (m (2 ^ 48) 2) 1).root ≠ 0) ∧
     (Begins w0 (m 0 2) {} (taken w0 (m 0 2)) ∧ (taken w0 (m 0 2)).createFault (newPartition (m 0 2) 1) ≠ some 5 ∧
       ∃ k, k < 11 ∧ rcbOvr (newPartition (m 0 2) 1).root k = false) ∧
     (Begins w0 (m r 1) {} (taken w0 (m r 1)) ∧ (taken w0 (m r 1)).createFault (newPartition (m r 1) 1) ≠ some 5 ∧
       (taken w0 (m r 1)).createFault (newPartition (m r 1) 1) ≠ some 13 ∧ ∃ q ∈ w0.parts, q.granules &&& (newPartition (m r 1) 1).granules ≠ 0)) ∧
    (let m := wCmd 0x02 0 0 0 0 0 []
     (∃ p, PartBegins w0 m {} (taken w0 m) p ∧ w0.mem.wf = true ∧ w0.ops = []) ∧
     (let o : Op := { wStore true with who := some (0, 0) }
      ∃ p, PartBegins (wOps [o]) m {} (taken (wOps [o]) m) p ∧ (wOps [o]).partOf o = some p.num)) ∧
    (let m := wCmd 0x10 63 0 1 0 0 []
     Begins w0 m {} (taken w0 m) ∧ hdrPart m.hdr = 63) ∧
    (let m := fun (last : BitVec 64) => wCmd 0x0E 63 0 0 last 0 wFirmware
     let s := wWaits [(8, beBytes 512 wSignature)]
     (Begins s (m 0) {} (taken s (m 0)) ∧ hdrArg (m 0).hdr 1 = 0) ∧
     (Begins s (m 1) {} (taken s (m 1)) ∧ hdrArg (m 1).hdr 1 ≠ 0 ∧
       let image := assemble (s.dev.fw ++ [(0, wFirmware)])
       512 ≤ image.length ∧ pssVerify s.dev.fwKey (image.take (image.length - 512)) (image.drop (image.length - 512)) = true) ∧
     (Begins (wWaits []) (m 1) {} (taken (wWaits []) (m 1)) ∧ ¬ 512 ≤ (assemble [(0, wFirmware)]).length)) := by
  refine ⟨⟨rfl, ?_, meetsB ?_, meetsB ?_, meetsB ?_, meetsB ?_⟩, ⟨?_, ?_⟩, meetsB ?_, ⟨meetsB ?_, meetsB ?_, meetsB ?_⟩⟩
  · exact ⟨by decide, by decide +kernel, fun k hk => ⟨wPart, by simp [w0, wTkd, wWith], by simp [wPart]; omega⟩, rfl⟩
  · decide +kernel
  · decide +kernel
  · decide +kernel
  · decide +kernel
  · exact meetsPB (by decide +kernel)
  · exact meetsPB (by decide +kernel)
  all_goals decide +kernel

/-- The witness tree with further words of memory written. -/
def wMemS (ws : List (Nat × Nat)) : State := { wTreeS [] with mem := ws.foldl (fun (m : Memory) w => m.write w.1 8 w.2) wTree }

/-- Memory whose launch node launches over a group of one device, which carries identity 0. -/
def wGroupS : State := wMemS [(0x200028, 0x2000000010400), (0x200400, 0x10200)]

/-- The witness tree whose partition is as given. -/
def wTreeQ (p : Partition) : State := { wTreeS [] with parts := [p] }

/-- Hypotheses of a LAUNCH whose node's chain, words and object are as asked. -/
def LaunchMeets (s : State) (m : JcpMsg) (P : Partition → Chain → Prop) : Prop :=
  ∃ p, PartBegins s m {} (taken s m) p ∧ ∃ ch, (taken s m).tree p (hdrTenant m.hdr) (hdrArg m.hdr 0).toNat = .ok ch ∧ P p ch

theorem launchMeets {s : State} {m : JcpMsg} {P : Partition → Chain → Prop} [∀ p, DecidablePred (P p)]
    (h : (begins s m {} && (decide (hdrPart m.hdr ≠ 63) && ((taken s m).part? (hdrPart m.hdr)).any (fun p => decide
      (((taken s m).tree p (hdrTenant m.hdr) (hdrArg m.hdr 0).toNat).toOption.any (fun ch => decide (P p ch)) = true)))) = true) : LaunchMeets s m P := by
  obtain ⟨p, hp, h⟩ := meetsPB h
  obtain ⟨ch, hc, h⟩ := gets h
  exact ⟨p, hp, ch, hc, h⟩

/-- The words of the launch node of a chain. -/
def wWords (ch : Chain) : Option (Nat × Nat × Nat × Bool) := launchWords ((ch.map (·.2)).headD 0)

theorem witness_LaunchPreemptResume (h : Config.deviceId = 0) :
    (let m := wCmd 0x05 0 0 0x10000 0 0 []
     let s := wTreeS []
     (∃ p, PartBegins s (wCmd 0x05 0 0 0x10001 0 0 []) {} (taken s (wCmd 0x05 0 0 0x10001 0 0 [])) p ∧ (0x10001 : Nat) % 64 ≠ 0) ∧
     (let n := wCmd 0x05 0 0 0x20000 0 0 []
      ∃ p, PartBegins s n {} (taken s n) p ∧ (taken s n).rcb p 0 0x20000 = none) ∧
     (let n := wCmd 0x05 0 0 0x10080 0 0 []
      ∃ p, PartBegins s n {} (taken s n) p ∧ ((taken s n).tree p 0 0x10080).toOption.isNone = true) ∧
     LaunchMeets (wMemS [(0x200028, 0x3000000010200)]) m (fun _ ch => wWords ch = none) ∧
     LaunchMeets (wMemS [(0x200028, 0x10201)]) m (fun p ch => (wWords ch).any (fun w => decide (w.1 ≠ 2 ∧
       ((taken (wMemS [(0x200028, 0x10201)]) m).template p 0 w.2.1 w.1).toOption.isNone = true)) = true) ∧
     LaunchMeets (wMemS [(0x200028, 0x2000000010201)]) m (fun p ch => (wWords ch).any (fun w => decide (w.1 = 2 ∧
       ((taken (wMemS [(0x200028, 0x2000000010201)]) m).groupShare p 0 w.2.1 w.2.2.1).toOption.isNone = true)) = true) ∧
     LaunchMeets s m (fun p ch => (wWords ch).any (fun w => decide (w.1 ≠ 2 ∧ 0 < w.2.2.1 ∧ s.tasks.length + w.2.2.1 + 2 ≤ 0x1000000 ∧
       ((taken s m).template p 0 w.2.1 w.1).toOption.any (fun t => !footNever ch t.foot) = true)) = true) ∧
     LaunchMeets (wMemS [(0x200008, 1)]) m (fun p ch => (wWords ch).any (fun w => decide (w.1 ≠ 2 ∧
       ((taken (wMemS [(0x200008, 1)]) m).template p 0 w.2.1 w.1).toOption.any (fun t => footNever ch t.foot) = true)) = true) ∧
     LaunchMeets wGroupS m (fun _ ch => wWords ch = some (2, 0x10400, 1, false)) ∧
     ((taken wGroupS m).part? 0).any (fun p => ((taken wGroupS m).groupShare p 0 0x10400 1).toOption.any (fun sh => decide (sh.count = 1 ∧ sh.ranks = 1))) = true) ∧
    (let m := wCmd 0x06 0 0 0 0 0 []
     (let s := wTreeQ { wTreeP with ckpts := [(0, 0)] }
      ∃ p, PartBegins s m {} (taken s m) p ∧ ∃ c ∈ p.ckpts, c.1 = 0) ∧
     (∃ p, PartBegins (wTreeS []) m {} (taken (wTreeS []) m) p ∧ p.ckpts = [] ∧ p.running = some 0) ∧
     (let s := wTreeQ { wTreeP with running := none }
      ∃ p, PartBegins s m {} (taken s m) p ∧ p.ckpts = [] ∧ p.running = none ∧ s.ops = [])) ∧
    (let m := wCmd 0x07 0 0 0 0 0 []
     ∃ p, PartBegins (wTreeS []) m {} (taken (wTreeS []) m) p ∧ p.halting = none) ∧
    (let m := wCmd 0x07 0 0 0 0 0 []
     let e : Endpoint := { busy := some m, waits := some [] }
     let n := wCmd 0x06 0 0 0 0 0 []
     let f : Endpoint := { busy := some n }
     let at_ := fun (e : Endpoint) (p : Partition) => ({ p with eps := e :: List.replicate 3 {} } : Partition)
     hdrPart m.hdr ≠ 63 ∧ hdrPart n.hdr ≠ 63 ∧
     (let s := wTreeQ (at_ e wTreeP)
      s.endpoint? 0 0 = some e ∧ s.part? 0 = some (at_ e wTreeP) ∧ (∀ x ∈ s.gangs, x.core ≠ none) ∧ (at_ e wTreeP).running = some 0 ∧
        (at_ e wTreeP).drain = none ∧ s.reloads (at_ e wTreeP) 0 = []) ∧
     (let p := at_ e { wTreeP with running := none }
      let s : State := { wTreeQ p with gangs := [wOut] }
      s.endpoint? 0 0 = some e ∧ s.part? 0 = some p ∧ (∃ x ∈ s.gangs, x.part = p.num ∧ x.tenant = 0 ∧ x.core = none) ∧ p.running = none) ∧
     (let p := at_ f { wTreeP with ckpts := [(0, 0)] }
      (wTreeQ p).endpoint? 0 0 = some f ∧ (wTreeQ p).part? 0 = some p ∧ ∃ c ∈ p.ckpts, c.1 = 0) ∧
     (let p := at_ f { wTreeP with running := none }
      (wTreeQ p).endpoint? 0 0 = some f ∧ (wTreeQ p).part? 0 = some p ∧ p.running = none ∧ p.ckpts = [] ∧ (wTreeQ p).ops = [])) := by
  refine ⟨⟨meetsPB ?_, meetsPB ?_, meetsPB ?_, launchMeets ?_, launchMeets ?_, launchMeets ?_, launchMeets ?_, launchMeets ?_, launchMeets ?_, ?_⟩,
    ⟨meetsPB ?_, meetsPB ?_, meetsPB ?_⟩, meetsPB ?_, ⟨?_, ?_, ?_, ?_, ?_, ?_⟩⟩
  case refine_10 => unfold State.groupShare; rw [h]; decide +kernel
  all_goals decide +kernel

/-- Memory in which tenant 1 has its page at 0x1_0000 in a far frame. -/
def wFarMem : Memory := [(0x1000, 0x1), (0x1002, 0x15), (0x100808, 0x40), (0x10080F, 0x80), (0x150000, 0x1), (0x150001, 0x10), (0x150002, 0x15), (0x151000, 0x1), (0x151001, 0x20), (0x151002, 0x15), (0x152008, 0xF), (0x15200E, 0x10)]

/-- Bytes of a checkpoint image of a tenant that has nothing but that page, where contexts are laid out as `someCodec` does, and the
device's identity and its sealing root are 0: part 1. -/
def wImage1 : Memory := [(0x10000000000000, 0x53), (0x10000000000001, 0x39), (0x10000000000002, 0x43), (0x10000000000003, 0x4B), (0x10000000000004, 0x1), (0x10000000000006, 0x1), (0x10000000000008, 0x1), (0x10000000000018, 0x90), (0x10000000000019, 0x23), (0x10000000000020, 0x6), (0x10000000000101, 0x21), (0x10000000000106, 0x1), (0x10000000000108, 0x1), (0x10000000000110, 0x33), (0x10000000000111, 0x4), (0x10000000000112, 0xB4), (0x10000000000113, 0x4B), (0x10000000000114, 0x90), (0x10000000000115, 0x28), (0x10000000000116, 0xD5), (0x10000000000118, 0x7C), (0x10000000000119, 0xE2), (0x1000000000011A, 0xEE), (0x1000000000011B, 0xE1), (0x1000000000011C, 0x42), (0x1000000000011D, 0x88), (0x1000000000011E, 0xE2), (0x1000000000011F, 0xE4), (0x10000000000120, 0x80), (0x10000000000121, 0x21), (0x10000000000126, 0x2), (0x10000000000128, 0x1), (0x10000000000130, 0x20), (0x10000000000131, 0x32), (0x10000000000132, 0xE4), (0x10000000000133, 0x3A), (0x10000000000134, 0xD), (0x10000000000135, 0xF7), (0x10000000000136, 0x41), (0x10000000000137, 0xA3)]

/-- Bytes of a checkpoint image of a tenant that has nothing but that page, where contexts are laid out as `someCodec` does, and the
device's identity and its sealing root are 0: part 2. -/
def wImage2 : Memory := [(0x10000000000138, 0x9E), (0x10000000000139, 0x77), (0x1000000000013A, 0x47), (0x1000000000013B, 0x7A), (0x1000000000013C, 0xA0), (0x1000000000013D, 0xDC), (0x1000000000013E, 0x3A), (0x1000000000013F, 0x5A), (0x10000000000141, 0x22), (0x10000000000146, 0x3), (0x10000000000148, 0x2), (0x10000000000150, 0x53), (0x10000000000151, 0x91), (0x10000000000152, 0x7F), (0x10000000000153, 0x1F), (0x10000000000154, 0x24), (0x10000000000155, 0x1), (0x10000000000156, 0x1D), (0x10000000000157, 0xB5), (0x10000000000158, 0x2F), (0x10000000000159, 0x99), (0x1000000000015A, 0xA0), (0x1000000000015B, 0x9E), (0x1000000000015C, 0x50), (0x1000000000015D, 0xBD), (0x1000000000015E, 0x7E), (0x1000000000015F, 0xAE), (0x10000000000160, 0x80), (0x10000000000161, 0x22), (0x10000000000166, 0x4), (0x10000000000168, 0x2), (0x10000000000170, 0x41), (0x10000000000171, 0x5D), (0x10000000000172, 0xD8), (0x10000000000173, 0x10), (0x10000000000174, 0x63), (0x10000000000175, 0xF8), (0x10000000000176, 0xE6), (0x10000000000177, 0x41), (0x10000000000178, 0x25)]

/-- Bytes of a checkpoint image of a tenant that has nothing but that page, where contexts are laid out as `someCodec` does, and the
device's identity and its sealing root are 0: part 3. -/
def wImage3 : Memory := [(0x10000000000179, 0xC2), (0x1000000000017A, 0x3), (0x1000000000017B, 0x4C), (0x1000000000017C, 0xFF), (0x1000000000017D, 0x47), (0x1000000000017E, 0x1C), (0x1000000000017F, 0x2A), (0x10000000000181, 0x23), (0x10000000000186, 0x5), (0x10000000000188, 0x1), (0x10000000000190, 0xF7), (0x10000000000191, 0xEF), (0x10000000000192, 0xB1), (0x10000000000193, 0xA4), (0x10000000000194, 0x82), (0x10000000000195, 0x29), (0x10000000000196, 0x15), (0x10000000000197, 0x5F), (0x10000000000198, 0xA6), (0x10000000000199, 0x79), (0x1000000000019A, 0xEE), (0x1000000000019B, 0x88), (0x1000000000019C, 0x1B), (0x1000000000019D, 0xD3), (0x1000000000019E, 0x12), (0x1000000000019F, 0xC), (0x100000000001A0, 0x80), (0x100000000001A1, 0x23), (0x100000000001A6, 0x7), (0x100000000001A8, 0x10), (0x100000000001B0, 0x13), (0x100000000001B1, 0xA6), (0x100000000001B2, 0x4F), (0x100000000001B3, 0x9A), (0x100000000001B4, 0xC7), (0x100000000001B5, 0xC7), (0x100000000001B6, 0x49), (0x100000000001B7, 0xA5), (0x100000000001B8, 0x15), (0x100000000001B9, 0xEA)]

/-- Bytes of a checkpoint image of a tenant that has nothing but that page, where contexts are laid out as `someCodec` does, and the
device's identity and its sealing root are 0: part 4. -/
def wImage4 : Memory := [(0x100000000001BA, 0xCF), (0x100000000001BB, 0xF4), (0x100000000001BC, 0x31), (0x100000000001BD, 0xF4), (0x100000000001BE, 0x2), (0x100000000001BF, 0x32), (0x10000000002100, 0x1E), (0x10000000002180, 0x69), (0x10000000002200, 0x6D), (0x10000000002201, 0x32), (0x10000000002280, 0xDD), (0x10000000002281, 0x8B), (0x10000000002300, 0x8A), (0x10000000002380, 0x80), (0x10000000002381, 0x4B), (0x10000000002382, 0x2A), (0x10000000002383, 0xA), (0x10000000002384, 0x15), (0x10000000002385, 0xEC), (0x10000000002386, 0xE9), (0x10000000002387, 0xE0), (0x10000000002388, 0x34), (0x10000000002389, 0x86), (0x1000000000238A, 0xC2), (0x1000000000238B, 0x65), (0x1000000000238C, 0xEC), (0x1000000000238D, 0xAE), (0x1000000000238E, 0x68), (0x1000000000238F, 0x8)]

/-- The machine with those tables, and in the far frame what `img` gives. -/
def wFarS (img : Memory) : State := { wCk [] with mem := wFarMem ++ img }

/-- The image. -/
def wImage : Memory := wImage1 ++ wImage2 ++ wImage3 ++ wImage4

/-- The CKPT that tenant 1 gets, with room for its image and a base that its table maps or does not. -/
def wCkpt (base room : BitVec 64) : JcpMsg := wCmd 0x0B 0 1 base room 0 []

/-- The state in which a CKPT of tenant 1 saves, and its partition then. -/
def wSaves (s : State) (m : JcpMsg) : State := (taken s m).modPart 0 (fun q => { q with ckpts := q.ckpts ++ [(1, 0)] })

/-- The partition once it has taken a command. -/
def wTook (p : Partition) (m : JcpMsg) : Partition := { p with eps := { busy := some m, seq := 1 } :: List.replicate 3 {} }

/-- The bytes that a RESTORE of the witness reads. -/
def wBytes (img : Memory) (n : Nat) : List Byte := (wFarS img).mem.bytes 0x10000000000000 n

/-- The machine whose tenant 1 has nothing, with counters. -/
def wBareS (cs : List (BitVec 512 × BitVec 64)) : State := { wCk [] with dev := { w0.dev with counters := cs } }

/-- The size of its image, where contexts are laid out as `someCodec` does. -/
theorem bare_size (h : Config.codec.pack = someCodec.pack) (cs : List (BitVec 512 × BitVec 64)) (hc : cs ∈ [[], List.replicate 16384 (1, 0)]) :
    imageSize ((wSaves (wBareS cs) (wCkpt 0x10000 0x10000)).sections (wTook wCkP (wCkpt 0x10000 0x10000)) 1) = 0x2301 := by
  simp only [State.sections, h]
  revert cs
  decide +kernel

/-- The size of the image with a far page. -/
theorem far_size (h : Config.codec.pack = someCodec.pack) :
    imageSize ((wSaves (wFarS []) (wCkpt 0x10000 0x10000)).sections (wTook wCkP (wCkpt 0x10000 0x10000)) 1) = 0x2390 := by
  simp only [State.sections, h]
  decide +kernel

/-- The RESTORE of the witnesses. -/
def wRestore : JcpMsg := wCmd 0x0C 0 1 0x10000 0x2390 0 []

/-- The image's check ends well, where the constants are those under which it was made. -/
theorem image_checks (hc : Config.codec.unpack = someCodec.unpack) (hd : Config.deviceId = 0) (hr : Config.sealRoot = 0) :
    ∃ secs, (taken (wFarS wImage) wRestore).restoreCheck (wTook wCkP wRestore) 1 (wBytes wImage 0x2390) = .ok secs := by
  have h : ((taken (wFarS wImage) wRestore).restoreCheck (wTook wCkP wRestore) 1 (wBytes wImage 0x2390)).toOption.isSome = true := by
    simp only [State.restoreCheck, State.contentKey, sealKey, contextsOf, hc, hd, hr]
    decide +kernel
  obtain ⟨secs, h, _⟩ := gets (P := fun _ => True) (by simpa [Option.isSome_iff_exists] using h)
  exact ⟨secs, h⟩

/-- The image is one by its form. -/
theorem image_ok : imageOk (wBytes wImage 0x2390) = true := by decide +kernel

/-- A message with a peer's bytes. -/
def wSpdm (payload : List Byte) : JcpMsg := wCmd 0x0D 0 0 0 0 0 payload

/-- The partition with a nonce, and peers. -/
def wNonce (peers : List Peer) : Partition := { wTreeP with nonces := [(0, 7, 0)], peers := peers }

/-- The partitions and payloads of the peer's witnesses. -/
abbrev wAsks : List (Partition × List Byte) := [(wTreeP, []), (wNonce [], [1]), (wNonce [], []), (wNonce (List.replicate 8 { tenant := 0, devId := 2, key := [] }), [])]

/-- Nothing refuses it, whatever request its bytes are. -/
theorem spdm_sound : ∀ q ∈ wAsks, (taken (wTreeQ q.1) (wSpdm q.2)).refusal (wSpdm q.2) = none := by
  intro q hq
  unfold State.refusal namesTenant
  generalize (Config.vendorRequest (wSpdm q.2).payload != 0) = b
  have h : b = true ∨ b = false := by cases b <;> simp
  simp only [List.mem_cons, List.not_mem_nil, or_false] at hq
  obtain rfl | rfl | rfl | rfl := hq <;> obtain rfl | rfl := h <;> decide +kernel

/-- Its sender is known, and it comes next at an endpoint that takes it. -/
theorem spdm_comes : ∀ q ∈ wAsks, (wTreeQ q.1).endpoint? (hdrPart (wSpdm q.2).hdr) (epOf (wSpdm q.2)) = some {} ∧
    ((wSpdm q.2).src ≠ 0 ∧ (wSpdm q.2).src ∈ senders (wTreeQ q.1) (wSpdm q.2)) ∧ (wTreeQ q.1).dev.boot ≠ .locked ∧
    ((wTreeQ q.1).part? (hdrPart (wSpdm q.2).hdr)).all (fun p => !p.closing) = true ∧ hdrSeq (wSpdm q.2).hdr = 0 ∧ hdrPart (wSpdm q.2).hdr ≠ 63 ∧
    (taken (wTreeQ q.1) (wSpdm q.2)).part? (hdrPart (wSpdm q.2).hdr) = some (wTook q.1 (wSpdm q.2)) := by
  decide +kernel

/-- It begins. -/
theorem spdm_begins (q : Partition × List Byte) (h : q ∈ wAsks) :
    PartBegins (wTreeQ q.1) (wSpdm q.2) {} (taken (wTreeQ q.1) (wSpdm q.2)) (wTook q.1 (wSpdm q.2)) := by
  obtain ⟨he, hs, hl, ho, hq, hm, hp⟩ := spdm_comes q h
  have hn : ∀ x ∈ ({} : Endpoint).stored, x.1 ≠ hdrSeq (wSpdm q.2).hdr := fun x hx => (List.not_mem_nil hx).elim
  have ho : opened (wTreeQ q.1) (wSpdm q.2) := by
    intro p hf
    rw [hf] at ho
    simpa using ho
  exact ⟨⟨⟨he, hs, hl, hn⟩, rfl, ho, hq, rfl, spdm_sound q h⟩, hm, hp⟩

/-- The peer that a MEASUREMENTS response over the one nonce names. -/
theorem peer_is {s : State} {m : JcpMsg} {p : Partition} {r : BitVec 64 × BitVec 512 × List Byte} (hn : p.nonces = [(0, 7, 0)]) (ht : hdrTenant m.hdr = 0)
    (hw : s.now = 0) (hs : Config.spdmPeer m.payload 7 = some r) : s.peerOf m p = some (7, r) := by
  have hs : Config.spdmPeer m.payload 7#256 = some r := hs
  simp [State.peerOf, hn, ht, hs, hw]

theorem witness_CheckpointsAndPeers (h : Config.codec.pack = someCodec.pack) (hc : Config.codec.unpack = someCodec.unpack) (hd : Config.deviceId = 0)
    (hr : Config.sealRoot = 0) (hs : Config.spdmPeer [] 7 = some (1, 0, [3])) (hx : Config.spdmPeer [1] 7 = some (1, 5, [3])) :
    (let m := wCmd 0x0B 0 0 0x10000 0 0 []
     (let s := wTreeQ { wTreeP with ckpts := [(0, 0)] }
      ∃ p, PartBegins s m {} (taken s m) p ∧ ∃ c ∈ p.ckpts, c.1 = 0) ∧
     (∃ p, PartBegins (wTreeS []) m {} (taken (wTreeS []) m) p ∧ p.ckpts = [] ∧ p.running = some 0 ∧ p.drain = none) ∧
     (let n := wCkpt 0x10000 0
      ∃ p, PartBegins (wFarS []) n {} (taken (wFarS []) n) p ∧ p.ckpts = [] ∧ p.running ≠ some 1 ∧
        (∀ x ∈ (wFarS []).gangs, x.tenant ≠ 1) ∧ (wFarS []).moving p.num 1 = [] ∧ (hdrArg n.hdr 1).toNat < 0x2100) ∧
     (∀ es, 0x2100 ≤ imageSize es) ∧
     (let n := wCkpt 0x10000 0x10000
      let full := List.replicate 16384 (1, 0)
      (∃ p, PartBegins (wBareS full) n {} (taken (wBareS full) n) p ∧ p = wTook wCkP n ∧ (wBareS full).dev.ctrFull (p.measureOf 1) = true ∧ p.ckpts = []) ∧
      imageSize ((wSaves (wBareS full) n).sections (wTook wCkP n) 1) = 0x2301 ∧
      (∃ p, PartBegins (wBareS []) n {} (taken (wBareS []) n) p ∧ p = wTook wCkP n ∧ (wBareS []).dev.ctrFull (p.measureOf 1) = false ∧
        (wSaves (wBareS []) n).hostMap p 1 0x10000 0x2301 = .bad) ∧
      imageSize ((wSaves (wBareS []) n).sections (wTook wCkP n) 1) = 0x2301 ∧
      (∃ p, PartBegins (wFarS []) n {} (taken (wFarS []) n) p ∧ p = wTook wCkP n ∧ (wFarS []).dev.ctrFull (p.measureOf 1) = false ∧
        (wSaves (wFarS []) n).hostMap p 1 0x10000 0x2390 = .ok [(0x10000000000000, true, 0x2390)]) ∧
      imageSize ((wSaves (wFarS []) n).sections (wTook wCkP n) 1) = 0x2390)) ∧
    (let m := wRestore
     (let n := wCmd 0x0C 0 0 0x10000 0x2390 0 []
      ∃ p, PartBegins (wTreeS []) n {} (taken (wTreeS []) n) p ∧ (wTreeS []).hasWork p.num 0 = true) ∧
     (∃ p, PartBegins (wBareS []) m {} (taken (wBareS []) m) p ∧ p.ckpts = [] ∧ (wBareS []).hasWork p.num 1 = false ∧
       (taken (wBareS []) m).hostMap p 1 0x10000 0x2390 = .bad) ∧
     (∀ img ∈ [[], wImage], ∃ p, PartBegins (wFarS img) m {} (taken (wFarS img) m) p ∧ p = wTook wCkP m ∧ p.ckpts = [] ∧ (wFarS img).hasWork p.num 1 = false ∧
       (taken (wFarS img) m).hostMap p 1 0x10000 0x2390 = .ok [(0x10000000000000, true, 0x2390)]) ∧
     imageOk (wBytes [] 0x2390) = false ∧ imageOk (wBytes wImage 0x2390) = true ∧
     natOfBytes (((wBytes wImage 0x2390).drop 128).take 64) = 0 ∧ natOfBytes (((wBytes wImage 0x2390).drop 8).take 8) = 1 ∧
     (let s := { wFarS wImage with dev := { w0.dev with fwMeas := 1 } }
      ∃ p, PartBegins s m {} (taken s m) p ∧ s.dev.fwMeas ≠ 0) ∧
     (let s := { wFarS wImage with dev := { w0.dev with counters := [(0, 5)] } }
      ∃ p, PartBegins s m {} (taken s m) p ∧ s.dev.fwMeas = 0 ∧ 1 < (s.dev.counterOf 0).toNat) ∧
     ∃ secs, (taken (wFarS wImage) m).restoreCheck (wTook wCkP m) 1 (wBytes wImage 0x2390) = .ok secs) ∧
    (let m := wCmd 0x0D 63 0 0 0 0 []
     Begins w0 m {} (taken w0 m)) ∧
    (let full := List.replicate 8 ({ tenant := 0, devId := 2, key := [] } : Peer)
     PartBegins (wTreeQ wTreeP) (wSpdm []) {} (taken (wTreeQ wTreeP) (wSpdm [])) (wTook wTreeP (wSpdm [])) ∧ (wTook wTreeP (wSpdm [])).nonces = [] ∧
     (let s := wTreeQ (wNonce [])
      PartBegins s (wSpdm [1]) {} (taken s (wSpdm [1])) (wTook (wNonce []) (wSpdm [1])) ∧
        (taken s (wSpdm [1])).peerOf (wSpdm [1]) (wTook (wNonce []) (wSpdm [1])) = some (7, 1, 5, [3]) ∧ (5 : BitVec 512) ≠ s.dev.fwMeas ∧
      PartBegins s (wSpdm []) {} (taken s (wSpdm [])) (wTook (wNonce []) (wSpdm [])) ∧
        (taken s (wSpdm [])).peerOf (wSpdm []) (wTook (wNonce []) (wSpdm [])) = some (7, 1, 0, [3]) ∧ (0 : BitVec 512) = s.dev.fwMeas) ∧
     (let s := wTreeQ (wNonce full)
      PartBegins s (wSpdm []) {} (taken s (wSpdm [])) (wTook (wNonce full) (wSpdm [])) ∧
        (taken s (wSpdm [])).peerOf (wSpdm []) (wTook (wNonce full) (wSpdm [])) = some (7, 1, 0, [3]) ∧
        8 ≤ ((full.filter (fun q => !(q.tenant == 0 && q.devId == 1))).filter (fun q => q.tenant == 0)).length)) := by
  refine ⟨⟨meetsPB ?_, meetsPB ?_, meetsPB ?_, image_ge, ⟨meetsPB ?_, bare_size h _ (.tail _ (.head _)), meetsPB ?_, bare_size h _ (.head _), meetsPB ?_, far_size h⟩⟩,
    ⟨meetsPB ?_, meetsPB ?_, ?_, ?_, image_ok, ?_, ?_, meetsPB ?_, meetsPB ?_, image_checks hc hd hr⟩, begins_begins ?_, ?_⟩
  case refine_16 =>
    refine ⟨spdm_begins (wTreeP, []) (.head _), rfl, ⟨spdm_begins (wNonce [], [1]) (.tail _ (.head _)), peer_is rfl (by decide +kernel) (by decide +kernel) hx, by decide +kernel,
      spdm_begins (wNonce [], []) (.tail _ (.tail _ (.head _))), peer_is rfl (by decide +kernel) (by decide +kernel) hs, by decide +kernel⟩,
      spdm_begins (wNonce (List.replicate 8 _), []) (.tail _ (.tail _ (.tail _ (.head _)))), peer_is rfl (by decide +kernel) (by decide +kernel) hs, by decide +kernel⟩
  case refine_9 =>
    intro img hi
    simp only [List.mem_cons, List.not_mem_nil, or_false] at hi
    obtain rfl | rfl := hi <;> exact meetsPB (by decide +kernel)
  all_goals decide +kernel

/-- The plain machine at a clock, whose partition, tasks and gangs are as given. -/
def wAt (now : Nat) (p : Partition) (ts : List Task) (gs : List Gang) : State := { wTreeQ p with now := now, tasks := ts, gangs := gs }

/-- A device whose die 0 is hot or has been cool for ten intervals, with its granules at an operating point. -/
def wDie (hot : Bool) (p : Point) : State := { w0 with dev := { w0.dev with hot := hot :: w0.dev.hot.drop 1, cool := 10 :: w0.dev.cool.drop 1, points := List.replicate 6 p ++ w0.dev.points.drop 6 } }

theorem witness_TurnsAndIntervals :
    (let p : Partition := wTreeP
     let one := wAt 27000000 p [wTreeT] [wGang wTk]
     let two := wAt 27000000 p [wTreeT, { wTreeT with id := 2, tenant := 1 }] [wGang wTk]
     (one.part? 0 = some p ∧ p.running = some 0 ∧ p.drain = none ∧ p.sliceEnd ≤ one.now ∧ (∀ q ∈ one.tasks, q.tenant = 0) ∧ ∀ x ∈ one.gangs, x.tenant = 0) ∧
     two.part? 0 = some p ∧ p.mayRun 1 = true ∧ p.sliceEnd ≤ two.now ∧ ∃ q ∈ two.tasks, q.part = 0 ∧ q.tenant = 1 ∧ q.ready = true ∧ q.ended = false) ∧
    (let p : Partition := { wTreeP with drain := some 5 }
     let s := wAt 5 p [wTreeT] [wGang wTk]
     let x := { wGang wTk with stop := true }
     let t := wAt 5 p [wTreeT] [x]
     (s.part? 0 = some p ∧ p.running = some 0 ∧ p.drain = some 5 ∧ 5 ≤ s.now ∧ s.dev.injs = [] ∧ ∃ x ∈ s.gangs, x.part = 0 ∧ x.tenant = 0 ∧ x.core ≠ none ∧ x.stop = false) ∧
     t.part? 0 = some p ∧ 5 ≤ t.now ∧ t.dev.injs = [] ∧ ∀ x ∈ t.gangs, x.stop = true ∧ t.saveReady x = true) ∧
    (let p : Partition := { wTreeP with running := none, halting := some 7 }
     let s := wAt 5 p [wTreeT] [wOut]
     (s.part? 0 = some p ∧ p.halting = some 7 ∧ p.running = none ∧ p.ckpts = [] ∧ s.ops = [] ∧ s.released 0 = [] ∧ p.unsent = []) ∧
     let o : Op := { wOp (.swap 65536 131072) with who := some (0, 0) }
     o.who.all (fun w => w.1 != p.num) = false ∧ o.kind = .swap 65536 131072) ∧
    (let p : Partition := { wTreeP with running := none }
     let s := wAt 5 p [wTreeT] [wOut]
     s.part? 0 = some p ∧ s.turnDue p = some 0 ∧ ∀ x ∈ s.gangs, x.loops = []) ∧
    (let s := wAt 270000 { wTreeP with powerMin := 1000000 } [wTreeT] [wGang wTk]
     s.dev.intStart + 270000 ≤ s.now ∧ s.ops = [] ∧ (s.parts.map (·.num)).Nodup ∧
       (∀ k, k < 32 → (s.parts.map (fun p => p.floors.getD k 0)).foldl (· + ·) 0 ≤ s.dev.portCap k) ∧
       6327 * ((List.range 192).filter (fun c => s.dev.cores.getLsbD c)).length / 2 < (s.parts.map (·.powerMin)).foldl (· + ·) 0 ∧
       s.released 0 = [] ∧ s.part? 0 = some { wTreeP with powerMin := 1000000 } ∧ wTreeP.unsent = []) ∧
    (w0.dev.swept = false ∧ ({ w0 with now := 135000 } : State).dev.intStart + 135000 ≤ 135000) ∧
    ((wDie true .p0).dev.hot.getD 0 false = true ∧ (wDie true .p0).dev.stepped.getD 0 0 ≠ (wDie true .p0).dev.intStart / 270000 + 1 ∧
      (wDie true .p0).dev.points[0]? = some .p0 ∧ (wDie true .p1).dev.points[0]? = some .p1) ∧
    ((wDie false .p2).dev.hot.getD 0 false = false ∧ (wDie false .p2).dev.stepped.getD 0 0 ≠ (wDie false .p2).dev.intStart / 270000 + 1 ∧
      10 ≤ (wDie false .p2).dev.cool.getD 0 0 ∧ (wDie false .p2).dev.points[0]? = some .p2 ∧ (wDie false .p1).dev.points[0]? = some .p1) := by
  refine ⟨?_, ?_, ?_, ?_, ?_, ?_, ?_, ?_⟩ <;> decide +kernel

/-- The host's transfers of the witnesses: at a physical or a virtual address. -/
def wMem (op : Nat) (a phys n : BitVec 64) (pl : List Byte) : JcpMsg := wCmd op 0 0 a phys n pl

theorem witness_HostMemoryAndTelemetry :
    (let s := wTreeS []
     s.mem.wf = true ∧ s.sound = true ∧
     (∃ p, PartBegins s (wMem 0x03 0x300000 1 0 [1, 2]) {} (taken s (wMem 0x03 0x300000 1 0 [1, 2])) p ∧ ∀ c ∈ pageCuts 0x300000 2 2, p.owns c.1 c.2 = true) ∧
     (∃ p, PartBegins s (wMem 0x03 0x20000000 1 0 [1, 2]) {} (taken s (wMem 0x03 0x20000000 1 0 [1, 2])) p ∧ ¬ ∀ c ∈ pageCuts 0x20000000 2 2, p.owns c.1 c.2 = true) ∧
     (∃ p, PartBegins s (wMem 0x03 0x10010 0 0 [1, 2]) {} (taken s (wMem 0x03 0x10010 0 0 [1, 2])) p ∧ 0x10010 % 65536 + 2 ≤ 65536 ∧
       (match walk s.mem p 0 0x10010 .host true with
        | .pa pa _ _ _ _ _ xb _ => decide (pa = 0x200010 ∧ xb = true)
        | _ => false) = true) ∧
     (let t := { wTreeS [] with mem := wTree.write 0x142008 8 0x200007 }
      ∃ p, PartBegins t (wMem 0x03 0x10010 0 0 [1, 2]) {} (taken t (wMem 0x03 0x10010 0 0 [1, 2])) p ∧
       (match walk t.mem p 0 0x10010 .host true with
        | .pa pa _ _ _ _ _ xb _ => decide (pa = 0x200010 ∧ xb = false)
        | _ => false) = true) ∧
     (∃ p, PartBegins s (wMem 0x04 0x200000 1 8 []) {} (taken s (wMem 0x04 0x200000 1 8 [])) p ∧ ∀ c ∈ pageCuts 0x200000 8 2, p.owns c.1 c.2 = true) ∧
     (∃ p, PartBegins s (wMem 0x04 0x20000000 1 8 []) {} (taken s (wMem 0x04 0x20000000 1 8 [])) p ∧ ¬ ∀ c ∈ pageCuts 0x20000000 8 2, p.owns c.1 c.2 = true) ∧
     (∃ p, PartBegins s (wMem 0x04 0x10010 0 8 []) {} (taken s (wMem 0x04 0x10010 0 8 [])) p ∧
       (match walk s.mem p 0 0x10010 .host true with
        | .pa pa .. => decide (pa = 0x200010)
        | _ => false) = true)) ∧
    (let m := wCmd 0x08 0 0 4096 0 0 []
     ∃ p, PartBegins (wTreeS []) m {} (taken (wTreeS []) m) p ∧ p.num = 0) ∧
    (let z := { wSlot with park := some (.fault 5) }
     let s := { wTreeS [] with gangs := [wGang { wTk with slots := [z, {}] }] }
     let m := fun (k : Byte) => wCmd 0x09 0 0 0 0 0 [k, 0, 0, 0]
     (s.gangs.map (·.id)).Nodup ∧ s.slot? 1 0 0 = some z ∧
     (∃ p, PartBegins s (m 5) {} (taken s (m 5)) p ∧ p.num = 0 ∧ natOfBytes (((m 5).payload.drop 0).take 4) = 5) ∧
     (∃ p, PartBegins s (m 6) {} (taken s (m 6)) p ∧ p.num = 0 ∧ natOfBytes (((m 6).payload.drop 0).take 4) = 6)) ∧
    (let m := wCmd 0x0A 0 0 0x10000 4096 1 []
     ∃ p, PartBegins (wTreeS []) m {} (taken (wTreeS []) m) p ∧ p.num = 0) ∧
    (let m := wCmd 0x0F 63 0 3 0 0 []
     Begins w0 m {} (taken w0 m)) ∧
    (let m := wCmd 0x0F 0 0 1 0 0 []
     let s := wTreeS []
     Begins s m {} (taken s m) ∧ hdrPart m.hdr ≠ 63 ∧ (taken s m).parts.Nodup ∧
       ((taken s m).part? 0).any (fun p => (taken s m).parts.all (fun q => !(q.num == p.num) || q == p) && decide ((p.jobs.filter (fun j => j.out ≠ 0)).length < 100000)) = true) := by
  refine ⟨⟨by decide +kernel, by decide +kernel, meetsPB ?_, meetsPB ?_, meetsPB ?_, meetsPB ?_, meetsPB ?_, meetsPB ?_, meetsPB ?_⟩, meetsPB ?_,
    ⟨?_, ?_, meetsPB ?_, meetsPB ?_⟩, meetsPB ?_, begins_begins ?_, meetsB ?_⟩ <;> decide +kernel

theorem witness_SynchronisationWordsComplete :
    (let s := wG [0x100000FF0]
     ∃ c, Passes s t0 c ∧ c.act ≠ 0 ∧ c.act = c.sl.mask ∧ (spent s).ownWrites c.g c.t c.k = [] ∧ (spent s).fifoAll (c.core / 8) ≤ s.now ∧
       (c.tk.g.getD 10 0).toNat < 2 ^ 33 ∧ (c.tk.g.getD 10 0).toNat % 2 ^ 32 < c.x.foot.sp ∧ (c.tk.g.getD 10 0).toNat % 16 = 0) ∧
    (∃ c, Passes w0 t0 c ∧ c.act ≠ 0 ∧ (∃ z ∈ c.tk.slots, z.valid = false) ∧ (∀ i ∈ w0.dev.injs, i.home = c.core → i.array ≠ 2 ∧ i.array ≠ 3) ∧
      0 + 7 + 1 ≤ c.tk.m.length ∧ ∀ h ∈ c.tk.home, h = none) ∧
    (∃ c, Passes (wTkd { wTk with home := some 0 :: List.replicate 31 none }) t0 c ∧ c.act ≠ 0 ∧ (∃ z ∈ c.tk.slots, z.valid = false) ∧
      c.tk.home.getD 0 none ≠ none) ∧
    (∃ c, Passes w0 t0 c ∧ c.act ≠ 0 ∧ (spent w0).ownReads c.g c.t c.k = [] ∧ (spent w0).ownWrites c.g c.t c.k = [] ∧ c.ownBanks (spent w0) = [] ∧
      (spent w0).fifoAll (c.core / 8) ≤ w0.now ∧ (spent w0).banksEmptyAt c.core ≤ c.clk ∧ (spent w0).coreWrites c.core true true = [] ∧
      (spent w0).coreWrites c.core true false = [] ∧ (spent w0).coreWrites c.core false true = []) ∧
    (∃ c, Passes (wG [128, 0, 8]) t0 c ∧ c.act ≠ 0 ∧ (c.tk.uval g10).toNat % 128 = 0 ∧ (c.tk.uval g11).toNat % 128 = 0 ∧ (c.tk.uval g12).toNat % 8 = 0) ∧
    (∃ c a, Passes (wMG [0x1FFF8]) t0 c ∧ c.single (spent (wMG [0x1FFF8])) (c.part (wMG [0x1FFF8])) (c.tk.uval g10) 8 .read 0 = .ok a ∧ c.act ≠ 0 ∧
      a.1.sound = true) ∧
    (∃ c a, Passes (wMG [0x10000]) t0 c ∧ c.single (spent (wMG [0x10000])) (c.part (wMG [0x10000])) (c.tk.uval g10) 8 .write 2 = .ok a ∧ c.act ≠ 0 ∧ True) ∧
    (∃ c, Passes (wG [4080, 1, 0x80FFFFFF]) t0 c ∧ c.act ≠ 0 ∧ (c.tk.uval g10).toNat < c.x.foot.sp ∧ (c.tk.uval g10).toNat % 16 = 0 ∧
      (c.tk.uval g12).toNat / 2 ^ 24 % 2 ^ 7 = 0 ∧ (c.tk.uval g12).toNat < 2 ^ 32 ∧ ((wG [4080, 1, 0x80FFFFFF]).core c.core).locks = [] ∧
      (∀ x ∈ (wG [4080, 1, 0x80FFFFFF]).gang? c.g, ∀ w ∈ x.windows, w = none) ∧ (wG [4080, 1, 0x80FFFFFF]).gang? c.g = some c.x ∧
      (wG [4080, 1, 0x80FFFFFF]).sound = true ∧ c.ownAt (spent (wG [4080, 1, 0x80FFFFFF])) false 4080 16 = [] ∧
      c.ownBanks (spent (wG [4080, 1, 0x80FFFFFF])) = [] ∧ c.x.phaseOf 4080 ≠ (c.tk.uval g11).getLsbD 0) ∧
    (∃ c, Passes (wG [4080]) t0 c ∧ c.act ≠ 0 ∧ c.x.phaseOf 4080 = (c.tk.uval g11).getLsbD 0) ∧
    (∃ c a, Passes (wG [4080]) t0 c ∧ c.cell (spent (wG [4080])) (c.part (wG [4080])) true true (c.tk.uval g10) = .ok a ∧ c.act ≠ 0 ∧
      a.2.2.getLsbD 64 = false ∧ c.ownBanks a.1 = []) ∧
    (∃ c a, Passes (wMG [0x1FFF0]) t0 c ∧ c.cell (spent (wMG [0x1FFF0])) (c.part (wMG [0x1FFF0])) false true (c.tk.uval g10) = .ok a ∧ c.act ≠ 0 ∧
      a.2.2.getLsbD 64 = false ∧ a.1.ownAccs c.g c.t c.k = [] ∧ a.1.fifoAll (c.core / 8) ≤ a.1.now) ∧
    (let s := { wMG [0x10000] with mem := (loadTables []).write 0x200008 1 1 }
     ∃ c a, Passes s t0 c ∧ c.cell (spent s) (c.part s) false false (c.tk.uval g10) = .ok a ∧ c.act ≠ 0 ∧ a.2.2.getLsbD 64 = true) ∧
    (∃ c, Passes (wG [0, 0]) t0 c ∧ c.act ≠ 0 ∧ (spent (wG [0, 0])).pushing c.g 3 = [] ∧ (c.tk.uval g11).toNat = 0) ∧
    (∃ c, Passes (wG [3840, 2]) t0 c ∧ c.act ≠ 0 ∧ (spent (wG [3840, 2])).pushing c.g 3 = [] ∧ 2 ≤ (c.tk.uval g11).toNat ∧
      (c.tk.uval g10).toNat % 128 = 0 ∧ (c.tk.uval g10).toNat + 128 * (c.tk.uval g11).toNat ≤ c.x.foot.sp) ∧
    (let s := wTkd { wT true with n := List.replicate 32 65528 :: (List.range 32).map (fun _ => (List.range 32).map (fun l => BitVec.ofNat 32 (16 * l))) }
     ∃ c rd, Passes s t0 c ∧ c.read (spent s) [(.n 0 false, .int, 1), (.n 1 false, .int, 1)] = .ok rd ∧ c.act ≠ 0 ∧
       (c.read (spent s) [(.n 0 false, .int, 1)]).toOption.isSome = true ∧
       (c.sublCheck (spent s) (c.part s) 0 (lanesAt c rd 0) (((List.range 32).filter (fun l => c.act.getLsbD l)).map
         (fun l => (l, ((rd.v.getD 1 []).getD l 0).toNat % 2 ^ 32)))).toOption.any (fun q => q.1.sound && (c.read q.1 [(.n 0 false, .int, 1), (.n 1 false, .int, 1)]).toOption.isSome) = true) ∧
    (∃ c rd, Passes (wN 4080 1) t0 c ∧ c.read (spent (wN 4080 1)) [(.n 0 false, .int, 1), (.n 1 false, .int, 1)] = .ok rd ∧ c.act ≠ 0 ∧
      ((wN 4080 1).core c.core).locks = [] ∧ (wN 4080 1).sound = true ∧ (∀ x ∈ (wN 4080 1).gang? c.g, ∀ w ∈ x.windows, w = none) ∧
      ∀ l ∈ List.range 32, ((rd.v.getD 0 []).getD l 0).toNat % 2 ^ 32 < c.x.foot.sp ∧ ((rd.v.getD 0 []).getD l 0).toNat % 2 ^ 32 % 16 = 0 ∧
        c.ownAt (spent (wN 4080 1)) false 4080 16 = [] ∧ Memory.read c.x.sp (4080 + 8) 2 ≠ ((rd.v.getD 1 []).getD l 0).toNat % 2 ^ 16) ∧
    (∃ c, Passes (wG [0xFFFFFFFFFFFC, 0xFFFFFFFFFFFF, 0xFFFFFFFF]) t0 c ∧ c.act ≠ 0 ∧ (c.tk.uval g12).toNat < 2 ^ 35 ∧ (c.tk.uval g12).toNat / 2 ^ 32 % 4 ≠ 3 ∧
      (c.tk.uval g10).toNat % 4 = 0 ∧ (c.tk.uval g10).toNat < 2 ^ 48 ∧ (c.tk.uval g11).toNat < 2 ^ 48) ∧
    (let s := wTkd { wTk with s := { bound := true, count := 33, next := 32, started := true } :: List.replicate 3 {} }
     ∃ c, Passes s t0 c ∧ c.act ≠ 0 ∧ (c.tk.s.getD 0 {}).bound = true) :=
  ⟨meetsP (by decide +kernel), meetsP (by decide +kernel), meetsP (by decide +kernel), meetsP (by decide +kernel), meetsP (by decide +kernel), meetsG (by decide +kernel),
   meetsG (by decide +kernel), meetsP (by decide +kernel), meetsP (by decide +kernel), meetsG (by decide +kernel), meetsG (by decide +kernel), meetsG (by decide +kernel),
   meetsP (by decide +kernel), meetsP (by decide +kernel), meetsR (by decide +kernel), meetsR (by decide +kernel), meetsP (by decide +kernel), meetsP (by decide +kernel)⟩

end Sys2Proof
end

-- Proofs of the statements on reset, partitions and host commands (spec/00_scope.md)
section
/-! SUPPORT. What power-on reset leaves, and what the host's commands do to the work of a partition: two statements that
ask for more than their hypotheses give. -/

namespace Sys2Proof.Scope

open Sys2Proof Sys2Proof.Machine Sys2Proof.Says

/-! ### Power-on reset -/

/-- No core position holds a translation or a range lock after reset. -/
theorem reset_cores_hold_nothing : ∀ c ∈ State.reset.cores, c.tlb = [] ∧ c.locks = [] := by
  intro c hc
  obtain rfl : c = Core.reset := List.eq_of_mem_replicate hc
  exact ⟨rfl, rfl⟩

/-- Settles O5: every part is the value that `State.reset` gives it, and in memory no address is listed. -/
theorem resetState : Obligations.ResetState :=
  ⟨rfl, rfl, rfl, rfl, rfl, rfl, rfl, rfl, rfl, rfl, rfl, rfl, by decide, List.length_replicate,
    reset_cores_hold_nothing, rfl, fun _ => rfl⟩

/-! ### A partition of one granule and a command to its endpoint 0 -/

/-- A partition of granule 0 that takes commands from fabric address 7. -/
def granulePart : Partition where
  num := 0
  granules := 1
  cxl := 0
  eth := 0
  sys := false
  root := 0
  weights := []
  fabric := [7]
  powerMin := 0
  floors := []
  eps := List.replicate 4 {}

/-- The command `op` from address 7 to endpoint 0 of partition 0, with its SEQ and its ARG0 at 0. -/
def hostCommand (op : Nat) (arg1 : BitVec 64) (payload : List Byte) : JcpMsg where
  src := 7
  hdr := mkHdr 0 op 0 0 0 0 0 payload.length 0 0 arg1 0 0
  payload := payload

/-- The partition while its endpoint 0 runs a command. -/
def granulePartRunning (m : JcpMsg) : Partition :=
  { granulePart with eps := { seq := 1, busy := some m } :: List.replicate 3 {} }

/-- A command with the first SEQ, from the address that the partition knows, begins unless the checks of R380 refuse it. -/
theorem partBegins_granulePart {s : State} {m : JcpMsg} (parts : s.parts = [granulePart]) (boot : s.dev.boot ≠ .locked)
    (src : m.src = 7) (part : hdrPart m.hdr = 0) (ep : hdrEp m.hdr = 0) (seq : hdrSeq m.hdr = 0)
    (passes : (taken s m).refusal m = none) : PartBegins s m {} (taken s m) (granulePartRunning m) := by
  have at0 : epOf m = 0 := by simp [epOf, part, ep]
  have here : s.part? 0 = some granulePart := by rw [State.part?, parts]; rfl
  have there : (taken s m).part? 0 = some (granulePartRunning m) := by
    simp only [taken, part, at0, State.part?, State.modEndpoint, State.modPart, parts]
    rfl
  refine ⟨⟨⟨?_, ⟨?_, ?_⟩, boot, ?_⟩, rfl, ?_, seq, rfl, passes⟩, ?_, ?_⟩
  · rw [part, at0, State.endpoint?, here]; rfl
  · rw [src]; decide
  · simp [senders, part, at0, here, src, granulePart]
  · exact fun x hx => absurd hx (List.not_mem_nil)
  · intro p hp
    rw [part, here] at hp
    obtain rfl := Option.some.inj hp
    decide
  · rw [part]; decide
  · rw [part, there]

/-! ### PART_DESTROY where two tasks carry one number -/

/-- A task of partition 0 with number 1. -/
def taskOne (ended : Bool) : Task :=
  { id := 1, part := 0, tenant := 0, job := 0, launch := 0, group := 0, ended := ended }

/-- A partition with a store under way and two tasks of one number, the older of which has ended. -/
def twoOfOneNumber : State :=
  { State.reset with
    parts := [granulePart]
    tasks := [taskOne true, taskOne false]
    ops := [{ id := 0, gang := 1, tk := 0, slot := 0, core := none, who := some (0, 0), at_ := 0, kind := .store [] }] }

/-- PART_DESTROY of partition 0. -/
def destroyCommand : JcpMsg := hostCommand 0x02 0 []

/-- Ending the partition's work looks a task up by its number, finds the one that has ended, and leaves the other. -/
theorem partDestroy_leaves_task :
    ∃ u, exec (.partDestroy destroyCommand) twoOfOneNumber = .next u ∧ taskOne false ∈ u.tasks := by
  refine ⟨_, rfl, ?_⟩
  decide +kernel

/-- Refutes O55: while the stores of a partition drain, every task of it has to have ended, but no hypothesis says that
tasks have distinct numbers, and `State.endAll` ends tasks by their numbers. Of two tasks of one number, the first of which
has ended, the second goes on. -/
theorem not_partitionsAndResets : ¬ Obligations.PartitionsAndResets := by
  intro h
  obtain ⟨-, destroy, -⟩ := h
  have begins : PartBegins twoOfOneNumber destroyCommand {} (taken twoOfOneNumber destroyCommand)
      (granulePartRunning destroyCommand) :=
    partBegins_granulePart rfl (by decide) rfl (by decide) (by decide) (by decide) (by decide +kernel)
  obtain ⟨draining, -⟩ := destroy _ _ _ _ _ begins rfl
  obtain ⟨⟨u, run, -, -, -, -, ended⟩, -⟩ := draining ⟨_, List.mem_singleton_self _, rfl, trivial⟩
  obtain ⟨v, run', going⟩ := partDestroy_leaves_task
  obtain rfl : v = u := Host.Outcome.next.inj (run'.symm.trans run)
  exact absurd (ended _ going rfl) (by decide)

/-! ### MEM_WRITE to a location whose subscription entry is lost -/

/-- A gang that subscribed to the location at address 0, and an injection that inverts two bits of the home agent's entry for
it whenever the entry is read (R440). -/
def lostSubscription : State :=
  { State.reset with
    parts := [granulePart]
    tasks := [taskOne false]
    gangs := [{ id := 1, part := 0, tenant := 0, core := some 0 }]
    subs := [{ addr := 0, subs := [{ gang := 1, slot := 0 }] }]
    dev := { Device.reset with injs := [{ array := 6, home := 0, persist := true, addr := 0, mask := 3 }] } }

/-- MEM_WRITE of one byte to physical address 0. -/
def writeCommand : JcpMsg := hostCommand 0x03 1 [1]

/-- The write pushes to its subscriber; reading the entry fails for good, so the subscriber's fault domain aborts (R438). -/
theorem memWrite_ends_task :
    ∃ u, exec (.memWrite writeCommand) lostSubscription = .next u ∧ u.tasks ≠ lostSubscription.tasks := by
  refine ⟨_, rfl, ?_⟩
  decide +kernel

/-- Refutes O59: a physical MEM_WRITE is to leave every task as it was, but its clauses do not suppose sound storage, as those
of MEM_READ do. A write to a location whose subscription entry has an uncorrectable error aborts the subscriber's fault domain,
which ends its tasks. -/
theorem not_hostMemoryAndTelemetry : ¬ Obligations.HostMemoryAndTelemetry := by
  intro h
  obtain ⟨⟨memory, -⟩, -⟩ := h
  have begins : PartBegins lostSubscription writeCommand {} (taken lostSubscription writeCommand)
      (granulePartRunning writeCommand) :=
    partBegins_granulePart rfl (by decide) rfl (by decide) (by decide) (by decide) (by decide +kernel)
  obtain ⟨writes, -⟩ := memory _ _ _ _ _ begins
  obtain ⟨u, run, -, -, same⟩ := writes rfl (by decide) (by decide) (by decide +kernel)
  obtain ⟨v, run', differ⟩ := memWrite_ends_task
  obtain rfl : v = u := Host.Outcome.next.inj (run'.symm.trans run)
  exact differ same

end Sys2Proof.Scope
end

-- Proofs of the statements on registers and lane state (spec/03_registers_and_lane_state.md)
section
/-! SUPPORT. What the words on branch-target registers and the reading of sources leave behind, and three statements on
landings and bindings that ask for more than their hypotheses give. -/

namespace Sys2Proof.LaneState

open Sys2Proof Sys2Proof.Machine Sys2Proof.Says Sys2Proof.Laws Sys2Proof.Scope

/-! ### Looking up a part of the state that was changed -/

theorem gang?_modGang (s : State) (g : Nat) (f : Gang → Gang) (keeps : ∀ x, (f x).id = x.id) :
    (s.modGang g f).gang? g = (s.gang? g).map f := by
  have same : (fun x : Gang => x.id == g) ∘ (fun x => if x.id == g then f x else x) = fun x => x.id == g := by
    funext x
    by_cases h : x.id = g <;> simp [h, keeps]
  simp only [State.gang?, State.modGang_gangs, List.find?_map, same]
  refine Option.map_congr fun x hx => ?_
  rw [if_pos (List.find?_some hx)]

theorem tk?_modTk (s : State) (g t : Nat) (f : Tussock → Tussock) : (s.modTk g t f).tk? g t = (s.tk? g t).map f := by
  rw [State.tk?, State.modTk, gang?_modGang s g _ (by intro x; rfl), Option.bind_map, State.tk?, Option.map_bind]
  refine Option.bind_congr fun x _ => ?_
  simp

theorem slot?_modSlot (s : State) (g t k : Nat) (f : Slot → Slot) :
    (s.modSlot g t k f).slot? g t k = (s.slot? g t k).map f := by
  rw [State.slot?, State.modSlot, tk?_modTk, Option.bind_map, State.slot?, Option.map_bind]
  refine Option.bind_congr fun x _ => ?_
  simp

theorem modGang_modGang (s : State) (g : Nat) (f h : Gang → Gang) (keeps : ∀ x, (f x).id = x.id) :
    (s.modGang g f).modGang g h = s.modGang g (fun x => h (f x)) := by
  simp only [State.modGang, List.map_map]
  congr 1
  refine List.map_congr_left fun x _ => ?_
  by_cases hx : x.id = g <;> simp [hx, keeps]

theorem modSlot_modSlot (s : State) (g t k : Nat) (f h : Slot → Slot) :
    (s.modSlot g t k f).modSlot g t k h = s.modSlot g t k (fun x => h (f x)) := by
  simp only [State.modSlot, State.modTk]
  rw [modGang_modGang _ _ _ _ (by intro x; rfl)]
  simp only [List.modify_modify_eq, Function.comp_def]

/-! ### Storage errors of global memory touch no gang (R435 to R440, R450) -/

@[simp] theorem emit_gangs (s : State) (p op : Nat) (a0 a1 a2 : BitVec 64) : (s.emit p op a0 a1 a2).gangs = s.gangs := by
  unfold State.emit
  split <;> rfl

@[simp] theorem event_gangs (s : State) (p op : Nat) (a0 a1 a2 : BitVec 64) : (s.event p op a0 a1 a2).gangs = s.gangs := by
  unfold State.event
  split
  · rfl
  · dsimp only
    split
    · exact emit_gangs ..
    · rfl

@[simp] theorem logErr_gangs (s : State) (array home : Nat) (addr : BitVec 48) (cls : Nat) (inj spared : Bool)
    (synd : BitVec 16) (r : Reader) : (s.logErr array home addr cls inj spared synd r).gangs = s.gangs := by
  unfold State.logErr
  exact (apply_ite State.gangs _ _ _).trans (ite_self _)

@[simp] theorem spare_gangs (s : State) (array home addr : Nat) : (s.spare array home addr).gangs = s.gangs := rfl

@[simp] theorem condemn_gangs (s : State) (array home : Nat) : (s.condemn array home).gangs = s.gangs := by
  unfold State.condemn
  split <;> rfl

@[simp] theorem countErr_gangs (s : State) (array home addr : Nat) (transient : Bool) :
    (s.countErr array home addr transient).gangs = s.gangs := by
  unfold State.countErr
  exact (apply_ite State.gangs _ _ _).trans (ite_self _)

@[simp] theorem mchkEvent_gangs (s : State) (p array home : Nat) (addr : BitVec 48) (spared inj : Bool) (r : Reader) :
    (s.mchkEvent p array home addr spared inj r).gangs = s.gangs := event_gangs ..

/-- A word of an array of global memory lies in no gang. -/
theorem flipWord_gangs {array : Nat} (glob : array = 0 ∨ array = 7) (s : State) (home real : Nat) (m : BitVec 64) :
    (s.flipWord array home real m).gangs = s.gangs := by
  unfold State.flipWord
  obtain rfl | rfl := glob <;> rfl

theorem loseUnit_gangs {array : Nat} (glob : array = 0 ∨ array = 7) (s : State) (home real : Nat) :
    (s.loseUnit array home real).gangs = s.gangs := by
  unfold State.loseUnit
  exact List.foldlRecOn (motive := fun u : State => u.gangs = s.gangs) _ _ rfl
    (fun u hu k _ => (flipWord_gangs glob ..).trans hu)

theorem lastingEvent_gangs {array : Nat} (glob : array = 0 ∨ array = 7) (s : State) (home w real p : Nat) (inj : Bool)
    (synd : BitVec 16) (r : Reader) : (s.lastingEvent array home w real p inj synd r).gangs = s.gangs := by
  unfold State.lastingEvent
  rw [mchkEvent_gangs]
  split
  · simp
  · split
    · simp
    · simp [loseUnit_gangs glob]

theorem readWord_gangs {array : Nat} (glob : array = 0 ∨ array = 7) (s : State) (home w real p : Nat) (r : Reader) :
    (s.readWord array home w real p r).1.gangs = s.gangs := by
  unfold State.readWord
  dsimp only
  split
  · rfl
  · split <;> simp
  · split
    · exact lastingEvent_gangs glob ..
    · split <;> simp
  · rfl
  · split <;> simp [flipWord_gangs glob]

theorem eccGlobal_gangs (s : State) (p : Partition) (pa n : Nat) (r : Reader) : (s.eccGlobal p pa n r).s.gangs = s.gangs := by
  unfold State.eccGlobal
  split
  · simp [State.lostPort]
  · have glob : ∀ b : Prop, [Decidable b] → (if b then 0 else 7) = 0 ∨ (if b then 0 else 7) = 7 := by
      intro b _
      split <;> simp
    exact List.foldlRecOn (motive := fun u : State × Option Nat × Nat => u.1.gangs = s.gangs) _ _ rfl
      (fun u hu k _ => (readWord_gangs (glob _) ..).trans hu)

theorem walkRead_gangs (s : State) (p : Partition) (tenant va : Nat) (r : Reader) : (s.walkRead p tenant va r).1.gangs = s.gangs := by
  unfold State.walkRead
  split
  · rfl
  · exact List.foldlRecOn (motive := fun u : State × Option Nat × List (Nat × BitVec 128) => u.1.gangs = s.gangs) _ _ rfl
      (fun u hu ea _ => (eccGlobal_gangs ..).trans hu)

/-- Translating an address touches no gang: it reads the tables, fills the TLB and sets A (R393, R396). -/
@[simp] theorem translate_gangs (s : State) (core : Nat) (p : Partition) (tenant va : Nat) (acc : Access) (sup : Bool) (r : Reader) :
    (s.translate core p tenant va acc sup r).1.gangs = s.gangs := by
  unfold State.translate
  split
  · rfl
  · split
    · rfl
    · dsimp only
      split <;> exact walkRead_gangs ..

/-! ### Branch-target registers -/

/-- Streaming lines of code adds operations in flight and touches no gang (R190). -/
theorem streamLines_gangs (c : Ctx) (s : State) (b : Nat) (target : Addr) : (c.streamLines s b target).gangs = s.gangs := by
  unfold Ctx.streamLines
  split
  · rfl
  · next p _ =>
    refine List.foldlRecOn (motive := fun u : State => u.gangs = s.gangs) _ _ rfl (fun u hu i _ => ?_)
    have kept := translate_gangs u c.core p c.x.tenant (64 * (target.toNat / 64 + i)) .fetch c.sup (c.reader u)
    dsimp only
    split <;> simp_all


/-- A slot is looked up in the gangs alone. -/
theorem slot?_congr {s u : State} (same : u.gangs = s.gangs) (g t k : Nat) : u.slot? g t k = s.slot? g t k := by
  simp only [State.slot?, State.tk?, State.gang?, same]

/-- A change of a slot changes the gangs alone. -/
theorem modSlot_gangs_congr {s u : State} (same : u.gangs = s.gangs) (g t k : Nat) (f : Slot → Slot) :
    (u.modSlot g t k f).gangs = (s.modSlot g t k f).gangs := by
  simp only [State.modSlot, State.modTk, State.modGang_gangs, same]

/-- What preparing a register makes of its slot (R190). -/
def prepared (n : BitVec 3) (target : Addr) (x : Slot) : Slot :=
  { x with bregs := x.bregs.set n.toNat { target := target, state := .prep, lines := [] } }

/-- Of the gangs, preparing a register changes the register alone (R190). -/
theorem prepare_gangs (c : Ctx) (s : State) (n : BitVec 3) (target : Addr) :
    (c.prepare s n target).gangs = (s.modSlot c.g c.t c.k (prepared n target)).gangs :=
  streamLines_gangs ..

theorem prepare_slot? {c : Ctx} {s : State} {x : Slot} (n : BitVec 3) (target : Addr) (here : s.slot? c.g c.t c.k = some x) :
    (c.prepare s n target).slot? c.g c.t c.k = some (prepared n target x) := by
  rw [slot?_congr (prepare_gangs ..), slot?_modSlot, here]
  rfl

/-- Preparing a register leaves all that is not the slot as it was. -/
theorem prepare_elsewhere (c : Ctx) (s : State) (n : BitVec 3) (target : Addr) (f : Slot → Slot) (blind : ∀ x y, f x = f y) :
    ((c.prepare s n target).modSlot c.g c.t c.k f).gangs = (s.modSlot c.g c.t c.k f).gangs := by
  rw [modSlot_gangs_congr (prepare_gangs ..), modSlot_modSlot]
  congr 2
  funext x
  exact blind ..

/-! ### PBT, PBTR, BTINV and BTMOV -/

/-- The target of PBT: the PC plus a signed number of words (R190). -/
theorem pbt_target (pc : Addr) (off : BitVec 30) : pc + 8 * off.signExtend 48 = BitVec.ofInt 48 (pc.toNat + 8 * off.toInt) := by
  rw [BitVec.signExtend, BitVec.ofInt_add, BitVec.ofInt_mul]
  simp

section
variable {s : State} {t : Tail} {c : Ctx}

theorem exec_pbt (h : Issues s t c) (n : BitVec 3) (off : BitVec 30) :
    exec (.pbt t n off) s = retired t c (if c.act = 0 then spent s
      else c.prepare (spent s) n (BitVec.ofInt 48 (c.sl.pc.toNat + 8 * off.toInt))) false := by
  change execPbt t n off s = _
  rw [execPbt, issue_of h]
  rw [← pbt_target]
  by_cases ha : c.act = 0#32 <;> simp [ha, Ctx.finish, retired]

theorem high_bits_zero (v : BitVec 64) : v.extractLsb' 48 16 = 0 ↔ ¬ 2 ^ 48 ≤ v.toNat := by
  rw [← BitVec.toNat_inj]
  simp only [BitVec.extractLsb'_toNat, Nat.shiftRight_eq_div_pow, BitVec.ofNat_eq_ofNat, BitVec.toNat_ofNat]
  omega

theorem low_bits_zero (v : BitVec 64) : v.extractLsb' 0 3 = 0 ↔ v.toNat % 8 = 0 := by
  rw [← BitVec.toNat_inj]
  simp

theorem low_bits_target (v : BitVec 64) : v.extractLsb' 0 48 = BitVec.ofNat 48 v.toNat := by
  rw [← BitVec.toNat_inj]
  simp

theorem exec_pbtr (h : Issues s t c) (n : BitVec 3) (gk : BitVec 6) :
    let v := c.tk.g.getD gk.toNat 0
    exec (.pbtr t n gk) s = if c.act = 0 then retired t c (spent s) false
      else if 2 ^ 48 ≤ v.toNat then trapped c s .xlate c.act v.toNat 0
      else if v.toNat % 8 ≠ 0 then trapped c s .align c.act v.toNat 0
      else retired t c (c.prepare (spent s) n (BitVec.ofNat 48 v.toNat)) false := by
  intro v
  change execPbtr t n gk s = _
  rw [execPbtr, issue_of h]
  change c.finish t (spent s) (if c.act == 0 then _ else if v.extractLsb' 48 16 != 0 then c.trap .xlate v.toNat
    else if v.extractLsb' 0 3 != 0 then c.trap .align v.toNat else .next (c.prepare (spent s) n (v.extractLsb' 0 48)) false) = _
  simp only [beq_iff_eq, bne_iff_ne, ne_eq, high_bits_zero, low_bits_zero, low_bits_target, not_not]
  split
  · rfl
  · split
    · rfl
    · split <;> rfl

theorem exec_btinv (h : Issues s t c) (mask : BitVec 8) :
    exec (.btinv t mask) s = retired t c (if c.act = 0 then spent s else
      ((spent s).dropLines c.g c.t c.k (fun k => mask.getLsbD k)).modSlot c.g c.t c.k (fun x =>
        { x with bregs := x.bregs.mapIdx (fun k b => if mask.getLsbD k then { b with state := .unprep, lines := [] } else b) }))
      false := by
  change execBtinv t mask s = _
  rw [execBtinv, issue_of h]
  by_cases ha : c.act = 0#32 <;> simp [ha, Ctx.finish, retired]

theorem exec_btmov (h : Issues s t c) (d r : BitVec 3) :
    exec (.btmov t d r) s = if d = r then retired t c (spent s) false else
      retired t c (if c.act = 0 then spent s else
        ((spent s).dropLines c.g c.t c.k (fun k => k == d.toNat)).modSlot c.g c.t c.k (fun x =>
          let b := c.sl.bregs.getD r.toNat {}
          { x with bregs := x.bregs.set d.toNat { target := b.target, state := (if b.state = .prep then .stale else b.state) } }))
        false := by
  change execBtmov t d r s = _
  rw [execBtmov, issue_of h]
  by_cases hd : d = r
  · simp [hd, Ctx.finish, retired]
  · by_cases ha : c.act = 0#32 <;> simp [ha, hd, Ctx.finish, retired]

end

/-- Settles O18. Each word comes to what its body answers where it issues. Preparing a register changes the gangs in that
register alone, because neither the translation of its lines nor their fetch touches a gang. -/
theorem branchTargetRegisters : Obligations.BranchTargetRegisters :=
  ⟨fun _ n d r off gk mask _ _ h => ⟨exec_pbt h n off, exec_pbtr h n gk, exec_btinv h mask, exec_btmov h d r⟩,
    fun c s n target _ here => ⟨prepare_slot? n target here, prepare_elsewhere c s n target _ (fun _ _ => rfl)⟩⟩


/-! ### Sources that pop nothing -/

/-- Where no error can be met in the fast file, reading registers changes nothing (R435). -/
theorem fastRead_sound {c : Ctx} {s : State} (sound : fastFileSound s c.core) (rs : List Nat) : c.fastRead s rs = (s, false, c) := by
  have none_hit : s.dev.injs.all (fun i => i.array != 3 || i.home != c.core) = true := by
    simp only [List.all_eq_true, Bool.or_eq_true, bne_iff_ne]
    intro i hi
    have := sound i hi
    tauto
  rw [Ctx.fastRead, if_pos none_hit]

theorem srcPop_eq_none {x : Src} (quiet : pops x = false) : srcPop x = none := by
  cases x <;> simp_all [pops, srcPop]

/-- Sources that pop nothing leave the state and no status (R175). -/
theorem pops_none (c : Ctx) (s : State) (srcs : List Src) (quiet : ∀ x ∈ srcs, pops x = false) :
    c.pops s srcs = .ok (s, [], none) := by
  unfold Ctx.pops
  induction srcs with
  | nil => rfl
  | cons x xs ih =>
    rw [List.foldl_cons]
    simp only [srcPop_eq_none (quiet x (by simp))]
    exact ih fun y hy => quiet y (by simp [hy])

/-- Reading sources that pop nothing. -/
theorem read_quiet {c : Ctx} {s : State} {ws : List Want} (sound : fastFileSound s c.core) (quiet : ∀ w ∈ ws, pops w.1 = false) :
    c.read s ws = .ok {
      s := c.applyMarks s (ws.flatMap (fun w => marked w.2.2 w.1))
      v := ws.map (fun w => c.value s.now [] w.2.1 (w.2.2 != 1) w.1)
      wide := ws.map (fun w => c.value128 w.1)
      p6 := none } := by
  have none_pops := pops_none c s (ws.map (·.1)) (by simpa using fun x ck w h => quiet (x, ck, w) h)
  simp only [Ctx.read, fastRead_sound sound, none_pops]
  rfl

/-! ### What a lane reads (R52, R54, R172 to R174) -/

theorem getD_map_zero {α : Type} {w : Nat} (f : α → BitVec w) (d : α) (zero : f d = 0) (v : List α) (l : Nat) :
    (v.map f).getD l 0 = f (v.getD l d) := by
  rw [← zero, List.getD_map]

theorem getD_splat {w : Nat} (x : BitVec w) {l : Nat} (hl : l < 32) : (splat x).getD l 0 = x := by
  rw [List.getD_eq_getElem _ _ (by simpa [splat] using hl)]
  exact List.getElem_replicate ..

theorem getD_laneNums {w : Nat} (f : Nat → BitVec w) {l : Nat} (hl : l < 32) : (laneNums.map f).getD l 0 = f l := by
  simp [laneNums, hl]

/-- A list of lanes that is not there reads as 0 in every lane. -/
theorem getD_getD_splat {w : Nat} (vs : List (Lanes w)) (r l : Nat) : (vs.getD r (splat 0)).getD l 0 = (vs.getD r []).getD l 0 := by
  rcases lt_or_ge r vs.length with h | h
  · rw [List.getD_eq_getElem _ _ h, List.getD_eq_getElem _ _ h]
  · rw [List.getD_eq_default _ _ h, List.getD_eq_default _ _ h]
    rcases lt_or_ge l 32 with hl | hl
    · rw [getD_splat 0 hl]; rfl
    · exact List.getD_eq_default _ _ (by simpa [splat] using hl)

theorem low32_eq (v : BitVec 64) : low32 v = BitVec.ofNat 64 (v.toNat % 2 ^ 32) := by
  rw [← BitVec.toNat_inj]
  simp [low32]

theorem low32_zero : low32 0 = 0 := by decide

theorem toNat_nregs (t : Tussock) (r l : Nat) : ((t.nreg r).at_ l).toNat = ((t.n.getD r []).getD l 0).toNat := by
  rw [Tussock.nreg, Lanes.at_, getD_getD_splat]

theorem value_queue (c : Ctx) (now : Nat) (ck : CK) (w64 : Bool) (age : BitVec 4) (l : Nat) :
    (c.value now [] ck w64 (.q age)).getD l 0 = sourceValue c now ck w64 (.q age) l := by
  cases w64
  · change ((c.sl.aged age.toNat).map low32).getD l 0 = BitVec.ofNat 64 (_ % 2 ^ 32)
    rw [getD_map_zero low32 0 low32_zero, Slot.aged, getD_getD_splat, low32_eq]
  · change (c.sl.aged age.toNat).getD l 0 = BitVec.ofNat 64 (BitVec.toNat _)
    rw [Slot.aged, getD_getD_splat, BitVec.ofNat_toNat, BitVec.setWidth_eq]

theorem sourceValue_nreg (c : Ctx) (now : Nat) (ck : CK) (w64 : Bool) (r : BitVec 5) (last : Bool) (l : Nat) :
    sourceValue c now ck w64 (.n r last) l =
      (let word := fun (q : Nat) => ((c.tk.n.getD q []).getD l 0).toNat
       let v := word r.toNat + if w64 then 2 ^ 32 * word (r.toNat + 1) else 0
       BitVec.ofNat 64 (if w64 then v else v % 2 ^ 32)) := rfl

theorem value_nreg (c : Ctx) (now : Nat) (ck : CK) (w64 : Bool) (r : BitVec 5) (last : Bool) {l : Nat} (hl : l < 32) :
    (c.value now [] ck w64 (.n r last)).getD l 0 = sourceValue c now ck w64 (.n r last) l := by
  have lo := ((c.tk.n.getD r.toNat []).getD l 0).isLt
  have hi := ((c.tk.n.getD (r.toNat + 1) []).getD l 0).isLt
  rw [sourceValue_nreg, Ctx.value]
  cases w64
  · simp only [Bool.false_eq_true, if_false]
    rw [getD_laneNums _ hl, ← BitVec.toNat_inj, BitVec.toNat_setWidth, toNat_nregs, BitVec.toNat_ofNat]
    omega
  · simp only [if_true]
    rw [getD_laneNums _ hl, ← BitVec.toNat_inj, BitVec.toNat_append, toNat_nregs, toNat_nregs, BitVec.toNat_ofNat,
      ← Nat.shiftLeft_add_eq_or_of_lt (BitVec.isLt _), Nat.shiftLeft_eq]
    omega

theorem value_greg (c : Ctx) (now : Nat) (ck : CK) (w64 : Bool) (r : BitVec 6) (hi : Bool) {l : Nat} (hl : l < 32) :
    (c.value now [] ck w64 (.g r hi)).getD l 0 = sourceValue c now ck w64 (.g r hi) l := by
  have whole := (c.tk.greg r.toNat).isLt
  refine (getD_splat _ hl).trans ?_
  cases w64
  · cases hi
    · exact low32_eq _
    · change c.tk.greg r.toNat >>> 32 = BitVec.ofNat 64 ((c.tk.greg r.toNat).toNat / 2 ^ 32 % 2 ^ 32)
      rw [← BitVec.toNat_inj, BitVec.toNat_ushiftRight, Nat.shiftRight_eq_div_pow, BitVec.toNat_ofNat]
      omega
  · have whole : c.tk.greg r.toNat = BitVec.ofNat 64 (c.tk.greg r.toNat).toNat := by simp
    cases hi <;> exact whole

theorem value_const (c : Ctx) (now : Nat) (ck : CK) (w64 : Bool) (i : BitVec 5) {l : Nat} (hl : l < 32) :
    (c.value now [] ck w64 (.const i)).getD l 0 = sourceValue c now ck w64 (.const i) l := by
  refine (getD_splat _ hl).trans ?_
  cases w64
  · exact low32_eq _
  · have whole : constVal ck i = BitVec.ofNat 64 (constVal ck i).toNat := by simp
    exact whole

theorem value_special (c : Ctx) (now : Nat) (ck : CK) (w64 : Bool) (x : Special) {l : Nat} (hl : l < 32) :
    (c.value now [] ck w64 (.special x)).getD l 0 = sourceValue c now ck w64 (.special x) l := by
  simp only [Ctx.value]
  cases x with
  | lane => rw [Ctx.special, getD_laneNums _ hl]; cases w64 <;> rfl
  | gang =>
    have own : ((handleOf c.g).extractLsb' 0 32).setWidth 64 = BitVec.ofNat 64 (c.g % 2 ^ 24) := by
      rw [← BitVec.toNat_inj]
      simp [handleOf]
      omega
    rw [Ctx.special, getD_splat _ hl, own]; cases w64 <;> rfl
  | mask =>
    have own : c.sl.mask.setWidth 64 = BitVec.ofNat 64 c.sl.mask.toNat := by simp
    rw [Ctx.special, getD_splat _ hl, own]; cases w64 <;> rfl
  | _ => rw [Ctx.special, getD_splat _ hl]; cases w64 <;> rfl

/-- What a lane reads of a source that pops nothing. -/
theorem value_eq_sourceValue (c : Ctx) (now : Nat) (ck : CK) (w64 : Bool) {x : Src} (quiet : pops x = false) {l : Nat} (hl : l < 32) :
    (c.value now [] ck w64 x).getD l 0 = sourceValue c now ck w64 x l := by
  cases x with
  | q age => exact value_queue ..
  | n r last => exact value_nreg c now ck w64 r last hl
  | g r hi => exact value_greg c now ck w64 r hi hl
  | const i => exact value_const c now ck w64 i hl
  | special x => exact value_special c now ck w64 x hl
  | fifo k nb => cases quiet
  | wq k nb => cases quiet

/-! ### Last-read marks (R58) -/

/-- What freeing registers makes of a tussock: their homes are none and their values open, and nothing else changes. -/
structure Freed (rs : List Nat) (y y' : Tussock) : Prop where
  homeless : ∀ r ∈ rs, r < y.home.length → y'.home[r]? = some none
  others : ∀ r, r ∉ rs → y'.home[r]? = y.home[r]? ∧ y'.n[r]? = y.n[r]?
  g : y'.g = y.g
  m : y'.m = y.m
  p : y'.p = y.p
  slots : y'.slots = y.slots
  flags : y'.flags = y.flags

/-- One register is freed with an open value, then the others. -/
theorem Freed.cons {r : Nat} {rs : List Nat} {v : Lanes 32} {y y' : Tussock}
    (rest : Freed rs { y with n := y.n.set r v, home := y.home.set r none } y') : Freed (r :: rs) y y' where
  homeless := by
    intro q hq inside
    by_cases later : q ∈ rs
    · exact rest.homeless q later (by simpa using inside)
    · obtain rfl := (List.mem_cons.1 hq).resolve_right later
      rw [(rest.others q later).1]
      simp [inside]
  others := by
    intro q hq
    obtain ⟨hne, later⟩ := not_or.1 (mt List.mem_cons.2 hq)
    obtain ⟨home, n⟩ := rest.others q later
    exact ⟨home.trans (List.getElem?_set_ne (Ne.symm hne)), n.trans (List.getElem?_set_ne (Ne.symm hne))⟩
  g := rest.g
  m := rest.m
  p := rest.p
  slots := rest.slots
  flags := rest.flags

theorem freeN_tk? (g t : Nat) (rs : List Nat) (s : State) (y : Tussock) (here : s.tk? g t = some y) :
    ∃ y', (s.freeN g t rs).tk? g t = some y' ∧ Freed rs y y' := by
  induction rs generalizing s y with
  | nil => exact ⟨y, here, by simp, fun _ _ => ⟨rfl, rfl⟩, rfl, rfl, rfl, rfl, rfl⟩
  | cons r rs ih =>
    have first : (s.freeN g t [r]).tk? g t = some { y with n := y.n.set r s.freeLanes.1, home := y.home.set r none } := by
      change (s.freeLanes.2.modTk g t _).tk? g t = _
      rw [tk?_modTk, show s.freeLanes.2.tk? g t = some y from here]
      rfl
    obtain ⟨y', last, freed⟩ := ih _ _ first
    exact ⟨y', last, freed.cons⟩

/-- Freeing registers leaves memory, the operations in flight and the partitions. -/
theorem freeN_frame (s : State) (g t : Nat) (rs : List Nat) :
    (s.freeN g t rs).mem = s.mem ∧ (s.freeN g t rs).ops = s.ops ∧ (s.freeN g t rs).parts = s.parts :=
  List.foldlRecOn (motive := fun u : State => u.mem = s.mem ∧ u.ops = s.ops ∧ u.parts = s.parts) _ _ ⟨rfl, rfl, rfl⟩
    (fun _ hu _ _ => hu)

/-- Marks are ignored where there are none, and while both slots are valid. -/
theorem applyMarks_ignored {c : Ctx} {rs : List Nat} (h : rs = [] ∨ c.tk.slots.all (fun z => z.valid) = true) (s : State) :
    c.applyMarks s rs = s := by
  unfold Ctx.applyMarks
  refine if_pos ?_
  obtain rfl | both := h
  · rfl
  · simp [both]

theorem applyMarks_frees {c : Ctx} {s : State} (rs : List Nat) (single : ¬ c.tk.slots.all (fun z => z.valid) = true)
    {y : Tussock} (here : s.tk? c.g c.t = some y) :
    ∃ y', (c.applyMarks s rs).tk? c.g c.t = some y' ∧ Freed rs y y' ∧
      (c.applyMarks s rs).mem = s.mem ∧ (c.applyMarks s rs).ops = s.ops ∧ (c.applyMarks s rs).parts = s.parts := by
  by_cases none_marked : rs = []
  · subst none_marked
    rw [applyMarks_ignored (.inl rfl)]
    exact ⟨y, here, ⟨by simp, fun _ _ => ⟨rfl, rfl⟩, rfl, rfl, rfl, rfl, rfl⟩, rfl, rfl, rfl⟩
  · have frees : c.applyMarks s rs = s.freeN c.g c.t rs := if_neg (by simp [none_marked, single])
    obtain ⟨y', last, freed⟩ := freeN_tk? c.g c.t rs s y here
    rw [frees]
    exact ⟨y', last, freed, freeN_frame ..⟩

/-- Sources that pop nothing: what each lane reads of them, and what their marks free. -/
theorem quiet_sources_are_read (c : Ctx) (s : State) (ws : List Want) (sound : fastFileSound s c.core)
    (quiet : ∀ w ∈ ws, pops w.1 = false) :
    ∃ rd, c.read s ws = .ok rd ∧ rd.p6 = none ∧ rd.v.length = ws.length ∧
      (∀ (k : Nat) (w : Want) (l : Nat), ws[k]? = some w → l < 32 →
        (rd.v.getD k []).getD l 0 = sourceValue c s.now w.2.1 (w.2.2 != 1) w.1 l) ∧
      rd.s = c.applyMarks s (ws.flatMap (fun w => marked w.2.2 w.1)) := by
  refine ⟨_, read_quiet sound quiet, rfl, by simp, fun k w l here hl => ?_, rfl⟩
  rw [← value_eq_sourceValue c s.now w.2.1 _ (quiet w (List.mem_of_getElem? here)) hl]
  simp [List.getD_eq_getElem?_getD, here]

/-! ### A source that pops (R125, R126, R175) -/

/-- One entry that the word's only source pops: from the w queue or the FIFO that it names. -/
def popOne (c : Ctx) (s : State) (w : Bool) (k : Nat) (blocking : Bool) : Except Res (State × Popped) :=
  if w then c.popW s k blocking else c.popF s k blocking

section
variable {c : Ctx} {s s' : State} {src : Src} {w nb : Bool} {k : Nat} {vals : Lanes 32} {ok : Bool}

theorem pops_idle (idle : c.act = 0) (names : srcPop src = some (w, k, !nb)) :
    c.pops s [src] = .ok (s, [{ w := w, q := k, vals := splat 0, ok := true }], none) := by
  simp [Ctx.pops, names, idle]

theorem pops_one (act : c.act ≠ 0) (names : srcPop src = some (w, k, !nb))
    (popped : popOne c s w k (!nb) = .ok (s', { w := w, q := k, vals := vals, ok := ok })) :
    c.pops s [src] = .ok (s', [{ w := w, q := k, vals := vals, ok := ok }], if nb then some ok else none) := by
  unfold popOne at popped
  cases nb <;> simp_all [Ctx.pops]

/-- A source that names the same queue again reads the same entry and pops nothing more. -/
theorem pops_twice (act : c.act ≠ 0) (names : srcPop src = some (w, k, !nb))
    (popped : popOne c s w k (!nb) = .ok (s', { w := w, q := k, vals := vals, ok := ok })) :
    c.pops s [src, src] = .ok (s', [{ w := w, q := k, vals := vals, ok := ok }], if nb then some ok else none) := by
  unfold popOne at popped
  cases nb <;> simp_all [Ctx.pops]

theorem pops_stopped {r : Res} (act : c.act ≠ 0) (names : srcPop src = some (w, k, !nb))
    (stopped : popOne c s w k (!nb) = .error r) : c.pops s [src] = .error r := by
  unfold popOne at stopped
  simp_all [Ctx.pops]

theorem value_popped (now : Nat) (ck : CK) (w64 : Bool) (names : srcPop src = some (w, k, !nb)) :
    c.value now [{ w := w, q := k, vals := vals, ok := ok }] ck w64 src = vals.map (·.setWidth 64) := by
  cases src <;> simp_all [srcPop, Ctx.value]

theorem popping_reads_no_register (names : srcPop src = some (w, k, !nb)) (words : Nat) :
    srcRegs words src = [] ∧ srcMarked words src = [] := by
  cases src <;> simp_all [srcPop, srcRegs, srcMarked]

/-- A word whose sources pop reads its values from the popped entries. -/
theorem read_of_pops {ps : List Popped} {p6 : Option Bool} (sound : fastFileSound s c.core) (srcs : List Src) (ck : CK)
    (names : ∀ x ∈ srcs, x = src) (pop : srcPop src = some (w, k, !nb)) (popped : c.pops s srcs = .ok (s', ps, p6)) :
    c.read s (srcs.map (fun x => (x, ck, 1))) = .ok {
      s := s'
      v := srcs.map (fun x => c.value s'.now ps ck false x)
      wide := srcs.map (fun x => c.value128 x)
      p6 := p6 } := by
  have no_regs : srcs.flatMap (fun x => srcMarked 1 x) = [] := by
    simp only [List.flatMap_eq_nil_iff]
    intro x hx
    exact names x hx ▸ (popping_reads_no_register pop 1).2
  simp only [Ctx.read, fastRead_sound sound, List.map_map, List.flatMap_map, Function.comp_def, List.map_id', popped, no_regs,
    applyMarks_ignored (.inl rfl)]
  rfl

/-- What reading a popped source gives: the state, the status and each lane's value. -/
def Gives (rd : Read) (s' : State) (p6 : Option Bool) (v : Nat → BitVec 32) : Prop :=
  rd.s = s' ∧ rd.p6 = p6 ∧ ∀ l, l < 32 → (rd.v.getD 0 []).getD l 0 = (v l).setWidth 64

variable (sound : fastFileSound s c.core) (ck : CK)
include sound

theorem read_idle (idle : c.act = 0) (names : srcPop src = some (w, k, !nb)) :
    ∃ rd, c.read s [(src, ck, 1)] = .ok rd ∧ rd.s = s :=
  ⟨_, read_of_pops sound [src] ck (by simp) names (pops_idle idle names), rfl⟩

theorem read_stopped {r : Res} (act : c.act ≠ 0) (names : srcPop src = some (w, k, !nb))
    (stopped : popOne c s w k (!nb) = .error r) : c.read s [(src, ck, 1)] = .error r := by
  have none_popped := pops_stopped act names stopped
  simp only [Ctx.read, fastRead_sound sound, List.map_cons, List.map_nil, none_popped]
  rfl

theorem read_popped {v : Nat → BitVec 32} (act : c.act ≠ 0) (names : srcPop src = some (w, k, !nb))
    (popped : popOne c s w k (!nb) = .ok (s', { w := w, q := k, vals := vals, ok := ok }))
    (lanes : ∀ l, l < 32 → vals.getD l 0 = v l) :
    ∃ rd, c.read s [(src, ck, 1)] = .ok rd ∧ Gives rd s' (if nb then some ok else none) v := by
  refine ⟨_, read_of_pops sound [src] ck (by simp) names (pops_one act names popped), rfl, rfl, fun l hl => ?_⟩
  rw [← lanes l hl, List.map_cons, value_popped _ _ _ names]
  exact getD_map_zero _ 0 rfl _ _

theorem read_popped_twice {v : Nat → BitVec 32} (act : c.act ≠ 0) (names : srcPop src = some (w, k, !nb))
    (popped : popOne c s w k (!nb) = .ok (s', { w := w, q := k, vals := vals, ok := ok }))
    (lanes : ∀ l, l < 32 → vals.getD l 0 = v l) :
    ∃ rd, c.read s [(src, ck, 1), (src, ck, 1)] = .ok rd ∧ Gives rd s' (if nb then some ok else none) v ∧
      rd.v.getD 1 [] = rd.v.getD 0 [] := by
  refine ⟨_, read_of_pops sound [src, src] ck (by simp) names (pops_twice act names popped), ⟨rfl, rfl, fun l hl => ?_⟩, rfl⟩
  rw [← lanes l hl, List.map_cons, value_popped _ _ _ names]
  exact getD_map_zero _ 0 rfl _ _

end

/-! ### Gang queues (R125) -/

theorem read_add (m : Memory) (a i n : Nat) : m.read a (i + n) = m.read a i + 256 ^ i * m.read (a + i) n := by
  induction i generalizing a with
  | zero => simp [Memory.read]
  | succ i ih =>
    rw [Nat.succ_add, Memory.read, Memory.read, ih, Nat.add_assoc a 1 i, Nat.add_comm 1 i, pow_succ]
    ring

theorem read_lt (m : Memory) (a n : Nat) : m.read a n < 256 ^ n := by
  induction n generalizing a with
  | zero => simp [Memory.read]
  | succ n ih =>
    have := ih (a + 1)
    have := (m.get a).isLt
    rw [Memory.read, pow_succ]
    omega

/-- Lane l of an entry of 128 bytes: its bytes from 4 l on (R125). -/
theorem entry_lane (m : Memory) (a : Nat) {l : Nat} (hl : l < 32) :
    BitVec.ofNat 32 (m.read a 128 / 2 ^ (32 * l)) = BitVec.ofNat 32 (m.read (a + 4 * l) 4) := by
  have cut : m.read a 128 = m.read a (4 * l) + 256 ^ (4 * l) * (m.read (a + 4 * l) 4 + 256 ^ 4 * m.read (a + 4 * l + 4) (124 - 4 * l)) := by
    have whole : 128 = 4 * l + (4 + (124 - 4 * l)) := by omega
    rw [← read_add, ← read_add, ← whole]
  have bits : 2 ^ (32 * l) = 256 ^ (4 * l) := by
    rw [show 32 * l = 8 * (4 * l) by omega, pow_mul]
    norm_num
  rw [cut, bits, Nat.add_mul_div_left _ _ (by positivity), Nat.div_eq_of_lt (read_lt ..), Nat.zero_add,
    ← BitVec.toNat_inj, BitVec.toNat_ofNat, BitVec.toNat_ofNat]
  omega

/-- Where no error can be met in a core's scratchpad, reading it changes nothing (R435). -/
theorem scratch_read_sound {s : State} {core : Nat} (sound : ∀ i ∈ s.dev.injs, ¬ (i.array = 1 ∧ i.home = core))
    (a n p : Nat) (r : Reader) : s.eccSpan 1 core a n p r = (s, none, 0) := by
  have none_hit : s.hitWords 1 core (arrayAddr 1 core a) n = [] := by
    have none_there : s.dev.injs.filter (fun i => i.array == 1 && i.home == core && arrayAddr 1 core a / 8 ≤ i.addr.toNat / 8 &&
        i.addr.toNat / 8 ≤ (arrayAddr 1 core a + n - 1) / 8) = [] := by
      simp only [List.filter_eq_nil_iff, Bool.and_eq_true, beq_iff_eq, decide_eq_true_eq]
      exact fun i hi hit => sound i hi hit.1.1
    rw [State.hitWords, none_there]
    rfl
  rw [State.eccSpan, none_hit]
  rfl

/-- A gang queue after its oldest entry has been popped. -/
def oneFewer (q : WQueue) : WQueue := { q with head := q.head + 1, visible := q.visible.filter (fun e => e != q.head) }

section
variable {c : Ctx} {s : State} {x : Gang} {k : Nat} {bl : Bool} {q : WQueue} (here : s.gang? c.g = some x)
include here

theorem popW_unconfigured (none_there : (x.wqs[k]?).join = none) : c.popW s k bl = .error (c.trap .qerr) := by
  simp only [Ctx.popW, here, none_there]

variable (there : (x.wqs[k]?).join = some q)
include there

/-- The oldest visible entry is popped. -/
theorem popW_entry (sound : ∀ i ∈ s.dev.injs, ¬ (i.array = 1 ∧ i.home = c.core)) (visible : q.head ∈ q.visible) :
    c.popW s k bl = .ok (s.modGang c.g (fun z => { z with wqs := z.wqs.set k (some (oneFewer q)) }),
      { w := true, q := k, ok := true
        vals := laneNums.map (fun l => BitVec.ofNat 32 (Memory.read x.sp (q.base + 128 * (q.head % q.entries)) 128 / 2 ^ (32 * l))) }) := by
  have seen : q.visible.contains q.head = true := by simpa using visible
  simp only [Ctx.popW, here, there, seen, scratch_read_sound sound, if_true, Nat.xor_zero]
  rfl

theorem popW_empty (hidden : q.head ∉ q.visible) :
    c.popW s k bl = if bl then .error (.stall s (.popEmpty k)) else .ok (s, { w := true, q := k, vals := splat 0, ok := false }) := by
  have unseen : q.visible.contains q.head = false := by simpa using hidden
  simp only [Ctx.popW, here, there, unseen, Bool.false_eq_true, if_false]

end

/-! ### Stream FIFOs (R126, R283) -/

/-- A stream after its oldest entry has been popped; `rest` are the others. -/
def advanced (st : Stream) (rest : List (Lanes 32)) : Stream :=
  { st with fifo := rest, cursor := max st.cursor (min (st.cursor + 32) st.count) }

section
variable {c : Ctx} {s : State} {y : Tussock} {p : Partition} {k : Nat} {bl : Bool} {st : Stream}
  (here : s.tk? c.g c.t = some y) (part : s.part? c.x.part = some p) (there : y.s[k]? = some st)
include here part there

theorem popF_unbound (unbound : st.bound = false) : c.popF s k bl = .error (c.trap .qerr) := by
  simp [Ctx.popF, here, part, there, unbound]

theorem popF_entry {v : Lanes 32} {rest : List (Lanes 32)} (bound : st.bound = true) (oldest : st.fifo = v :: rest) :
    c.popF s k bl = .ok (s.modTk c.g c.t (fun z => { z with s := z.s.set k (advanced st rest) }),
      { w := false, q := k, vals := v, ok := true }) := by
  simp [Ctx.popF, here, part, there, bound, oldest, advanced]

theorem popF_exhausted (bound : st.bound = true) (empty : st.fifo = []) (ended : st.count ≤ st.next) :
    c.popF s k bl = if bl then .error (c.trap .qerr) else .ok (s, { w := false, q := k, vals := splat 0, ok := false }) := by
  simp [Ctx.popF, here, part, there, bound, empty, ended]

theorem popF_waits (bound : st.bound = true) (empty : st.fifo = []) (more : st.next < st.count) (well : st.faulted = false) :
    c.popF s k bl = if bl then .error (.stall s (.fifoEmpty k)) else .ok (s, { w := false, q := k, vals := splat 0, ok := false }) := by
  simp [Ctx.popF, here, part, there, bound, empty, more, well]

end



theorem lanes_zero (l : Nat) (hl : l < 32) : (splat (0 : BitVec 32)).getD l 0 = 0 := getD_splat 0 hl

theorem entry_lanes (m : Memory) (a : Nat) (l : Nat) (hl : l < 32) :
    (laneNums.map (fun i => BitVec.ofNat 32 (m.read a 128 / 2 ^ (32 * i)))).getD l 0 = BitVec.ofNat 32 (m.read (a + 4 * l) 4) :=
  (getD_laneNums _ hl).trans (entry_lane m a hl)

theorem wqueue_eq {c : Ctx} {s : State} {x : Gang} (gang : s.gang? c.g = some x) (k : BitVec 2) :
    wqueue c s k = (x.wqs[k.toNat]?).join := by
  rw [wqueue, gang]
  rfl

section
variable {c : Ctx} {s : State} {k : BitVec 2} {nb : Bool} (ck : CK) (sound : fastFileSound s c.core) (act : c.act ≠ 0)
include sound act

/-- Reading an empty queue or an exhausted stream: without blocking it fails and gives 0 in every lane (R61, R125, R283). -/
theorem read_nothing {src : Src} {w : Bool} {n : Nat} {r : Res} (names : srcPop src = some (w, n, !nb))
    (popped : popOne c s w n (!nb) = if !nb then .error r else .ok (s, { w := w, q := n, vals := splat 0, ok := false })) :
    (nb = false → c.read s [(src, ck, 1)] = .error r) ∧
    (nb = true → ∃ rd, c.read s [(src, ck, 1)] = .ok rd ∧ Gives rd s (some false) (fun _ => 0)) := by
  constructor
  · rintro rfl
    exact read_stopped sound ck act names popped
  · rintro rfl
    exact read_popped sound ck act names popped lanes_zero

variable {x : Gang} (gang : s.gang? c.g = some x)
include gang

theorem read_unconfigured (none_there : wqueue c s k = none) : c.read s [(.wq k nb, ck, 1)] = .error (c.trap .qerr) :=
  read_stopped sound ck act rfl (popW_unconfigured gang ((wqueue_eq gang k).symm.trans none_there))

theorem read_entry (clean : ∀ i ∈ s.dev.injs, ¬ (i.array = 1 ∧ i.home = c.core)) {q : WQueue} (there : wqueue c s k = some q)
    (visible : q.head ∈ q.visible) :
    let s' := s.modGang c.g (fun z => { z with wqs := z.wqs.set k.toNat (some (oneFewer q)) })
    let won := if nb then some true else none
    let v := fun (l : Nat) => BitVec.ofNat 32 (Memory.read x.sp (q.base + 128 * (q.head % q.entries) + 4 * l) 4)
    (∃ rd, c.read s [(.wq k nb, ck, 1)] = .ok rd ∧ Gives rd s' won v) ∧
    (∃ rd, c.read s [(.wq k nb, ck, 1), (.wq k nb, ck, 1)] = .ok rd ∧ Gives rd s' won v ∧ rd.v.getD 1 [] = rd.v.getD 0 []) :=
  have popped := popW_entry gang ((wqueue_eq gang k).symm.trans there) clean visible
  ⟨read_popped sound ck act rfl popped (entry_lanes _ _), read_popped_twice sound ck act rfl popped (entry_lanes _ _)⟩

end

/-- Settles O21. A source that pops nothing is read from the slot's context alone, and the marks free their registers one after
another; a source that pops is read from the one entry that `Ctx.pops` takes, and where the pop stops the word, so does the
read. -/
theorem sourcesAreRead : Obligations.SourcesAreRead := by
  refine ⟨fun c s ws sound quiet => ?_, fun c s x y p k nb ck sound clean gang tk part => ?_⟩
  · obtain ⟨rd, read, status, length, lanes, left⟩ := quiet_sources_are_read c s ws sound quiet
    refine ⟨rd, read, status, length, lanes, fun ignored => left.trans (applyMarks_ignored ignored s), fun single y here => ?_⟩
    obtain ⟨y', last, freed, mem, ops, parts⟩ := applyMarks_frees (ws.flatMap (fun w => marked w.2.2 w.1)) single here
    rw [left]
    exact ⟨y', last, freed.homeless, freed.others, freed.g, freed.m, freed.p, freed.slots, freed.flags, mem, ops, parts⟩
  · refine ⟨fun idle => ?_, fun act none_there => read_unconfigured ck sound act gang none_there,
      fun q act there visible => read_entry ck sound act gang clean there visible,
      fun q act there hidden => read_nothing ck sound act rfl (popW_empty gang ((wqueue_eq gang k).symm.trans there) hidden),
      fun st act there => ⟨fun unbound => read_stopped sound ck act rfl (popF_unbound tk part there unbound),
        fun v rest bound oldest => read_popped sound ck act rfl (popF_entry tk part there bound oldest) (fun _ _ => rfl),
        fun bound empty ended => read_nothing ck sound act rfl (popF_exhausted tk part there bound empty ended),
        fun bound empty more well => read_nothing ck sound act rfl (popF_waits tk part there bound empty more well)⟩⟩
    obtain ⟨rd, read, same⟩ := read_idle (src := .wq k nb) sound ck idle rfl
    obtain ⟨rd', read', same'⟩ := read_idle (src := .fifo k nb) sound ck idle rfl
    exact ⟨rd, rd', read, same, read', same'⟩

/-! ### The last push of a gang that has ended -/

/-- The push of lane 0 to entry 0 of gang queue 0. -/
def lastPush : Result := { mask := 1, wpush := some (0, 0) }

/-- The operation of gang 1 whose result that push is. -/
def lastPushOp : Op := { id := 0, gang := 1, tk := 0, slot := 0, core := some 0, at_ := 0, kind := .result lastPush }

/-- A queue of one entry, which the push has reserved. -/
def reservedQueue : WQueue := { base := 0, entries := 1, head := 0, tail := 1, visible := [] }

/-- A gang whose one tussock has ended. -/
def endedGang : Gang :=
  { id := 1, part := 0, tenant := 0, core := some 0, wqs := [some reservedQueue], tks := [{ ended := true }] }

/-- The machine in which the gang's resources wait for its last push (R34, R369). -/
def pushAfterEnd : State := { State.reset with gangs := [endedGang], ops := [lastPushOp] }

/-- The push lands, and with it the gang's resources are released: the gang is gone. -/
theorem lastPush_releases_gang :
    ∃ t, exec (.resultLand 0) pushAfterEnd = .next t ∧ t.gang? 1 = none := by
  refine ⟨_, rfl, ?_⟩
  decide +kernel

/-- Refutes O22: its last clause looks for the visible entry in the gang after the push has landed, but does not suppose that a
tussock of the gang goes on. The resources of an ended gang wait for its last store and go with it (R34, R369), so here no gang
is left. -/
theorem not_resultsLand : ¬ Obligations.ResultsLand := by
  intro h
  obtain ⟨-, -, pushes⟩ := h
  obtain ⟨t, x, run, here, -⟩ := pushes pushAfterEnd 0 lastPushOp lastPush endedGang 0 0 0 reservedQueue
    rfl rfl (by decide) rfl rfl rfl rfl rfl
  obtain ⟨u, run', gone⟩ := lastPush_releases_gang
  obtain rfl : u = t := Host.Outcome.next.inj (run'.symm.trans run)
  exact Option.some_ne_none x (here.symm.trans gone)

/-! ### A TBIND that completes for another tenant -/

/-- Page tables of tenant 0 that map the 2 MiB at virtual address 0 to the frame at 2 MiB; tenant 1 has none. -/
def tenantZeroTables : Memory :=
  ((Memory.write [] 0 8 0x10001).write 0x10000 8 0x20001).write 0x20000 8 0x200007

/-- A TBIND of register 0 to address 0, on its way for tenant 1. -/
def foreignTbind : Op :=
  { id := 0, gang := 1, tk := 0, slot := 0, core := none, who := some (0, 1), at_ := 0, kind := .tbind 0 { bound := true } }

/-- A tussock with one translation register. -/
def oneTReg : Tussock := { t := [{}] }

/-- A gang of tenant 0 with that tussock. -/
def bindingGang : Gang := { id := 1, part := 0, tenant := 0, core := some 0, tks := [oneTReg] }

/-- The machine in which that TBIND is due. -/
def bindsForOther : State :=
  { State.reset with mem := tenantZeroTables, parts := [granulePart], gangs := [bindingGang], ops := [foreignTbind] }

/-- Tenant 1 has no translation of the address, so the register is bound to no frame. -/
theorem foreignTbind_binds_no_frame : ∃ t, exec (.loadComplete 0) bindsForOther = .next t ∧
    ((t.tk? 1 0).bind (fun y => y.t[0]?)).map (fun r => r.frame) = some 0 := by
  refine ⟨_, rfl, ?_⟩
  decide +kernel

/-- The frame of address 0 for tenant 0. -/
theorem tenantZero_walk : walk tenantZeroTables granulePart 0 0 .host true =
    .pa 0x200000 0x200000 (2 ^ 21) 0x20000 false true false [0, 512, 1024] := by
  decide +kernel

/-- Refutes O26: its last clause walks the tables of the gang's own tenant, but LOAD_COMPLETE takes the tenant from the
operation where that carries one, and no hypothesis says that a TBIND carries none. Here it names a tenant without a
translation, so the register does not get the frame that the gang's tenant has. -/
theorem not_translationRegisters : ¬ Obligations.TranslationRegisters := by
  intro h
  obtain ⟨-, completes⟩ := h
  obtain ⟨t, y, r, run, -, here, reg, -, -, frame, -⟩ := completes bindsForOther 0 foreignTbind bindingGang oneTReg granulePart 0
    { bound := true } _ _ _ _ _ _ _ _ rfl rfl (by decide) rfl rfl rfl tenantZero_walk (by decide)
  obtain ⟨u, run', unbound⟩ := foreignTbind_binds_no_frame
  obtain rfl : u = t := Host.Outcome.next.inj (run'.symm.trans run)
  have here : u.tk? 1 0 = some y := here
  rw [here, Option.bind_some, reg, Option.map_some, frame] at unbound
  exact absurd unbound (by decide)

/-! ### A STAGE that completes while its tussock is parked -/

/-- A parked tussock whose register n0 has its home in m0. -/
def parkedTussock : Tussock := { parked := true, n := [splat 0], home := [some 0], m := [splat 0] }

/-- A STAGE of 1 to n0 in lane 0, on its way. -/
def stageOp : Op :=
  { id := 0, gang := 1, tk := 0, slot := 0, core := none, at_ := 0, mask := 1, kind := .stage [(0, 0, splat 1)] }

/-- A gang with that tussock. -/
def parkedGang : Gang := { id := 1, part := 0, tenant := 0, core := some 0, tks := [parkedTussock] }

/-- The machine in which that STAGE is due. -/
def stagesParked : State := { State.reset with gangs := [parkedGang], ops := [stageOp] }

/-- The value goes to the register's home (R59), and n0 stays as it was. -/
theorem stage_parked_leaves_register : ∃ u, exec (.stageComplete 0) stagesParked = .next u ∧
    (u.tk? 1 0).map (fun y => (y.n.getD 0 []).getD 0 0) = some 0 := by
  refine ⟨_, rfl, ?_⟩
  decide +kernel

/-- Refutes O47: its first clause has a STAGE write the n registers, but does not suppose, as the clause on long-latency values
does, that the tussock is not parked. R198 keeps a tussock with a STAGE in flight from being parked; where one is parked all the
same, a write to n0 goes to the register's home (R59). -/
theorem not_landingsOfLinesAndValues : ¬ Obligations.LandingsOfLinesAndValues := by
  intro h
  obtain ⟨moves, -⟩ := h
  obtain ⟨stage, -⟩ := moves stagesParked 0 stageOp parkedTussock rfl (by decide) rfl
  obtain ⟨u, y, run, -, -, here, -, -, -, -, staged⟩ := stage _ rfl
  have moved : (y.n.getD 0 []).getD 0 0 = 1 := staged 0 0 (splat 1) rfl (by decide) 0 (by decide)
  obtain ⟨v, run', same⟩ := stage_parked_leaves_register
  obtain rfl : v = u := Host.Outcome.next.inj (run'.symm.trans run)
  have here : v.tk? 1 0 = some y := here
  rw [here, Option.map_some, moved] at same
  exact absurd same (by decide)

end Sys2Proof.LaneState
end

-- Proofs of the statements on number formats (spec/04_number_formats.md)
section
/-! SUPPORT. Round as units at the exponent of the last place, exact sums and products of values, and the codes of the formats as
values: the words of arithmetic deliver Round of the exact result. -/

namespace Sys2Proof.Formats

open Sys2Proof Sys2Proof.Machine Sys2Proof.Says

/-! ### Rounding to an integer (R75) -/

/-- The factor of a sign. -/
def signOf (s : Bool) : ℚ := if s then -1 else 1

/-- How a fraction of a unit compares with half a unit: 0 below, 1 equal, 2 above. -/
def halfOf (θ : ℚ) : Nat := if θ < 1 / 2 then 0 else if θ = 1 / 2 then 1 else 2

theorem floor_nat_add {θ : ℚ} (n : Nat) (low : 0 ≤ θ) (high : θ < 1) : ⌊(n : ℚ) + θ⌋ = n := by
  rw [Int.floor_eq_iff]
  push_cast
  constructor <;> linarith

theorem ceil_nat_add {θ : ℚ} (n : Nat) (low : 0 < θ) (high : θ < 1) : ⌈(n : ℚ) + θ⌉ = n + 1 := by
  rw [Int.ceil_eq_iff]
  push_cast
  constructor <;> linarith

theorem toInteger_intCast (rm : BitVec 2) (k : ℤ) : toInteger rm k = k := by
  unfold toInteger
  split <;> simp

/-- Rounding to nearest by the part of a unit above a whole number. -/
theorem toInteger_nearest {z θ : ℚ} {k : ℤ} (floor : ⌊z⌋ = k) (rest : z - k = θ) :
    toInteger 0 z = if θ < 1 / 2 then k else if 1 / 2 < θ then k + 1 else if k % 2 = 0 then k else k + 1 := by
  subst rest
  subst floor
  rfl

theorem halfOf_half {θ : ℚ} (h : θ = 1 / 2) : halfOf θ = 1 := by simp [halfOf, h]

theorem halfOf_above {θ : ℚ} (h : 1 / 2 < θ) : halfOf θ = 2 := by
  simp only [halfOf, not_lt.2 h.le, h.ne', if_false]

theorem roundsUp_nearest (s odd : Bool) (half : Nat) (exact : Bool) :
    roundsUp 0 s odd half exact = (!exact && (half == 2 || (half == 1 && odd))) := by
  cases exact <;> rfl

/-- A number of n units and a fraction of one rounds to n or n + 1 units, as `roundsUp` says. -/
theorem toInteger_parts (rm : BitVec 2) (s : Bool) (n : Nat) {θ : ℚ} (low : 0 ≤ θ) (high : θ < 1) :
    toInteger rm (signOf s * (n + θ)) =
      (if s then -1 else 1) * (if roundsUp rm s (n % 2 == 1) (halfOf θ) (decide (θ = 0)) then n + 1 else n : Nat) := by
  have n0 : (0 : ℚ) ≤ n := Nat.cast_nonneg n
  by_cases zero : θ = 0
  · have whole : signOf s * ((n : ℚ) + θ) = (((if s then -1 else 1) * (n : ℤ) : ℤ) : ℚ) := by
      cases s <;> simp [signOf, zero]
    rw [whole, toInteger_intCast]
    simp [zero, roundsUp]
  have pos : 0 < θ := lt_of_le_of_ne low (Ne.symm zero)
  have modes : rm = 0 ∨ rm = 1 ∨ rm = 2 ∨ rm = 3 := by revert rm; decide
  cases s
  case false =>
    have fl := floor_nat_add n low high
    have ce := ceil_nat_add n pos high
    have nonneg : ¬ (n : ℚ) + θ < 0 := by linarith
    simp only [signOf, Bool.false_eq_true, if_false, one_mul]
    obtain rfl | rfl | rfl | rfl := modes
    · rw [toInteger_nearest fl (θ := θ) (by push_cast; ring), roundsUp_nearest, decide_eq_false zero]
      obtain lt | eq | gt := lt_trichotomy θ (1 / 2)
      · simp only [halfOf, lt, if_true]
        simp
      · rw [halfOf_half eq]
        simp only [eq, lt_irrefl, if_false]
        obtain even | odd : n % 2 = 0 ∨ n % 2 = 1 := by omega
        · rw [if_pos (by omega)]
          simp [even]
        · rw [if_neg (by omega)]
          simp [odd]
      · rw [halfOf_above gt]
        simp only [not_lt.2 gt.le, gt, if_false, if_true]
        simp
    · simp [toInteger, roundsUp, nonneg, fl]
    · simp [toInteger, roundsUp, zero, ce]
    · simp [toInteger, roundsUp, zero, fl]
  case true =>
    have fl : ⌊-((n : ℚ) + θ)⌋ = -((n : ℤ) + 1) := by rw [Int.floor_neg, ceil_nat_add n pos high]
    have ce : ⌈-((n : ℚ) + θ)⌉ = -(n : ℤ) := by rw [Int.ceil_neg, floor_nat_add n low high]
    have neg : -((n : ℚ) + θ) < 0 := by linarith
    simp only [signOf, if_true, neg_one_mul]
    obtain rfl | rfl | rfl | rfl := modes
    · rw [toInteger_nearest fl (θ := 1 - θ) (by push_cast; ring)]
      rw [roundsUp_nearest, decide_eq_false zero]
      obtain lt | eq | gt := lt_trichotomy θ (1 / 2)
      · have : (1 : ℚ) / 2 < 1 - θ := by linarith
        simp only [halfOf, lt, if_true, not_lt.2 this.le, this, if_false]
        simp
      · have : 1 - θ = (1 : ℚ) / 2 := by linarith
        rw [halfOf_half eq]
        simp only [this, lt_irrefl, if_false]
        obtain even | odd : n % 2 = 0 ∨ n % 2 = 1 := by omega
        · rw [if_neg (by omega)]
          simp [even]
        · rw [if_pos (by omega)]
          simp [odd, -neg_add_rev]
      · have : 1 - θ < (1 : ℚ) / 2 := by linarith
        rw [halfOf_above gt]
        simp only [this, if_true]
        simp [-neg_add_rev]
    · simp [toInteger, roundsUp, neg, ce, -neg_add_rev]
    · simp [toInteger, roundsUp, zero, ce, -neg_add_rev]
    · simp [toInteger, roundsUp, zero, fl, -neg_add_rev]

/-! ### Numbers as a significand and an exponent -/

/-- x has sign s and magnitude m × 2^e, or one strictly between m × 2^e and (m + 1) × 2^e where `st` is true. -/
def Denotes (s : Bool) (m : Nat) (e : ℤ) (st : Bool) (x : ℚ) : Prop :=
  ∃ δ : ℚ, 0 ≤ δ ∧ δ < 1 ∧ (δ = 0 ↔ st = false) ∧ x = signOf s * (m + δ) * 2 ^ e

theorem abs_signOf_mul (s : Bool) {y : ℚ} (h : 0 ≤ y) : |signOf s * y| = y := by
  cases s <;> simp [signOf, abs_of_nonneg h]

theorem log2_le_cast {m : Nat} (pos : 0 < m) : (2 : ℚ) ^ Nat.log2 m ≤ m := by
  exact_mod_cast Nat.log2_self_le pos.ne'

theorem cast_lt_log2 (m : Nat) : (m : ℚ) + 1 ≤ 2 ^ (Nat.log2 m + 1) := by
  exact_mod_cast Nat.succ_le_of_lt Nat.lt_log2_self

/-- The binary exponent of a number that is given by its significand. -/
theorem log_denotes {s : Bool} {m : Nat} {e : ℤ} {st : Bool} {x : ℚ} (pos : 0 < m) (h : Denotes s m e st x) :
    Int.log 2 |x| = Nat.log2 m + e := by
  obtain ⟨δ, low, high, -, rfl⟩ := h
  have below := log2_le_cast pos
  have above := cast_lt_log2 m
  have scale : (0 : ℚ) < 2 ^ e := by positivity
  have m0 : (0 : ℚ) < m := by exact_mod_cast pos
  have big : (0 : ℚ) < (m + δ) * 2 ^ e := by positivity
  rw [mul_assoc, abs_signOf_mul s big.le]
  apply le_antisymm
  · rw [← Int.lt_add_one_iff, ← Int.lt_zpow_iff_log_lt (by norm_num) big, add_right_comm, zpow_add₀ (by norm_num)]
    push_cast
    gcongr
    exact_mod_cast (by linarith : (m : ℚ) + δ < 2 ^ (Nat.log2 m + 1))
  · rw [← Int.zpow_le_iff_le_log (by norm_num) big, zpow_add₀ (by norm_num)]
    push_cast
    gcongr
    rw [zpow_natCast]
    linarith

/-! ### The units and the fraction that a significand leaves at an exponent -/

/-- The whole units in m × 2^sh. -/
def unitsOf (m : Nat) (sh : ℤ) : Nat := if 0 ≤ sh then m * 2 ^ sh.toNat else m / 2 ^ (-sh).toNat

/-- What the units leave of m, in parts of a unit. -/
def restOf (m : Nat) (sh : ℤ) : Nat := if 0 ≤ sh then 0 else m % 2 ^ (-sh).toNat

/-- How that rest and what lies beyond it compare with half a unit. -/
def halfwayOf (m : Nat) (sh : ℤ) (st : Bool) : Nat :=
  if 2 * restOf m sh < 2 ^ (-sh).toNat then 0
  else if 2 * restOf m sh == 2 ^ (-sh).toNat then (if st then 2 else 1) else 2

/-- The units after rounding. -/
def roundedOf (rm : BitVec 2) (s : Bool) (m : Nat) (sh : ℤ) (st : Bool) : Nat :=
  if roundsUp rm s (unitsOf m sh % 2 == 1) (halfwayOf m sh st) (restOf m sh == 0 && !st) then unitsOf m sh + 1
  else unitsOf m sh

theorem halfwayOf_eq (m : Nat) (sh : ℤ) (st : Bool) : halfwayOf m sh st =
    if 0 ≤ sh then 0
    else if 2 * restOf m sh < 2 ^ (-sh).toNat then 0
    else if 2 * restOf m sh == 2 ^ (-sh).toNat then (if st then 2 else 1) else 2 := by
  split
  next left => simp [halfwayOf, restOf, left]
  next => rfl

theorem shift_left {sh : ℤ} (h : 0 ≤ sh) : (2 : ℚ) ^ sh = 2 ^ sh.toNat := by
  rw [← zpow_natCast, Int.toNat_of_nonneg h]

theorem shift_right {sh : ℤ} (h : ¬ 0 ≤ sh) : (2 : ℚ) ^ sh = (2 ^ (-sh).toNat)⁻¹ := by
  rw [← zpow_natCast, Int.toNat_of_nonneg (by omega), zpow_neg, inv_inv]

/-- The units, and a fraction that compares with 0 and with half a unit as the rest says. -/
theorem units_and_fraction {m : Nat} {sh : ℤ} {st : Bool} {δ : ℚ} (low : 0 ≤ δ) (high : δ < 1) (exact : δ = 0 ↔ st = false)
    (fits : st = true → sh < 0) : ∃ θ : ℚ, 0 ≤ θ ∧ θ < 1 ∧ (m + δ) * 2 ^ sh = unitsOf m sh + θ ∧
      halfOf θ = halfwayOf m sh st ∧ decide (θ = 0) = (restOf m sh == 0 && !st) := by
  by_cases left : 0 ≤ sh
  · have : st = false := by
      cases st
      · rfl
      · exact absurd (fits rfl) (by omega)
    subst this
    have : δ = 0 := exact.2 rfl
    subst this
    refine ⟨0, le_rfl, one_pos, ?_, ?_, ?_⟩
    · simp [unitsOf, left, shift_left left]
    · simp [halfOf, halfwayOf, restOf, left]
    · simp [restOf, left]
  · set k := (-sh).toNat with hk
    have unit : (0 : ℚ) < 2 ^ k := by positivity
    have less : m % 2 ^ k + 1 ≤ 2 ^ k := Nat.mod_lt _ (by positivity)
    have less : ((m % 2 ^ k : Nat) : ℚ) + 1 ≤ 2 ^ k := by exact_mod_cast less
    have rest0 : (0 : ℚ) ≤ (m % 2 ^ k : Nat) := Nat.cast_nonneg _
    have rest : restOf m sh = m % 2 ^ k := by simp [restOf, left, hk]
    have parts : (m : ℚ) = 2 ^ k * (m / 2 ^ k : Nat) + (m % 2 ^ k : Nat) := by exact_mod_cast (Nat.div_add_mod m (2 ^ k)).symm
    refine ⟨((m % 2 ^ k : Nat) + δ) / 2 ^ k, by positivity, ?_, ?_, ?_, ?_⟩
    · rw [div_lt_one unit]
      linarith
    · rw [shift_right left, ← hk, unitsOf, if_neg left, ← hk]
      field_simp
      linarith
    · rw [halfwayOf, rest, ← hk]
      obtain ⟨j, hj⟩ : ∃ j, k = j + 1 := ⟨k - 1, by omega⟩
      have even : 2 ^ k = 2 * 2 ^ j := by rw [hj, Nat.pow_succ']
      obtain lt | eq | gt := lt_trichotomy (2 * (m % 2 ^ k)) (2 ^ k)
      · have : 2 * (m % 2 ^ k) + 2 ≤ 2 ^ k := by omega
        have : 2 * ((m % 2 ^ k : Nat) : ℚ) + 2 ≤ 2 ^ k := by exact_mod_cast this
        rw [if_pos lt, halfOf, if_pos (by rw [div_lt_div_iff₀ unit two_pos]; linarith)]
      · have twice : 2 * ((m % 2 ^ k : Nat) : ℚ) = 2 ^ k := by exact_mod_cast eq
        rw [if_neg eq.not_lt, if_pos (by simpa using eq)]
        cases st
        · rw [exact.2 rfl, halfOf_half (by field_simp; linarith)]
          rfl
        · have : 0 < δ := lt_of_le_of_ne low (fun h => by simpa using exact.1 h.symm)
          rw [halfOf_above (by rw [div_lt_div_iff₀ two_pos unit]; linarith)]
          rfl
      · have : (2 : ℚ) ^ k < 2 * ((m % 2 ^ k : Nat) : ℚ) := by exact_mod_cast gt
        rw [if_neg gt.not_gt, if_neg (by simpa using gt.ne'), halfOf_above (by rw [div_lt_div_iff₀ two_pos unit]; linarith)]
    · rw [rest, Bool.eq_iff_iff, decide_eq_true_iff, div_eq_zero_iff, or_iff_left unit.ne', add_eq_zero_iff_of_nonneg rest0 low,
        Nat.cast_eq_zero, exact]
      simp

/-- A number rounds to an integer as its units, its rest and the mode say. -/
theorem toInteger_denotes (rm : BitVec 2) {s : Bool} {m : Nat} {sh : ℤ} {st : Bool} {x : ℚ} (h : Denotes s m sh st x)
    (fits : st = true → sh < 0) : toInteger rm x = (if s then -1 else 1) * (roundedOf rm s m sh st : Nat) := by
  obtain ⟨δ, low, high, exact, rfl⟩ := h
  obtain ⟨θ, low', high', value, half, zero⟩ := units_and_fraction low high exact fits
  rw [mul_assoc, value, toInteger_parts rm s _ low' high', half, zero]
  rfl

/-! ### Codes as numbers (R73) -/

/-- The value of a code without its sign bit. -/
def codeValue (f : Fmt) (c : Nat) : ℚ :=
  if c / 2 ^ f.fb = 0 then (c % 2 ^ f.fb : Nat) * 2 ^ (f.emin - f.fb)
  else (2 ^ f.fb + c % 2 ^ f.fb : Nat) * 2 ^ ((c / 2 ^ f.fb : Nat) - (f.bias : ℤ) - f.fb)

theorem real_eq (f : Fmt) (x : Nat) : real f x = signOf (negative f x) * codeValue f (magnitude f x) := by
  have low : magnitude f x % 2 ^ f.fb = x % 2 ^ f.fb := Nat.mod_mod_of_dvd _ (Nat.pow_dvd_pow 2 (by omega))
  simp only [real, codeValue, signOf, low]
  cases negative f x
  · simp only [Bool.false_eq_true, if_false, one_mul]
  · simp only [if_true, neg_one_mul]

/-- A code is j binades above the least normal one and n units of that binade. -/
theorem codeValue_units (f : Fmt) {j n : Nat} (full : j = 0 ∨ 2 ^ f.fb ≤ n) (top : n ≤ 2 ^ (f.fb + 1)) :
    codeValue f (j * 2 ^ f.fb + n) = n * 2 ^ (f.emin + j - f.fb) := by
  have emin : f.emin = 1 - f.bias := rfl
  have two : 2 ^ (f.fb + 1) = 2 * 2 ^ f.fb := Nat.pow_succ'
  have unit : 0 < 2 ^ f.fb := by positivity
  rw [codeValue, Nat.mul_comm j, Nat.mul_add_div unit, Nat.mul_add_mod]
  obtain small | large := Nat.lt_or_ge n (2 ^ f.fb)
  · obtain rfl : j = 0 := by omega
    rw [Nat.div_eq_of_lt small, Nat.mod_eq_of_lt small, if_pos rfl]
    simp
  obtain mid | all := Nat.lt_or_eq_of_le top
  · have : n / 2 ^ f.fb = 1 := by rw [Nat.div_eq_iff unit]; omega
    have rest : 2 ^ f.fb + n % 2 ^ f.fb = n := by
      have := Nat.div_add_mod n (2 ^ f.fb)
      rw [‹n / 2 ^ f.fb = 1›] at this
      omega
    rw [this, if_neg (by omega), rest, emin]
    congr 2
    push_cast
    ring
  · rw [all, two, Nat.mul_div_cancel _ unit, Nat.mul_mod_left, if_neg (by omega), emin]
    push_cast
    rw [show (1 : ℤ) - f.bias + j - f.fb = (j + 2 - f.bias - f.fb) - 1 by ring, zpow_sub_one₀ (by norm_num)]
    ring

/-- A format with an exponent and a fraction of more than one bit, as those of R73 are. -/
structure Standard (f : Fmt) : Prop where
  exponent : 2 ≤ f.eb
  fraction : 2 ≤ f.fb

theorem standard_of_mem {f : Fmt} (h : f ∈ [f64, f32, f16, bf16]) : Standard f := by
  simp only [List.mem_cons, List.not_mem_nil, or_false] at h
  obtain rfl | rfl | rfl | rfl := h <;> exact ⟨by decide, by decide⟩

theorem Standard.exponents {f : Fmt} (h : Standard f) : 2 ^ f.eb = 2 * (f.bias + 1) := by
  obtain ⟨e, he⟩ : ∃ e, f.eb = e + 1 := ⟨f.eb - 1, by have := h.exponent; omega⟩
  have : 0 < 2 ^ e := by positivity
  rw [Fmt.bias, he, Nat.pow_succ', Nat.add_sub_cancel]
  omega

theorem Standard.bias_pos {f : Fmt} (h : Standard f) : 1 ≤ f.bias := by
  have := h.exponents
  have : 2 ^ 2 ≤ 2 ^ f.eb := Nat.pow_le_pow_right two_pos h.exponent
  omega

theorem Standard.infBits {f : Fmt} (h : Standard f) : f.infBits = (2 * f.bias + 1) * 2 ^ f.fb := by
  rw [Fmt.infBits, h.exponents]
  congr 1

theorem Standard.signBit {f : Fmt} (h : Standard f) : f.signBit = (2 * f.bias + 2) * 2 ^ f.fb := by
  rw [Fmt.signBit, Nat.pow_add, h.exponents]
  ring

theorem Standard.infBits_lt {f : Fmt} (h : Standard f) : f.infBits < 2 ^ (f.eb + f.fb) := by
  have unit : 0 < 2 ^ f.fb := by positivity
  have := h.signBit
  rw [Fmt.signBit] at this
  rw [this, h.infBits]
  exact Nat.mul_lt_mul_of_pos_right (by omega) unit

section
variable {f : Fmt} {c : Nat}

theorem magnitude_signed (s : Bool) (h : c < 2 ^ (f.eb + f.fb)) : magnitude f (f.signed s c) = c := by
  cases s
  · exact Nat.mod_eq_of_lt h
  · simp [magnitude, Fmt.signed, Fmt.signBit, Nat.mod_eq_of_lt h]

theorem negative_signed (s : Bool) (h : c < 2 ^ (f.eb + f.fb)) : negative f (f.signed s c) = s := by
  cases s
  · exact Nat.testBit_lt_two_pow h
  · simp [negative, Fmt.signed, Fmt.signBit, Nat.testBit_two_pow_add_eq, Nat.testBit_lt_two_pow h]

theorem signed_lt (s : Bool) (h : c < 2 ^ (f.eb + f.fb)) : f.signed s c < 2 ^ f.width := by
  have : 2 ^ f.width = 2 * 2 ^ (f.eb + f.fb) := by
    rw [Fmt.width, Nat.add_assoc, Nat.pow_add, Nat.pow_one]
  cases s <;> simp only [Fmt.signed, Fmt.signBit, Bool.false_eq_true, if_true, if_false] <;> omega

theorem signed_magnitude {x : Nat} (h : x < 2 ^ f.width) : f.signed (negative f x) (magnitude f x) = x := by
  have width : 2 ^ f.width = 2 ^ (f.eb + f.fb) * 2 := by
    rw [Fmt.width, Nat.add_assoc, Nat.pow_add, Nat.pow_one, Nat.mul_comm]
  have parts := Nat.div_add_mod x (2 ^ (f.eb + f.fb))
  have bit : x / 2 ^ (f.eb + f.fb) < 2 := Nat.div_lt_of_lt_mul (width ▸ h)
  rw [negative, magnitude, Nat.testBit_eq_decide_div_mod_eq]
  obtain zero | one : x / 2 ^ (f.eb + f.fb) = 0 ∨ x / 2 ^ (f.eb + f.fb) = 1 :=
    Nat.le_one_iff_eq_zero_or_eq_one.1 (Nat.lt_succ_iff.1 bit)
  · simp only [zero, Fmt.signed] at parts ⊢
    simpa using parts
  · simp only [one, Fmt.signed, Fmt.signBit] at parts ⊢
    simpa using parts

end

/-! ### Round (R75) -/

/-- `roundVal` by the units and the rest that its significand leaves at the exponent of its last place. -/
theorem roundVal_eq (f : Fmt) (rm : BitVec 2) (ftz s : Bool) (m : Nat) (e : ℤ) (st : Bool) :
    roundVal f rm ftz s m e st =
      let lg : ℤ := Nat.log2 m + e
      let ee := max lg f.emin
      let sh := e - (ee - f.fb)
      let fl := if restOf m sh == 0 && !st then 0 else if lg < f.emin then flNX ||| flUF else flNX
      let mag := (ee - f.emin).toNat * 2 ^ f.fb + roundedOf rm s m sh st
      if lg < f.emin ∧ ftz = true then (f.signed s 0, flUF ||| flNX)
      else if f.bias < lg ∨ f.infBits ≤ mag then (overflowBits f rm s, fl ||| flOF ||| flNX)
      else (f.signed s mag, fl) := by
  simp only [roundVal, roundedOf, unitsOf, restOf, halfwayOf_eq, Bool.and_eq_true, Bool.or_eq_true, decide_eq_true_eq, gt_iff_lt]
  split
  · rfl
  · rfl

/-- The units fill no more bits than the exponent and the last place leave. -/
theorem unitsOf_lt {m n : Nat} {sh : ℤ} (h : sh + Nat.log2 m ≤ n) : unitsOf m sh < 2 ^ (n + 1) := by
  have above : m < 2 ^ (Nat.log2 m + 1) := Nat.lt_log2_self
  rw [unitsOf]
  split
  · calc m * 2 ^ sh.toNat < 2 ^ (Nat.log2 m + 1) * 2 ^ sh.toNat := Nat.mul_lt_mul_of_pos_right above (by positivity)
      _ = 2 ^ (Nat.log2 m + 1 + sh.toNat) := (Nat.pow_add ..).symm
      _ ≤ 2 ^ (n + 1) := Nat.pow_le_pow_right two_pos (by omega)
  · rw [Nat.div_lt_iff_lt_mul (by positivity), ← Nat.pow_add]
    exact above.trans_le (Nat.pow_le_pow_right two_pos (by omega))

/-- The units fill all the bits that the exponent and the last place leave. -/
theorem le_unitsOf {m n : Nat} {sh : ℤ} (pos : 0 < m) (h : sh + Nat.log2 m = n) : 2 ^ n ≤ unitsOf m sh := by
  have below : 2 ^ Nat.log2 m ≤ m := Nat.log2_self_le pos.ne'
  rw [unitsOf]
  split
  · calc 2 ^ n = 2 ^ Nat.log2 m * 2 ^ sh.toNat := by rw [← Nat.pow_add]; congr 1; omega
      _ ≤ m * 2 ^ sh.toNat := Nat.mul_le_mul_right _ below
  · rw [Nat.le_div_iff_mul_le (by positivity), ← Nat.pow_add]
    exact (Nat.pow_le_pow_right two_pos (by omega)).trans below

theorem roundedOf_le (rm : BitVec 2) (s : Bool) (m : Nat) (sh : ℤ) (st : Bool) :
    unitsOf m sh ≤ roundedOf rm s m sh st ∧ roundedOf rm s m sh st ≤ unitsOf m sh + 1 := by
  rw [roundedOf]
  split <;> omega

/-- The largest codes by the mode and the sign (R75). -/
theorem overflowBits_eq (f : Fmt) (rm : BitVec 2) (s : Bool) :
    overflowBits f rm s = f.signed s
      (if rm = 0 ∨ (rm = 2 ∧ s = false) ∨ (rm = 3 ∧ s = true) then f.infBits else f.infBits - 1) := by
  have modes : rm = 0 ∨ rm = 1 ∨ rm = 2 ∨ rm = 3 := by revert rm; decide
  obtain rfl | rfl | rfl | rfl := modes <;> cases s <;> rfl

theorem Denotes.scaled {s : Bool} {m : Nat} {e : ℤ} {st : Bool} {x : ℚ} (h : Denotes s m e st x) (k : ℤ) :
    Denotes s m (e - k) st (x / 2 ^ k) := by
  obtain ⟨δ, low, high, exact, rfl⟩ := h
  exact ⟨δ, low, high, exact, by rw [zpow_sub₀ (by norm_num)]; ring⟩

theorem Denotes.sign {s : Bool} {m : Nat} {e : ℤ} {st : Bool} {x : ℚ} (h : Denotes s m e st x) (pos : 0 < m) :
    x ≠ 0 ∧ decide (x < 0) = s ∧ decide (0 < x) = !s := by
  obtain ⟨δ, low, high, exact, rfl⟩ := h
  have m0 : (0 : ℚ) < m := by exact_mod_cast pos
  have big : (0 : ℚ) < (m + δ) * 2 ^ e := by positivity
  rw [mul_assoc]
  generalize ((m : ℚ) + δ) * 2 ^ e = y at big
  cases s <;> simp [signOf, big, big.le, big.ne']

/-- A number is a whole number of units where its significand leaves no rest. -/
theorem Denotes.exact_iff {s : Bool} {m : Nat} {sh : ℤ} {st : Bool} {x : ℚ} (rm : BitVec 2) (h : Denotes s m sh st x)
    (fits : st = true → sh < 0) : (toInteger rm x : ℚ) = x ↔ (restOf m sh == 0 && !st) = true := by
  obtain ⟨δ, low, high, exact, rfl⟩ := h
  obtain ⟨θ, low', high', value, half, zero⟩ := units_and_fraction low high exact fits
  rw [mul_assoc, value, ← zero, decide_eq_true_iff]
  constructor
  · intro whole
    have : ∃ k : ℤ, θ = k := by
      cases s
      · exact ⟨toInteger rm (signOf false * (unitsOf m sh + θ)) - unitsOf m sh, by push_cast; rw [whole]; simp [signOf]⟩
      · exact ⟨-toInteger rm (signOf true * (unitsOf m sh + θ)) - unitsOf m sh, by push_cast; rw [whole]; simp [signOf]⟩
    obtain ⟨k, rfl⟩ := this
    have : (0 : ℤ) ≤ k := by exact_mod_cast low'
    have : k < (1 : ℤ) := by exact_mod_cast high'
    rw [show k = 0 by omega, Int.cast_zero]
  · rintro rfl
    have : signOf s * ((unitsOf m sh : ℚ) + 0) = (((if s then -1 else 1) * (unitsOf m sh : ℤ) : ℤ) : ℚ) := by
      cases s <;> simp [signOf]
    rw [this, toInteger_intCast]

/-- The units in a binade pass the largest finite number where their code does (R75). -/
theorem overflow_iff {f : Fmt} (std : Standard f) {lg : ℤ} {n : Nat} (top : n ≤ 2 ^ (f.fb + 1))
    (full : f.emin ≤ lg → 2 ^ f.fb ≤ n) :
    (2 : ℚ) ^ (f.bias + 1) ≤ n * 2 ^ (max lg f.emin - f.fb) ↔
      f.bias < lg ∨ f.infBits ≤ (max lg f.emin - f.emin).toNat * 2 ^ f.fb + n := by
  have emin : f.emin = 1 - f.bias := rfl
  have unit : 0 < 2 ^ f.fb := by positivity
  have two : 2 ^ (f.fb + 1) = 2 * 2 ^ f.fb := Nat.pow_succ'
  have bias := std.bias_pos
  by_cases high : f.bias < lg
  · refine iff_of_true ?_ (.inl high)
    have ee : max lg f.emin = lg := by omega
    have : (2 : ℚ) ^ f.fb ≤ n := by exact_mod_cast full (by omega)
    calc (2 : ℚ) ^ (f.bias + 1) = 2 ^ ((f.bias : ℤ) + 1) := by rw [← zpow_natCast]; rfl
      _ ≤ 2 ^ lg := zpow_le_zpow_right₀ (by norm_num) (by omega)
      _ = 2 ^ f.fb * 2 ^ (lg - f.fb) := by rw [← zpow_natCast, ← zpow_add₀ (by norm_num)]; congr 1; ring
      _ ≤ n * 2 ^ (max lg f.emin - f.fb) := by rw [ee]; gcongr
  rw [or_iff_right high]
  obtain ⟨j, hj⟩ : ∃ j : Nat, max lg f.emin = f.emin + j := ⟨(max lg f.emin - f.emin).toNat, by omega⟩
  have : j ≤ 2 * f.bias - 1 := by omega
  have binade : (max lg f.emin - f.emin).toNat = j := by omega
  rw [binade, std.infBits, hj]
  by_cases last : j = 2 * f.bias - 1 ∧ n = 2 ^ (f.fb + 1)
  · obtain ⟨rfl, rfl⟩ := last
    refine iff_of_true ?_ ?_
    · push_cast
      rw [← zpow_natCast, ← zpow_natCast, ← zpow_add₀ (by norm_num)]
      apply le_of_eq
      congr 1
      omega
    · rw [two, ← Nat.add_mul]
      exact Nat.mul_le_mul_right _ (by omega)
  · have units : (n : ℚ) ≤ 2 ^ (f.fb + 1) := by exact_mod_cast top
    have binades (k : ℤ) : (2 : ℚ) ^ (f.fb + 1) * 2 ^ (k - f.fb) = 2 ^ (k + 1) := by
      rw [← zpow_natCast, ← zpow_add₀ (by norm_num)]
      congr 1
      push_cast
      ring
    have limit : (2 : ℚ) ^ (f.bias + 1) = 2 ^ ((f.bias : ℤ) + 1) := by rw [← zpow_natCast]; rfl
    refine iff_of_false (not_le.2 ?_) (not_le.2 ?_) <;> by_cases high : j = 2 * f.bias - 1
    · have less : (n : ℚ) < 2 ^ (f.fb + 1) := by exact_mod_cast lt_of_le_of_ne top (fun h => last ⟨high, h⟩)
      rw [show f.emin + j = f.bias by omega, limit, ← binades]
      gcongr
    · calc (n : ℚ) * 2 ^ (f.emin + j - f.fb) ≤ 2 ^ (f.fb + 1) * 2 ^ (f.emin + j - f.fb) := by gcongr
        _ = 2 ^ (f.emin + j + 1) := binades _
        _ < 2 ^ (f.bias + 1) := by rw [limit]; exact zpow_lt_zpow_right₀ (by norm_num) (by omega)
    · have less : n < 2 ^ (f.fb + 1) := lt_of_le_of_ne top (fun h => last ⟨high, h⟩)
      rw [show 2 * f.bias + 1 = j + 2 by omega, Nat.add_mul, ← two]
      omega
    · calc j * 2 ^ f.fb + n ≤ j * 2 ^ f.fb + 2 * 2 ^ f.fb := by omega
        _ = (j + 2) * 2 ^ f.fb := by ring
        _ < (2 * f.bias + 1) * 2 ^ f.fb := Nat.mul_lt_mul_of_pos_right (by omega) unit

/-- Round of a number that is not zero is its units at the exponent of its last place (R75). -/
theorem roundVal_isRound {f : Fmt} (std : Standard f) (rm : BitVec 2) (z zs : Bool) {s : Bool} {m : Nat} {e : ℤ} {st : Bool} {x : ℚ}
    (pos : 0 < m) (h : Denotes s m e st x) (wide : st = true → f.fb < Nat.log2 m) :
    IsRound f rm z x zs (roundVal f rm z s m e st) := by
  obtain ⟨nonzero, neg, plus⟩ := h.sign pos
  have log := log_denotes pos h
  set lg : ℤ := Nat.log2 m + e with hlg
  set ee := max lg f.emin with hee
  set sh := e - (ee - f.fb) with hsh
  have fits : st = true → sh < 0 := fun hst => by have := wide hst; omega
  have scaled : Denotes s m sh st (x / 2 ^ (ee - f.fb)) := h.scaled (ee - f.fb)
  set n := roundedOf rm s m sh st with hn
  have whole := toInteger_denotes rm scaled fits
  rw [← hn] at whole
  have tiny : |x| < 2 ^ f.emin ↔ lg < f.emin := by
    rw [← log]
    exact Int.lt_zpow_iff_log_lt (b := 2) (by norm_num) (abs_pos.2 nonzero)
  have quantum : (2 : ℚ) ^ (max (Int.log 2 |x|) f.emin - f.fb) = 2 ^ (ee - f.fb) := by rw [log]
  rw [roundVal_eq]
  simp only [IsRound, quantum, neg, tiny]
  rw [if_neg nonzero]
  simp only [← hlg, ← hee, ← hsh, ← hn]
  split
  · rfl
  have units0 : f.emin ≤ lg → 2 ^ f.fb ≤ n := fun high =>
    (le_unitsOf pos (by omega)).trans (roundedOf_le rm s m sh st).1
  have units1 : n ≤ 2 ^ (f.fb + 1) :=
    (roundedOf_le rm s m sh st).2.trans (unitsOf_lt (by omega))
  have size : |(toInteger rm (x / 2 ^ (ee - f.fb)) : ℚ) * 2 ^ (ee - f.fb)| = n * 2 ^ (ee - f.fb) := by
    rw [whole]
    cases s <;> simp [abs_mul]
  have limit := overflow_iff std units1 units0
  rw [← hee] at limit
  rw [size]
  by_cases past : (2 : ℚ) ^ (f.bias + 1) ≤ n * 2 ^ (ee - f.fb)
  · rw [if_pos past, if_pos (limit.1 past), overflowBits_eq]
    have normal : ¬ lg < f.emin := fun low => by
      have := std.bias_pos
      have emin : f.emin = 1 - f.bias := rfl
      have least : ee = f.emin := by omega
      have two : 2 ^ (f.fb + 1) = 2 * 2 ^ f.fb := Nat.pow_succ'
      have three : 3 * 2 ^ f.fb ≤ (2 * f.bias + 1) * 2 ^ f.fb := Nat.mul_le_mul_right _ (by omega)
      have unit : 0 < 2 ^ f.fb := by positivity
      have := limit.1 past
      rw [least, std.infBits, sub_self, Int.toNat_zero, Nat.zero_mul] at this
      omega
    have below : x < 0 ↔ s = true := by rw [← neg, decide_eq_true_iff]
    have above : 0 < x ↔ s = false := by rw [← decide_eq_true_iff (p := 0 < x), plus]; simp
    simp only [below, above, if_neg normal]
    congr 1
    split <;> decide
  · rw [if_neg past, if_neg (fun h => past (limit.2 h))]
    have small : (ee - f.emin).toNat * 2 ^ f.fb + n < f.infBits := by
      by_contra h
      exact past (limit.2 (.inr (not_lt.1 h)))
    have code := small.trans std.infBits_lt
    have last : f.emin + ((ee - f.emin).toNat : ℤ) - f.fb = ee - f.fb := by omega
    refine ⟨signed_lt s code, ?_, negative_signed s code, ?_, ?_⟩
    · rw [finite, magnitude_signed s code]
      exact decide_eq_true small
    · rw [real_eq, negative_signed s code, magnitude_signed s code, codeValue_units f (by omega) units1, last, whole]
      cases s <;> simp [signOf]
    · have unit : (2 : ℚ) ^ (ee - f.fb) ≠ 0 := by positivity
      have exact : (toInteger rm (x / 2 ^ (ee - f.fb)) : ℚ) * 2 ^ (ee - f.fb) = x ↔ (restOf m sh == 0 && !st) = true := by
        rw [← scaled.exact_iff rm fits, eq_div_iff unit]
      simp only [exact]

/-! ### Exact results (R73, R76) -/

theorem valueOf_fin (s : Bool) (m : Nat) (e : ℤ) (sub : Bool) : valueOf (.fin s m e sub) = signOf s * m * 2 ^ e := rfl

@[simp] theorem valueOf_zero (s : Bool) : valueOf (.zero s) = 0 := rfl

theorem valueOf_fin_ne_zero {s : Bool} {m : Nat} {e : ℤ} {sub : Bool} (h : m ≠ 0) : valueOf (.fin s m e sub) ≠ 0 := by
  have : (2 : ℚ) ^ e ≠ 0 := by positivity
  cases s <;> simp [valueOf_fin, signOf, h, this]

theorem isRound_zero (f : Fmt) (rm : BitVec 2) (z s : Bool) : IsRound f rm z 0 s (deliver f rm z (.zero s)) := by
  simp [IsRound, deliver]

/-- What a finite number with a significand delivers is its Round. -/
theorem deliver_val {f : Fmt} (std : Standard f) (rm : BitVec 2) (z zs s : Bool) {m : Nat} (e : ℤ) (nonzero : m ≠ 0) :
    IsRound f rm z (signOf s * m * 2 ^ e) zs (deliver f rm z (.val s m e false)) :=
  roundVal_isRound std rm z zs (Nat.pos_of_ne_zero nonzero) ⟨0, le_rfl, one_pos, by simp, by simp⟩ (by simp)

theorem deliver_exact {f : Fmt} (std : Standard f) (rm : BitVec 2) (z : Bool) {v : FVal} (h : isReal v) :
    IsRound f rm z (valueOf v) v.sign (deliver f rm z v.exact) := by
  cases v with
  | nan _ | inf _ => exact h.elim
  | zero s => exact isRound_zero f rm z s
  | fin s m e sub => exact deliver_val std rm z s s e h

theorem signed_natAbs {n : ℤ} (h : n ≠ 0) : (n : ℚ) = signOf (decide (n < 0)) * n.natAbs := by
  obtain neg | pos := lt_or_gt_of_ne h
  · rw [decide_eq_true neg, Nat.cast_natAbs, abs_of_neg neg]
    simp [signOf]
  · rw [decide_eq_false pos.le.not_gt, Nat.cast_natAbs, abs_of_pos pos]
    simp [signOf]

theorem deliver_exactOf {f : Fmt} (std : Standard f) (rm : BitVec 2) (z zs : Bool) (n e : ℤ) :
    IsRound f rm z (n * 2 ^ e) zs (deliver f rm z (exactOf n e zs)) := by
  by_cases zero : n = 0
  · subst zero
    simpa [exactOf] using isRound_zero f rm z zs
  · rw [exactOf, if_neg zero, signed_natAbs zero]
    exact deliver_val std rm z zs _ e (Int.natAbs_ne_zero.2 zero)

theorem scaled_value (s : Bool) (m : Nat) {e g : ℤ} (h : g ≤ e) : (scaled s m e g : ℚ) * 2 ^ g = signOf s * m * 2 ^ e := by
  have shift : (2 : ℚ) ^ (e - g).toNat * 2 ^ g = 2 ^ e := by
    rw [← zpow_natCast, ← zpow_add₀ (by norm_num)]
    congr 1
    omega
  cases s <;> simp [scaled, signOf, mul_assoc, shift]

/-- The sign of an exact zero sum (R76). -/
def zeroSign (rm : BitVec 2) (s s' : Bool) (zeros : Prop) [Decidable zeros] : Bool := if zeros ∧ s = s' then s else rm == 3

theorem zeroSign_zeros (rm : BitVec 2) (s s' : Bool) {zeros : Prop} [Decidable zeros] (h : zeros) :
    zeroSign rm s s' zeros = if s == s' then s else zeroSum rm := by
  simp [zeroSign, zeroSum, h]

/-- An exact sum is rounded once; an exact zero takes the sign of R76. -/
theorem deliver_addExact {f : Fmt} (std : Standard f) (rm : BitVec 2) (z : Bool) {a b : FVal} (ha : isReal a) (hb : isReal b) :
    IsRound f rm z (valueOf a + valueOf b) (zeroSign rm a.sign b.sign (valueOf a = 0 ∧ valueOf b = 0))
      (deliver f rm z (addExact rm a b)) := by
  cases a with
  | nan _ | inf _ => exact ha.elim
  | zero s =>
    cases b with
    | nan _ | inf _ => exact hb.elim
    | zero s' =>
      rw [zeroSign_zeros rm _ _ ⟨valueOf_zero s, valueOf_zero s'⟩, valueOf_zero, valueOf_zero, zero_add]
      exact isRound_zero f rm z _
    | fin s' m e sub =>
      simp only [valueOf_zero, zero_add]
      exact deliver_val std rm z _ s' e hb
  | fin s m e sub =>
    cases b with
    | nan _ | inf _ => exact hb.elim
    | zero s' =>
      simp only [valueOf_zero, add_zero]
      exact deliver_val std rm z _ s e ha
    | fin s' m' e' sub' =>
      have parts : valueOf (.fin s m e sub) + valueOf (.fin s' m' e' sub') =
          ((scaled s m e (min e e') + scaled s' m' e' (min e e') : ℤ) : ℚ) * 2 ^ min e e' := by
        rw [valueOf_fin, valueOf_fin, Int.cast_add, add_mul, scaled_value s m (min_le_left ..), scaled_value s' m' (min_le_right ..)]
      have nonzero : valueOf (.fin s m e sub) ≠ 0 := valueOf_fin_ne_zero ha
      have sign : zeroSign rm s s' (valueOf (.fin s m e sub) = 0 ∧ valueOf (.fin s' m' e' sub') = 0) = zeroSum rm := by
        simp [zeroSign, nonzero, zeroSum]
      rw [parts]
      exact sign ▸ deliver_exactOf std rm z _ _ _

/-- The exact product of two finite numbers. -/
theorem mulExact_real {a b : FVal} (ha : isReal a) (hb : isReal b) :
    ∃ p, mulExact a b = some p ∧ isReal p ∧ valueOf p = valueOf a * valueOf b ∧ p.sign = (a.sign != b.sign) := by
  cases a with
  | nan _ | inf _ => exact ha.elim
  | zero s =>
    cases b with
    | nan _ | inf _ => exact hb.elim
    | zero s' => exact ⟨_, rfl, trivial, by simp [valueOf], rfl⟩
    | fin s' m' e' sub' => exact ⟨_, rfl, trivial, by simp [valueOf], rfl⟩
  | fin s m e sub =>
    cases b with
    | nan _ | inf _ => exact hb.elim
    | zero s' => exact ⟨_, rfl, trivial, by simp [valueOf], rfl⟩
    | fin s' m' e' sub' =>
      refine ⟨_, rfl, Nat.mul_ne_zero ha hb, ?_, rfl⟩
      simp only [valueOf_fin, FVal.sign]
      rw [zpow_add₀ (by norm_num)]
      cases s <;> cases s' <;> simp [signOf] <;> ring

theorem isNaN_real {v : FVal} (h : isReal v) : v.isNaN = false := by
  cases v with
  | nan _ | inf _ => exact h.elim
  | zero _ | fin _ _ _ _ => rfl

theorem fAdd_real (rm : BitVec 2) {a b : FVal} (ha : isReal a) (hb : isReal b) : fAdd rm a b = addExact rm a b := by
  simp [fAdd, isNaN_real ha, isNaN_real hb]

theorem fMul_real {a b p : FVal} (ha : isReal a) (hb : isReal b) (h : mulExact a b = some p) : fMul a b = p.exact := by
  simp [fMul, isNaN_real ha, isNaN_real hb, h]

theorem fFma_real (rm : BitVec 2) {a b c p : FVal} (ha : isReal a) (hb : isReal b) (hc : isReal c) (h : mulExact a b = some p) :
    fFma rm a b c = addExact rm p c := by
  have sums : (a.isNaN || b.isNaN || c.isNaN) = false := by simp [isNaN_real ha, isNaN_real hb, isNaN_real hc]
  cases a with
  | nan _ | inf _ => exact ha.elim
  | zero _ | fin _ _ _ _ =>
    cases b with
    | nan _ | inf _ => exact hb.elim
    | zero _ | fin _ _ _ _ => simp only [fFma, sums, h, Bool.false_eq_true, if_false]

theorem neg_real {v : FVal} (h : isReal v) : isReal v.neg ∧ valueOf v.neg = -valueOf v ∧ v.neg.sign = !v.sign := by
  cases v with
  | nan _ | inf _ => exact h.elim
  | zero s => exact ⟨trivial, by simp [valueOf, FVal.neg], rfl⟩
  | fin s m e sub => exact ⟨h, by cases s <;> simp [FVal.neg, valueOf], rfl⟩

/-! ### Codes as values (R71, R73) -/

section
variable {f : Fmt} {x : Nat}

theorem exponent_field (f : Fmt) (x : Nat) : x / 2 ^ f.fb % 2 ^ f.eb = magnitude f x / 2 ^ f.fb := by
  rw [magnitude, Nat.add_comm, Nat.pow_add, Nat.mod_mul_right_div_self]

theorem fraction_field (f : Fmt) (x : Nat) : x % 2 ^ f.fb = magnitude f x % 2 ^ f.fb :=
  (Nat.mod_mod_of_dvd _ (Nat.pow_dvd_pow 2 (by omega))).symm

/-- Codes that are not finite have an exponent field of ones. -/
theorem exponent_ones (f : Fmt) (x : Nat) : magnitude f x / 2 ^ f.fb = 2 ^ f.eb - 1 ↔ f.infBits ≤ magnitude f x := by
  have unit : 0 < 2 ^ f.fb := by positivity
  have bound : magnitude f x < 2 ^ f.eb * 2 ^ f.fb := by
    rw [← Nat.pow_add]
    exact Nat.mod_lt _ (by positivity)
  have : magnitude f x / 2 ^ f.fb < 2 ^ f.eb := by rwa [Nat.div_lt_iff_lt_mul unit]
  rw [Fmt.infBits, ← Nat.le_div_iff_mul_le unit]
  omega

theorem unit_le_infBits (std : Standard f) : 2 ^ f.fb ≤ f.infBits := by
  rw [std.infBits]
  exact Nat.le_mul_of_pos_left _ (by omega)

/-- The value of a code, by its magnitude (R73). -/
theorem decF_eq (std : Standard f) (x : Nat) : decF f x =
    if f.infBits ≤ magnitude f x then
      (if magnitude f x = f.infBits then .inf (negative f x) else .nan (!x.testBit (f.fb - 1)))
    else if magnitude f x < 2 ^ f.fb then
      (if magnitude f x = 0 then .zero (negative f x) else .fin (negative f x) (magnitude f x) (f.emin - f.fb) true)
    else .fin (negative f x) (2 ^ f.fb + magnitude f x % 2 ^ f.fb) ((magnitude f x / 2 ^ f.fb : Nat) - (f.bias : ℤ) - f.fb) false := by
  have sign : x.testBit (f.eb + f.fb) = negative f x := rfl
  have quiet : (x % 2 ^ f.fb).testBit (f.fb - 1) = x.testBit (f.fb - 1) := by
    have := std.fraction
    simp [Nat.testBit_mod_two_pow, show f.fb - 1 < f.fb by omega]
  have unit : 0 < 2 ^ f.fb := by positivity
  rw [← quiet]
  simp only [decF, sign, exponent_field, fraction_field f x, exponent_ones]
  by_cases ones : f.infBits ≤ magnitude f x
  · rw [if_pos ones, if_pos ones]
    have parts := Nat.div_add_mod (magnitude f x) (2 ^ f.fb)
    rw [(exponent_ones f x).2 ones, Nat.mul_comm] at parts
    have : magnitude f x % 2 ^ f.fb = 0 ↔ magnitude f x = f.infBits := by
      rw [Fmt.infBits]
      omega
    simp only [this]
  · rw [if_neg ones, if_neg ones]
    by_cases low : magnitude f x < 2 ^ f.fb
    · rw [if_pos (Nat.div_eq_of_lt low), if_pos low, Nat.mod_eq_of_lt low]
    · rw [if_neg (Nat.div_pos (not_lt.1 low) unit).ne', if_neg low]

/-- A finite code is a zero, or a significand and an exponent; its real number is theirs. -/
theorem decF_finite (std : Standard f) (h : finite f x = true) :
    isReal (decF f x) ∧ valueOf (decF f x) = real f x ∧ (decF f x).sign = negative f x := by
  have ordinary : ¬ f.infBits ≤ magnitude f x := not_le.2 (of_decide_eq_true h)
  have unit : 0 < 2 ^ f.fb := by positivity
  rw [decF_eq std, if_neg ordinary, real_eq, codeValue]
  split
  next low =>
    rw [if_pos (Nat.div_eq_of_lt low), Nat.mod_eq_of_lt low]
    split
    next zero => simp [isReal, zero, FVal.sign]
    next nonzero => exact ⟨nonzero, by rw [valueOf_fin, mul_assoc], rfl⟩
  next high =>
    rw [if_neg (Nat.div_pos (not_lt.1 high) unit).ne']
    exact ⟨by simp [isReal], by rw [valueOf_fin, mul_assoc], rfl⟩

theorem magnitude_zero_code (f : Fmt) (s : Bool) : magnitude f (f.signed s 0) = 0 := magnitude_signed s (by positivity)

theorem negative_zero_code (f : Fmt) (s : Bool) : negative f (f.signed s 0) = s := negative_signed s (by positivity)

theorem decF_zero_code (std : Standard f) (s : Bool) : decF f (f.signed s 0) = .zero s := by
  have unit : 0 < 2 ^ f.fb := by positivity
  have := unit_le_infBits std
  rw [decF_eq std, magnitude_zero_code, negative_zero_code, if_neg (by omega), if_pos unit, if_pos rfl]

/-- FlushIn leaves a code alone or makes a subnormal one a zero of its sign. -/
theorem flushed_cases (f : Fmt) (z : Bool) (x : Nat) :
    flushed f z x = x ∨ (z && f != f64) = true ∧ magnitude f x < 2 ^ f.fb ∧ flushed f z x = f.signed (negative f x) 0 := by
  rw [flushed]
  split
  next h =>
    simp only [Bool.and_eq_true, decide_eq_true_eq] at h
    exact .inr ⟨by simp [h], h.2, rfl⟩
  next h => exact .inl rfl

@[simp] theorem negative_flushed (f : Fmt) (z : Bool) (x : Nat) : negative f (flushed f z x) = negative f x := by
  obtain same | ⟨-, -, flush⟩ := flushed_cases f z x
  · rw [same]
  · rw [flush, negative_zero_code]

/-- FlushIn on a code is FlushIn on its value (R71). -/
theorem operand_eq (std : Standard f) (z : Bool) (x : Nat) : operand f z x = decF f (flushed f z x) := by
  rw [operand, flushed]
  by_cases low : magnitude f x < 2 ^ f.fb
  · have := unit_le_infBits std
    have value := decF_eq std x
    rw [if_neg (by omega), if_pos low] at value
    cases flush : (z && f != f64)
    · rw [if_neg (by simp), value]
      split
      · rfl
      · simp [flushIn, flush]
    · rw [if_pos (by simp [low]), decF_zero_code std, value]
      split
      · rfl
      · simp [flushIn, flush]
  · rw [if_neg (by simp [low]), decF_eq std, if_neg low]
    split
    · split <;> rfl
    · rfl

theorem finite_flushed (std : Standard f) (z : Bool) (h : finite f x = true) : finite f (flushed f z x) = true := by
  obtain same | ⟨-, low, flush⟩ := flushed_cases f z x
  · rwa [same]
  · have := unit_le_infBits std
    rw [flush, finite, magnitude_zero_code]
    exact decide_eq_true (by omega)

theorem operand_real (std : Standard f) (z : Bool) (h : finite f x = true) :
    isReal (operand f z x) ∧ valueOf (operand f z x) = real f (flushed f z x) ∧
      (operand f z x).sign = negative f (flushed f z x) := by
  rw [operand_eq std]
  exact decF_finite std (finite_flushed std z h)

end

/-- Settles O13: Round of the exact real result, by the units and the rest that it leaves at the exponent of its last place. -/
theorem floatResultsAreRounded : Obligations.FloatResultsAreRounded := by
  intro f hf rm z x y w _ _ _ hx hy hw a b c sum
  have std := standard_of_mem hf
  obtain ⟨ra, va, sa⟩ := operand_real std z hx
  obtain ⟨rb, vb, sb⟩ := operand_real std z hy
  obtain ⟨rc, vc, sc⟩ := operand_real std z hw
  obtain ⟨rn, vn, sn⟩ := neg_real rb
  obtain ⟨p, hp, rp, vp, sp⟩ := mulExact_real ra rb
  refine ⟨?_, ?_, ?_, ?_⟩
  · have := deliver_addExact std rm z ra rb
    rw [va, vb, sa, sb, ← fAdd_real rm ra rb] at this
    exact this
  · have := deliver_addExact std rm z ra rn
    rw [vn, sn, va, vb, sa, sb, ← fAdd_real rm ra rn, ← sub_eq_add_neg] at this
    simp only [neg_eq_zero] at this
    exact this
  · have := deliver_exact std rm z rp
    rw [vp, sp, va, vb, sa, sb] at this
    rw [← fMul_real ra rb hp] at this
    exact this
  · have := deliver_addExact std rm z rp rc
    rw [vp, sp, vc, sc, va, vb, sa, sb] at this
    rw [← fFma_real rm ra rb rc hp] at this
    exact this

end Sys2Proof.Formats
end

-- Proofs of the statement on residue cells (spec/04_number_formats.md)
section
/-! SUPPORT. The channels of a residue cell hold a number modulo their moduli, and CRTDecode finds it again. -/

namespace Sys2Proof.Formats

open Sys2Proof Sys2Proof.Machine Sys2Proof.Says

/-! ### Residue cells (R85 to R88) -/

theorem cellOf_getLsbD (p q r t i : Nat) : (Machine.cellOf p q r t).getLsbD i =
    if i < 8 then (BitVec.ofNat 8 p).getLsbD i else if i < 16 then (BitVec.ofNat 8 q).getLsbD (i - 8)
    else if i < 25 then (BitVec.ofNat 9 r).getLsbD (i - 16) else (BitVec.ofNat 8 t).getLsbD (i - 25) := by
  change BitVec.getLsbD (w := 7 + 8 + 9 + 8 + 8) (0#7 ++ BitVec.ofNat 8 t ++ BitVec.ofNat 9 r ++ BitVec.ofNat 8 q ++ BitVec.ofNat 8 p) i = _
  rw [BitVec.getLsbD_append, BitVec.getLsbD_append, BitVec.getLsbD_append, BitVec.getLsbD_append]
  by_cases first : i < 8
  · rw [if_pos first, if_pos first]
  by_cases second : i < 16
  · rw [if_neg first, if_pos (by omega), if_neg first, if_pos second]
  rw [if_neg first, if_neg (by omega), if_neg first, if_neg second, Nat.sub_sub]
  by_cases third : i < 25
  · rw [if_pos (by omega), if_pos third]
  rw [if_neg (by omega), if_neg third, Nat.sub_sub]
  by_cases fourth : i - 25 < 8
  · rw [if_pos fourth]
  · rw [if_neg fourth, BitVec.getLsbD_of_ge _ _ (not_lt.1 fourth)]
    simp

/-- The bits of a cell's channels (R85). -/
theorem cellOf_bits (p q r t : Nat) :
    (Machine.cellOf p q r t).extractLsb' 0 8 = BitVec.ofNat 8 p ∧ (Machine.cellOf p q r t).extractLsb' 8 8 = BitVec.ofNat 8 q ∧
      (Machine.cellOf p q r t).extractLsb' 16 9 = BitVec.ofNat 9 r ∧ (Machine.cellOf p q r t).extractLsb' 25 8 = BitVec.ofNat 8 t := by
  refine ⟨?_, ?_, ?_, ?_⟩ <;> ext i hi
  · rw [BitVec.getElem_extractLsb', cellOf_getLsbD, if_pos (by omega)]
    simp [← BitVec.getLsbD_eq_getElem]
  · rw [BitVec.getElem_extractLsb', cellOf_getLsbD, if_neg (by omega), if_pos (by omega)]
    simp [← BitVec.getLsbD_eq_getElem]
  · rw [BitVec.getElem_extractLsb', cellOf_getLsbD, if_neg (by omega), if_neg (by omega), if_pos (by omega)]
    simp [← BitVec.getLsbD_eq_getElem]
  · rw [BitVec.getElem_extractLsb', cellOf_getLsbD, if_neg (by omega), if_neg (by omega), if_neg (by omega)]
    simp [← BitVec.getLsbD_eq_getElem]

/-- The channels of a cell that is put together from numbers that fit them (R85). -/
theorem channel_cellOf {p q r t : Nat} (hp : p < 256) (hq : q < 256) (hr : r < 512) (ht : t < 256) :
    channel (Machine.cellOf p q r t) 0 8 = p ∧ channel (Machine.cellOf p q r t) 8 8 = q ∧
      channel (Machine.cellOf p q r t) 16 9 = r ∧ channel (Machine.cellOf p q r t) 25 8 = t := by
  obtain ⟨bp, bq, br, bt⟩ := cellOf_bits p q r t
  simp only [channel, bp, bq, br, bt, BitVec.toNat_ofNat]
  omega

/-- The channels of a cell hold n modulo their moduli. -/
def Holds (c : BitVec 40) (n : Int) : Prop :=
  ∀ e ∈ channels, (channel c e.2.1 e.2.2 : Int) = n % (e.1 : Int)

theorem holds_iff (c : BitVec 40) (n : Int) :
    Holds c n ↔ (channel c 0 8 : Int) = n % 255 ∧ (channel c 8 8 : Int) = n % 256 ∧ (channel c 16 9 : Int) = n % 257 ∧
      (channel c 25 8 : Int) = n % 251 := by
  simp [Holds, channels]

/-- Every channel adds modulo its modulus (R86). -/
theorem channel_residueAdd (c : BitVec 40) (v : Int) :
    ∀ e ∈ channels, (channel (residueAdd c v) e.2.1 e.2.2 : Int) = (channel c e.2.1 e.2.2 + v) % (e.1 : Int) := by
  have sum (x m : Nat) (pos : 0 < m) : ((((x : Int) + v % m).toNat % m : Nat) : Int) = (x + v) % m := by
    have := Int.emod_nonneg v (b := m) (by omega)
    rw [Int.natCast_mod, Int.toNat_of_nonneg (by omega), Int.add_emod_emod]
  have lt (x m : Nat) (pos : 0 < m) : x % m < m := Nat.mod_lt x pos
  obtain ⟨p, q, r, t⟩ := channel_cellOf (lt ((channel c 0 8 : Int) + v % 255).toNat 255 (by decide) |>.trans (by decide))
    (lt ((channel c 8 8 : Int) + v % 256).toNat 256 (by decide))
    (lt ((channel c 16 9 : Int) + v % 257).toNat 257 (by decide) |>.trans (by decide))
    (lt ((channel c 25 8 : Int) + v % 251).toNat 251 (by decide) |>.trans (by decide))
  simp only [channels, List.forall_mem_cons]
  exact ⟨(congrArg _ p).trans (sum _ 255 (by decide)), (congrArg _ q).trans (sum _ 256 (by decide)),
    (congrArg _ r).trans (sum _ 257 (by decide)), (congrArg _ t).trans (sum _ 251 (by decide)), by simp⟩

theorem holds_residueAdd {c : BitVec 40} {n : Int} (h : Holds c n) (v : Int) : Holds (residueAdd c v) (n + v) := by
  intro e he
  rw [channel_residueAdd c v e he, h e he, Int.emod_add_emod]

theorem holds_foldl {c : BitVec 40} {n : Int} (h : Holds c n) (vs : List Int) :
    Holds (vs.foldl residueAdd c) (vs.foldl (· + ·) n) := by
  induction vs generalizing c n with
  | nil => exact h
  | cons v vs ih => exact ih (holds_residueAdd h v)

theorem centred_mod {x : Int} (low : -8388480 ≤ x) (high : x ≤ 8388479) :
    (if 8388480 ≤ x % 16776960 then x % 16776960 - 16776960 else x % 16776960) = x := by
  split <;> omega

theorem residue_differs {n : Int} {t : Nat} (x : Int) (h : (t : Int) = n % 251) :
    (x % 251).toNat ≠ t % 251 ↔ (n - x) % 251 ≠ 0 := by
  omega

/-- CRTDecode of a cell (R87): the number of its first three channels in the range of R87, and whether the fourth differs. -/
theorem crtDecode_holds {c : BitVec 40} {n x : Int} (h : Holds c n) (low : -8388480 ≤ x) (high : x ≤ 8388479)
    (same : (n - x) % 16776960 = 0) : crtDecode c = (x, decide ((n - x) % 251 ≠ 0)) := by
  obtain ⟨p, q, r, t⟩ := (holds_iff c n).1 h
  obtain ⟨k, rfl⟩ : ∃ k, n = x + 16776960 * k := ⟨(n - x) / 16776960, by omega⟩
  have parts (m : Int) : ∃ i, x % m = x - m * i := ⟨x / m, Int.emod_def x m⟩
  have residue (m : Int) (h : (16776960 : Int) % m = 0) : (x + 16776960 * k) % m = x % m := by
    rw [Int.add_emod, Int.mul_emod, h, zero_mul, Int.zero_emod, add_zero, Int.emod_emod]
  rw [residue 255 (by decide)] at p
  rw [residue 256 (by decide)] at q
  rw [residue 257 (by decide)] at r
  have value : (((channel c 0 8 * 8421376 + channel c 8 8 * 16711425 + channel c 16 9 * 8421120) % 16776960 : Nat) : Int) =
      x % 16776960 := by
    obtain ⟨i, hi⟩ := parts 255
    obtain ⟨j, hj⟩ := parts 256
    obtain ⟨l, hl⟩ := parts 257
    push_cast
    rw [p, q, r, hi, hj, hl, Int.emod_eq_emod_iff_emod_sub_eq_zero]
    exact Int.emod_eq_zero_of_dvd ⟨2 * x - 128 * i - 255 * j - 129 * l, by ring⟩
  simp only [crtDecode, value, centred_mod low high, ← residue_differs x t, Prod.mk.injEq, true_and]
  rw [Bool.eq_iff_iff, bne_iff_ne, decide_eq_true_iff]

/-- Settles O17: every channel holds the sum modulo its modulus, and the moduli have no common factor. -/
theorem residueCellsAreExact : Obligations.ResidueCellsAreExact := by
  intro vs cell
  have holds : Holds cell (total vs) := holds_foldl ((holds_iff 0 0).2 (by decide)) vs
  refine ⟨fun low high => ?_, fun k nonzero kl kh low high => ?_⟩
  · rw [crtDecode_holds holds low high (by omega)]
    simp
  · rw [crtDecode_holds holds low high (by omega), decide_eq_true (by omega)]

end Sys2Proof.Formats
end

-- Proofs of the statement on special operands (spec/04_number_formats.md)
section
/-! SUPPORT. What NaNs, infinities, zeros and ordinary codes read as, the order of codes, and the lane instructions as their values and
flags. -/

namespace Sys2Proof.Formats

open Sys2Proof Sys2Proof.Machine Sys2Proof.Says Sys2Proof.Laws Sys2Proof.LaneState

/-! ### NaNs, infinities and zeros (R71, R73) -/

section
variable {f : Fmt} {x y : Nat}

theorem flushed_large (z : Bool) (h : 2 ^ f.fb ≤ magnitude f x) : flushed f z x = x := by
  simp [flushed, not_lt.2 h]

theorem magnitude_flushed_zero {z : Bool} (hx : x < 2 ^ f.width) (h : magnitude f (flushed f z x) = 0) :
    flushed f z x = f.signed (negative f x) 0 := by
  obtain same | ⟨-, -, flush⟩ := flushed_cases f z x
  · rw [same] at h ⊢
    rw [← h, signed_magnitude hx]
  · exact flush

theorem flushed_of_magnitude_ne_zero {z : Bool} (h : magnitude f (flushed f z x) ≠ 0) : flushed f z x = x := by
  obtain same | ⟨-, -, flush⟩ := flushed_cases f z x
  · exact same
  · exact absurd (flush ▸ magnitude_zero_code f _) h

theorem operand_nan (std : Standard f) (z : Bool) (h : isNaN f x = true) : operand f z x = .nan (isSNaN f x) := by
  have above : f.infBits < magnitude f x := of_decide_eq_true h
  have := unit_le_infBits std
  rw [operand_eq std, flushed_large z (by omega), decF_eq std, if_pos above.le, if_neg above.ne']
  simp [isSNaN, h]

theorem operand_inf (std : Standard f) (z : Bool) (h : magnitude f x = f.infBits) : operand f z x = .inf (negative f x) := by
  have := unit_le_infBits std
  rw [operand_eq std, flushed_large z (by omega), decF_eq std, if_pos h.ge, if_pos h]

theorem operand_zero (std : Standard f) {z : Bool} (h : magnitude f (flushed f z x) = 0) :
    operand f z x = .zero (negative f x) := by
  have unit : 0 < 2 ^ f.fb := by positivity
  have := unit_le_infBits std
  rw [operand_eq std, decF_eq std, h, if_neg (by omega), if_pos unit, if_pos rfl, negative_flushed]

/-- A finite code that is not flushed to a zero has a significand. -/
theorem operand_fin (std : Standard f) {z : Bool} (h : finite f x = true) (nonzero : magnitude f (flushed f z x) ≠ 0) :
    ∃ m e sub, m ≠ 0 ∧ operand f z x = .fin (negative f x) m e sub := by
  have below : ¬ f.infBits ≤ magnitude f x := not_le.2 (of_decide_eq_true h)
  rw [operand_eq std, flushed_of_magnitude_ne_zero nonzero, decF_eq std, if_neg below]
  rw [flushed_of_magnitude_ne_zero nonzero] at nonzero
  split
  · exact ⟨_, _, _, nonzero, rfl⟩
  · exact ⟨_, _, _, by simp, rfl⟩

/-- A code is a NaN, an infinity or finite. -/
theorem code_kinds (f : Fmt) (x : Nat) : isNaN f x = true ∨ magnitude f x = f.infBits ∨ finite f x = true := by
  obtain lt | eq | gt := lt_trichotomy (magnitude f x) f.infBits
  · exact .inr (.inr (decide_eq_true lt))
  · exact .inr (.inl eq)
  · exact .inl (decide_eq_true gt)

/-- What a code reads as, after FlushIn. -/
theorem operand_cases (std : Standard f) (z : Bool) (x : Nat) :
    (isNaN f x = true ∧ operand f z x = .nan (isSNaN f x)) ∨
    (magnitude f x = f.infBits ∧ operand f z x = .inf (negative f x)) ∨
    (finite f x = true ∧ magnitude f (flushed f z x) = 0 ∧ operand f z x = .zero (negative f x)) ∨
    (finite f x = true ∧ magnitude f (flushed f z x) ≠ 0 ∧ ∃ m e sub, m ≠ 0 ∧ operand f z x = .fin (negative f x) m e sub) := by
  obtain nan | inf | fin := code_kinds f x
  · exact .inl ⟨nan, operand_nan std z nan⟩
  · exact .inr (.inl ⟨inf, operand_inf std z inf⟩)
  · by_cases zero : magnitude f (flushed f z x) = 0
    · exact .inr (.inr (.inl ⟨fin, zero, operand_zero std zero⟩))
    · exact .inr (.inr (.inr ⟨fin, zero, operand_fin std fin zero⟩))

theorem operand_is_zero (std : Standard f) {z s : Bool} (h : operand f z x = .zero s) : magnitude f (flushed f z x) = 0 := by
  obtain ⟨-, v⟩ | ⟨-, v⟩ | ⟨-, zero, -⟩ | ⟨-, -, m, e, sub, -, v⟩ := operand_cases std z x
  · rw [v] at h; cases h
  · rw [v] at h; cases h
  · exact zero
  · rw [v] at h; cases h

theorem operand_is_inf (std : Standard f) {z s : Bool} (h : operand f z x = .inf s) : magnitude f x = f.infBits := by
  obtain ⟨-, v⟩ | ⟨inf, -⟩ | ⟨-, -, v⟩ | ⟨-, -, m, e, sub, -, v⟩ := operand_cases std z x
  · rw [v] at h; cases h
  · exact inf
  · rw [v] at h; cases h
  · rw [v] at h; cases h

theorem not_isNaN_of_le (h : magnitude f x ≤ f.infBits) : isNaN f x = false := decide_eq_false (not_lt.2 h)

theorem not_isSNaN (h : isNaN f x = false) : isSNaN f x = false := by simp [isSNaN, h]

theorem operand_flags (std : Standard f) (z : Bool) (x : Nat) :
    (operand f z x).isNaN = isNaN f x ∧ (operand f z x).isSNaN = isSNaN f x := by
  obtain nan | inf | fin := code_kinds f x
  · rw [operand_nan std z nan, nan]
    exact ⟨rfl, rfl⟩
  · have := not_isNaN_of_le inf.le
    rw [operand_inf std z inf, this, not_isSNaN this]
    exact ⟨rfl, rfl⟩
  · have := not_isNaN_of_le (of_decide_eq_true fin).le
    obtain ⟨real, -, -⟩ := operand_real std z fin
    rw [this, not_isSNaN this]
    generalize operand f z x = v at real
    cases v with
    | nan _ | inf _ => exact real.elim
    | zero _ | fin _ _ _ _ => exact ⟨rfl, rfl⟩

end

/-! ### Arithmetic on special operands (R73, R212) -/

/-- 0 × ∞ in either order. -/
def InvalidProduct (a b : FVal) : Prop := (∃ s s', a = .zero s ∧ b = .inf s') ∨ ∃ s s', a = .inf s ∧ b = .zero s'

theorem fFma_invalid (rm : BitVec 2) {a b : FVal} (c : FVal) (h : InvalidProduct a b) : fFma rm a b c = .nan true := by
  obtain ⟨s, s', rfl, rfl⟩ | ⟨s, s', rfl, rfl⟩ := h <;> rfl

theorem fMul_invalid {a b : FVal} (h : InvalidProduct a b) : fMul a b = .nan true := by
  obtain ⟨s, s', rfl, rfl⟩ | ⟨s, s', rfl, rfl⟩ := h <;> rfl

theorem fFma_nan (rm : BitVec 2) {a b c : FVal} (valid : ¬ InvalidProduct a b) (h : (a.isNaN || b.isNaN || c.isNaN) = true) :
    fFma rm a b c = .nan (a.isSNaN || b.isSNaN || c.isSNaN) := by
  cases a with
  | zero s =>
    cases b with
    | inf s' => exact absurd (.inl ⟨_, _, rfl, rfl⟩) valid
    | nan _ | zero _ | fin _ _ _ _ => simp only [fFma, h, Bool.false_eq_true, if_false, if_true]
  | inf s =>
    cases b with
    | zero s' => exact absurd (.inr ⟨_, _, rfl, rfl⟩) valid
    | nan _ | inf _ | fin _ _ _ _ => simp only [fFma, h, Bool.false_eq_true, if_false, if_true]
  | nan _ | fin _ _ _ _ => simp only [fFma, h, Bool.false_eq_true, if_false, if_true]

section
variable {f : Fmt} (std : Standard f) (rm : BitVec 2) (z : Bool) {x y : Nat}
include std

theorem arith2_nan (h : isNaN f x = true ∨ isNaN f y = true) {op : Nat} (hop : op < 3) :
    arith2 f z rm op x y = (f.canon, if isSNaN f x || isSNaN f y then flNV else 0) := by
  obtain ⟨nx, sx⟩ := operand_flags std z x
  obtain ⟨ny, sy⟩ := operand_flags std z y
  have any : ((operand f z x).isNaN || (operand f z y).isNaN) = true := by rw [nx, ny]; simpa using h
  have neg (v : FVal) : v.neg.isNaN = v.isNaN ∧ v.neg.isSNaN = v.isSNaN := by cases v <;> exact ⟨rfl, rfl⟩
  obtain rfl | rfl | rfl : op = 0 ∨ op = 1 ∨ op = 2 := by omega
  · simp only [arith2, fAdd, any, sx, sy, if_true, deliver]
  · simp only [arith2, fSub, fAdd, neg, any, sx, sy, if_true, deliver]
  · simp only [arith2, fMul, any, sx, sy, if_true, deliver]

theorem arith3_nan {w : Nat} (h : isNaN f x = true ∨ isNaN f y = true ∨ isNaN f w = true)
    (valid : ¬ InvalidProduct (operand f z x) (operand f z y)) :
    arith3 f z rm x y w = (f.canon, if isSNaN f x || isSNaN f y || isSNaN f w then flNV else 0) := by
  obtain ⟨nx, sx⟩ := operand_flags std z x
  obtain ⟨ny, sy⟩ := operand_flags std z y
  obtain ⟨nw, sw⟩ := operand_flags std z w
  rw [arith3, fFma_nan rm valid (by rw [nx, ny, nw]; simpa [or_assoc] using h), sx, sy, sw]
  rfl

/-- Which codes make 0 × ∞. -/
theorem invalidProduct_iff : InvalidProduct (operand f z x) (operand f z y) ↔
    (magnitude f (flushed f z x) = 0 ∧ magnitude f y = f.infBits) ∨ (magnitude f x = f.infBits ∧ magnitude f (flushed f z y) = 0) := by
  constructor
  · rintro (⟨_, _, zero, inf⟩ | ⟨_, _, inf, zero⟩)
    · exact .inl ⟨operand_is_zero std zero, operand_is_inf std inf⟩
    · exact .inr ⟨operand_is_inf std inf, operand_is_zero std zero⟩
  · rintro (⟨zero, inf⟩ | ⟨inf, zero⟩)
    · exact .inl ⟨_, _, operand_zero std zero, operand_inf std z inf⟩
    · exact .inr ⟨_, _, operand_inf std z inf, operand_zero std zero⟩

end

/-! ### The order of codes (R203, R213) -/

theorem codeValue_zero (f : Fmt) : codeValue f 0 = 0 := by simp [codeValue]

theorem codeValue_strictMono (f : Fmt) : StrictMono (codeValue f) := by
  refine strictMono_nat_of_lt_succ fun c => ?_
  have unit : 0 < 2 ^ f.fb := by positivity
  have two : 2 ^ (f.fb + 1) = 2 * 2 ^ f.fb := Nat.pow_succ'
  obtain ⟨j, n, rfl, full, top⟩ : ∃ j n, c = j * 2 ^ f.fb + n ∧ (j = 0 ∨ 2 ^ f.fb ≤ n) ∧ n < 2 ^ (f.fb + 1) := by
    by_cases low : c < 2 ^ f.fb
    · exact ⟨0, c, by simp, .inl rfl, by omega⟩
    · have parts := Nat.div_add_mod' c (2 ^ f.fb)
      have rest := Nat.mod_lt c unit
      obtain ⟨j, hj⟩ : ∃ j, c / 2 ^ f.fb = j + 1 := ⟨c / 2 ^ f.fb - 1, by have := Nat.div_pos (not_lt.1 low) unit; omega⟩
      rw [hj, Nat.add_mul, Nat.one_mul] at parts
      exact ⟨j, 2 ^ f.fb + c % 2 ^ f.fb, by omega, .inr (by omega), by omega⟩
  rw [codeValue_units f full top.le, Nat.add_assoc, codeValue_units f (by omega) (by omega)]
  have : (0 : ℚ) < 2 ^ (f.emin + j - f.fb) := by positivity
  push_cast
  linarith

/-- The value of a signed magnitude. -/
def orderValue (f : Fmt) (k : ℤ) : ℚ := k.sign * codeValue f k.natAbs

theorem orderValue_strictMono (f : Fmt) : StrictMono (orderValue f) := by
  refine strictMono_of_odd_strictMonoOn_nonneg (fun k => by simp [orderValue]) fun a ha b hb less => ?_
  have nat {k : ℤ} (h : 0 ≤ k) : orderValue f k = codeValue f k.natAbs := by
    obtain rfl | pos := h.eq_or_lt
    · simp [orderValue, codeValue_zero]
    · simp [orderValue, Int.sign_eq_one_of_pos pos]
  have ha : 0 ≤ a := ha
  have hb : 0 ≤ b := hb
  rw [nat ha, nat hb]
  exact codeValue_strictMono f (by omega)

theorem real_eq_orderValue (f : Fmt) (x : Nat) : real f x = orderValue f (order f x) := by
  obtain zero | pos := Nat.eq_zero_or_pos (magnitude f x)
  · simp [real_eq, order, orderValue, zero, codeValue_zero]
  · have : (magnitude f x : ℤ).sign = 1 := Int.sign_eq_one_of_pos (by omega)
    cases s : negative f x <;> simp [real_eq, order, orderValue, s, signOf, this]

theorem compare_strictMono {α β : Type} [LinearOrder α] [LinearOrder β] {g : α → β} (mono : StrictMono g) (a b : α) :
    compare (g a) (g b) = compare a b := by
  rw [← cmp_eq_compare, ← cmp_eq_compare, mono.cmp_map_eq]

theorem compare_pos {x : ℚ} (h : 0 < x) : compare 0 x = .lt ∧ compare x 0 = .gt ∧ compare 0 (-x) = .gt ∧ compare (-x) 0 = .lt := by
  simp only [compare_lt_iff_lt, compare_gt_iff_gt]
  refine ⟨h, h, ?_, ?_⟩ <;> linarith

/-- Finite numbers compare as their values. -/
theorem cmp_real {a b : FVal} (ha : isReal a) (hb : isReal b) : a.cmp b = compare (valueOf a) (valueOf b) := by
  have size {m : Nat} (e : ℤ) (h : m ≠ 0) : (0 : ℚ) < m * 2 ^ e := by
    have : (0 : ℚ) < m := by exact_mod_cast Nat.pos_of_ne_zero h
    positivity
  cases a with
  | nan _ | inf _ => exact ha.elim
  | zero s =>
    cases b with
    | nan _ | inf _ => exact hb.elim
    | zero s' => simp [FVal.cmp]
    | fin s' m e sub =>
      obtain ⟨lt, -, gt, -⟩ := compare_pos (size e hb)
      cases s' <;> simp [FVal.cmp, valueOf_fin, signOf, lt, gt]
  | fin s m e sub =>
    cases b with
    | nan _ | inf _ => exact hb.elim
    | zero s' =>
      obtain ⟨-, gt, -, lt⟩ := compare_pos (size e ha)
      cases s <;> simp [FVal.cmp, valueOf_fin, signOf, lt, gt]
    | fin s' m' e' sub' =>
      have unit : (0 : ℚ) < 2 ^ min e e' := by positivity
      have mono : StrictMono (fun k : ℤ => (k : ℚ) * 2 ^ min e e') := fun i j less => by
        have : (i : ℚ) < j := by exact_mod_cast less
        exact mul_lt_mul_of_pos_right this unit
      rw [valueOf_fin, valueOf_fin, ← scaled_value s m (min_le_left e e'), ← scaled_value s' m' (min_le_right e e')]
      exact (compare_strictMono mono _ _).symm

theorem order_flushed_inf {f : Fmt} (std : Standard f) (z : Bool) {x : Nat} (h : magnitude f x = f.infBits) :
    order f (flushed f z x) = if negative f x then -(f.infBits : ℤ) else f.infBits := by
  have := unit_le_infBits std
  rw [flushed_large z (by omega), order, h]

theorem order_finite {f : Fmt} {x : Nat} (h : finite f x = true) : -(f.infBits : ℤ) < order f x ∧ order f x < f.infBits := by
  have : magnitude f x < f.infBits := of_decide_eq_true h
  rw [order]
  split <;> omega

theorem cmp_inf_inf {k : ℤ} (h : 0 < k) (s s' : Bool) :
    FVal.cmp (.inf s) (.inf s') = compare (if s then -k else k) (if s' then -k else k) := by
  have lt : compare (-k) k = .lt := compare_lt_iff_lt.2 (by omega)
  have gt : compare k (-k) = .gt := compare_gt_iff_gt.2 (by omega)
  cases s <;> cases s' <;> simp [FVal.cmp, lt, gt]

theorem cmp_inf_real (s : Bool) {v : FVal} (h : isReal v) : FVal.cmp (.inf s) v = if s then .lt else .gt := by
  cases v with
  | nan _ | inf _ => exact h.elim
  | zero _ | fin _ _ _ _ => rfl

theorem cmp_real_inf (s : Bool) {v : FVal} (h : isReal v) : v.cmp (.inf s) = if s then .gt else .lt := by
  cases v with
  | nan _ | inf _ => exact h.elim
  | zero _ | fin _ _ _ _ => rfl

/-- Codes of numbers compare as their signed magnitudes. -/
theorem operand_cmp {f : Fmt} (std : Standard f) (z : Bool) {x y : Nat} (hx : isNaN f x = false) (hy : isNaN f y = false) :
    (operand f z x).cmp (operand f z y) = compare (order f (flushed f z x)) (order f (flushed f z y)) := by
  have large : 0 < f.infBits := (by positivity : 0 < 2 ^ f.fb).trans_le (unit_le_infBits std)
  have far {k : ℤ} (h : -(f.infBits : ℤ) < k ∧ k < f.infBits) (s : Bool) :
      compare (if s then -(f.infBits : ℤ) else f.infBits) k = (if s then .lt else .gt) ∧
        compare k (if s then -(f.infBits : ℤ) else f.infBits) = (if s then .gt else .lt) := by
    obtain ⟨low, high⟩ := h
    cases s <;> simp [compare_lt_iff_lt, compare_gt_iff_gt, low, high]
  obtain nan | infx | finx := code_kinds f x
  · simp [hx] at nan
  · rw [operand_inf std z infx, order_flushed_inf std z infx]
    obtain nan | infy | finy := code_kinds f y
    · simp [hy] at nan
    · rw [operand_inf std z infy, order_flushed_inf std z infy]
      exact cmp_inf_inf (by exact_mod_cast large) _ _
    · obtain ⟨real, -, -⟩ := operand_real std z finy
      rw [(far (order_finite (finite_flushed std z finy)) _).1, cmp_inf_real _ real]
  obtain nan | infy | finy := code_kinds f y
  · simp [hy] at nan
  · obtain ⟨real, -, -⟩ := operand_real std z finx
    rw [operand_inf std z infy, order_flushed_inf std z infy, (far (order_finite (finite_flushed std z finx)) _).2,
      cmp_real_inf _ real]
  obtain ⟨rx, vx, -⟩ := operand_real std z finx
  obtain ⟨ry, vy, -⟩ := operand_real std z finy
  rw [cmp_real rx ry, vx, vy, real_eq_orderValue, real_eq_orderValue, compare_strictMono (orderValue_strictMono f)]

/-! ### FMIN, FMAX and FCLASS (R213, R215) -/

/-- The code that a value of a code stands for: a zero's is that of its sign (R71). -/
def codeOf (f : Fmt) (v : FVal) (c : Nat) : Nat :=
  match v with
  | .zero s => f.signed s 0
  | _ => c

theorem codeOf_operand {f : Fmt} (std : Standard f) (z : Bool) {x : Nat} (hx : x < 2 ^ f.width) :
    codeOf f (operand f z x) x = flushed f z x := by
  have unit := unit_le_infBits std
  obtain ⟨nan, v⟩ | ⟨inf, v⟩ | ⟨-, zero, v⟩ | ⟨-, nonzero, m, e, sub, -, v⟩ := operand_cases std z x <;> rw [v]
  · have : f.infBits < magnitude f x := of_decide_eq_true nan
    change x = _
    rw [flushed_large z (by omega)]
  · change x = _
    rw [flushed_large z (by omega)]
  · exact (magnitude_flushed_zero hx zero).symm
  · exact (flushed_of_magnitude_ne_zero nonzero).symm

/-- The order of values in which −0 stands below +0 (R213). -/
def belowOf (a b : FVal) : Bool :=
  match a.cmp b with
  | .lt => true
  | .gt => false
  | .eq => a.sign

theorem fMinMax_eq (f : Fmt) (z mx : Bool) (x y : Nat) :
    fMinMax f z mx x y =
      (if (operand f z x).isNaN && (operand f z y).isNaN then f.canon
       else if (operand f z x).isNaN then codeOf f (operand f z y) y
       else if (operand f z y).isNaN then codeOf f (operand f z x) x
       else if (operand f z x).cmp (operand f z y) == .eq && (operand f z x).sign == (operand f z y).sign then
         codeOf f (operand f z x) x
       else if belowOf (operand f z x) (operand f z y) != mx then codeOf f (operand f z x) x
       else codeOf f (operand f z y) y,
       if (operand f z x).isSNaN || (operand f z y).isSNaN then flNV else 0) := rfl

theorem operand_sign {f : Fmt} (std : Standard f) (z : Bool) {x : Nat} (hx : isNaN f x = false) :
    (operand f z x).sign = negative f x := by
  obtain ⟨nan, v⟩ | ⟨inf, v⟩ | ⟨-, zero, v⟩ | ⟨-, nonzero, m, e, sub, -, v⟩ := operand_cases std z x
  · simp [hx] at nan
  all_goals rw [v]; rfl

theorem rank_lt_of_order_lt {f : Fmt} {x y : Nat} (h : order f x < order f y) : rank f x < rank f y := by
  simp only [order, rank] at h ⊢
  split at h <;> split at h <;> simp_all <;> omega

/-- Codes of one order are codes of one rank, or the two zeros. -/
theorem rank_of_order_eq {f : Fmt} {x y : Nat} (h : order f x = order f y) :
    (rank f x = rank f y ∧ negative f x = negative f y) ∨ (rank f x < rank f y ∧ negative f x = true ∧ negative f y = false) ∨
      (rank f y < rank f x ∧ negative f x = false ∧ negative f y = true) := by
  simp only [order, rank] at h ⊢
  cases hx : negative f x <;> cases hy : negative f y <;> simp [hx, hy] at h ⊢ <;> omega

/-- `belowOf` is the order of ranks, apart from codes of one rank. -/
theorem rank_le_iff {f : Fmt} (std : Standard f) (z : Bool) {x y : Nat} (hx : isNaN f x = false) (hy : isNaN f y = false) :
    let a := operand f z x
    let b := operand f z y
    if a.cmp b == .eq && a.sign == b.sign then rank f (flushed f z x) = rank f (flushed f z y)
    else if belowOf a b = true then rank f (flushed f z x) < rank f (flushed f z y)
    else rank f (flushed f z y) < rank f (flushed f z x) := by
  intro a b
  have cmp := operand_cmp std z hx hy
  have sa : a.sign = negative f (flushed f z x) := by rw [negative_flushed]; exact operand_sign std z hx
  have sb : b.sign = negative f (flushed f z y) := by rw [negative_flushed]; exact operand_sign std z hy
  rw [belowOf, sa, sb, cmp]
  obtain lt | eq | gt := lt_trichotomy (order f (flushed f z x)) (order f (flushed f z y))
  · rw [compare_lt_iff_lt.2 lt]
    exact rank_lt_of_order_lt lt
  · rw [compare_eq_iff_eq.2 eq]
    obtain ⟨rank_eq, same⟩ | ⟨rank_lt, neg, pos⟩ | ⟨rank_lt, pos, neg⟩ := rank_of_order_eq eq
    · simp [rank_eq, same]
    · simp [neg, pos, rank_lt]
    · simp [neg, pos, rank_lt]
  · rw [compare_gt_iff_gt.2 gt]
    exact rank_lt_of_order_lt gt

theorem fMinMax_rank {f : Fmt} (std : Standard f) (z mx : Bool) {x y : Nat} (hx : x < 2 ^ f.width) (hy : y < 2 ^ f.width) :
    fMinMax f z mx x y =
      (if isNaN f x && isNaN f y then f.canon else if isNaN f x then flushed f z y else if isNaN f y then flushed f z x
        else if (if mx then rank f (flushed f z y) ≤ rank f (flushed f z x) else rank f (flushed f z x) ≤ rank f (flushed f z y))
          then flushed f z x else flushed f z y,
        if isSNaN f x || isSNaN f y then flNV else 0) := by
  obtain ⟨nx, sx⟩ := operand_flags std z x
  obtain ⟨ny, sy⟩ := operand_flags std z y
  rw [fMinMax_eq, nx, ny, sx, sy, codeOf_operand std z hx, codeOf_operand std z hy]
  congr 1
  cases hnx : isNaN f x
  · cases hny : isNaN f y
    · have ranks := rank_le_iff std z hnx hny
      simp only [Bool.false_and, Bool.false_eq_true, if_false]
      dsimp only at ranks
      split at ranks
      next same =>
        rw [if_pos same, if_pos (by split <;> omega)]
      next differ =>
        rw [if_neg differ]
        split at ranks
        next below => cases mx <;> simp [below, ranks.le, ranks.not_ge]
        next above => cases mx <;> simp [above, ranks.le, ranks.not_ge]
    · simp
  · simp

theorem fClass_eq {f : Fmt} (std : Standard f) (x : Nat) : fClass f x = 2 ^ classBit f x := by
  have := unit_le_infBits std
  rw [fClass, decF_eq std]
  simp only [classBit, isSNaN]
  by_cases low : f.infBits ≤ magnitude f x
  · by_cases inf : magnitude f x = f.infBits
    · have : isNaN f x = false := not_isNaN_of_le inf.le
      cases negative f x <;> simp [inf, this]
    · have : isNaN f x = true := decide_eq_true (by omega)
      by_cases quiet : x.testBit (f.fb - 1) = true <;> simp [this, inf, low, quiet]
  · have number : isNaN f x = false := not_isNaN_of_le (by omega)
    have finite : magnitude f x ≠ f.infBits := by omega
    by_cases zero : magnitude f x = 0
    · have : f.infBits ≠ 0 := fun h => low (h ▸ Nat.zero_le _)
      cases negative f x <;> simp [zero, this, this.symm, number]
    · by_cases sub : magnitude f x < 2 ^ f.fb
      · cases negative f x <;> simp [low, number, finite, zero, sub]
      · cases negative f x <;> simp [low, number, finite, zero, sub]

/-! ### FCMP (R203) -/

/-- The verdict of a condition on the order of two numbers. -/
def verdict (o : Ordering) (cond : Nat) : Bool :=
  match cond with
  | 0 => o == .eq
  | 1 => o != .eq
  | 2 => o == .lt
  | 3 => o != .gt
  | 4 => o == .gt
  | 5 => o != .lt
  | 6 => false
  | _ => true

theorem fCompare_eq (f : Fmt) (z : Bool) (cond x y : Nat) :
    fCompare f z cond x y =
      (if (operand f z x).isNaN || (operand f z y).isNaN then cond == 1 || cond == 6
       else verdict ((operand f z x).cmp (operand f z y)) cond,
       if (if 2 ≤ cond && cond ≤ 5 then (operand f z x).isNaN || (operand f z y).isNaN
           else (operand f z x).isSNaN || (operand f z y).isSNaN) then flNV else 0) := rfl

theorem verdict_compare (a b : ℤ) (cond : BitVec 3) :
    verdict (compare a b) cond.toNat = decide ((cond.toNat = 0 ∧ a = b) ∨ (cond.toNat = 1 ∧ a ≠ b) ∨ (cond.toNat = 2 ∧ a < b) ∨
      (cond.toNat = 3 ∧ a ≤ b) ∨ (cond.toNat = 4 ∧ b < a) ∨ (cond.toNat = 5 ∧ b ≤ a) ∨ cond.toNat = 7) := by
  obtain lt | eq | gt := lt_trichotomy a b
  · simp only [compare_lt_iff_lt.2 lt, lt, lt.ne, lt.le, lt.not_gt, lt.not_ge, ne_eq]
    revert cond
    decide
  · rw [compare_eq_iff_eq.2 eq]
    simp only [eq, le_refl, lt_irrefl, ne_eq]
    revert cond
    decide
  · simp only [compare_gt_iff_gt.2 gt, gt, gt.ne', gt.le, gt.not_gt, gt.not_ge, ne_eq]
    revert cond
    decide

theorem fCompare_order {f : Fmt} (std : Standard f) (z : Bool) (cond : BitVec 3) (x y : Nat) :
    let u := isNaN f x || isNaN f y
    let a := order f (flushed f z x)
    let b := order f (flushed f z y)
    let is := fun (n : Nat) => cond.toNat = n
    fCompare f z cond.toNat x y =
      (if u then decide (is 1 ∨ is 6)
       else decide ((is 0 ∧ a = b) ∨ (is 1 ∧ a ≠ b) ∨ (is 2 ∧ a < b) ∨ (is 3 ∧ a ≤ b) ∨ (is 4 ∧ b < a) ∨ (is 5 ∧ b ≤ a) ∨ is 7),
       if (if 2 ≤ cond.toNat ∧ cond.toNat ≤ 5 then u else isSNaN f x || isSNaN f y) then flNV else 0) := by
  intro u a b is
  obtain ⟨nx, sx⟩ := operand_flags std z x
  obtain ⟨ny, sy⟩ := operand_flags std z y
  rw [fCompare_eq, nx, ny, sx, sy]
  have un : (isNaN f x || isNaN f y) = u := rfl
  rw [un]
  congr 1
  · cases hu : u
    · rw [← un, Bool.or_eq_false_iff] at hu
      rw [operand_cmp std z hu.1 hu.2]
      exact verdict_compare a b cond
    · simp [is, Bool.decide_or, beq_eq_decide]
  · simp

/-! ### Lane instructions -/

/-- A lane instruction does what `Lanewise` says of the values and flags that it computes (R125, R163, R187, R209). -/
theorem laneOp_lanewise {i : Instr} {t : Tail} {lat : Nat} {d : Dst} {words : Nat} {ws : List Want}
    {f : Ctx → List (Lanes 64) → Nat → BitVec 64 × BitVec 5} {val : Ctx → List (Lanes 64) → Nat → BitVec 64}
    {flags : Ctx → List (Lanes 64) → Nat → BitVec 5} (runs : ∀ s, exec i s = laneOp t s lat d words ws f)
    (computes : ∀ c v l, f c v l = (val c v l, flags c v l)) : Lanewise i t lat d words ws val flags := by
  intro s c issues
  have body := issue_of issues (fun c s =>
    match c.read s ws with
    | .error r => r
    | .ok rd =>
      let rs := laneNums.map (f c rd.v)
      (c.deliver rd.s lat d words (rs.map (·.1)) (rs.map (·.2)) rd.p6).backTo s)
  have run : exec i s = _ := (runs s).trans body
  refine ⟨fun e stop => ?_, fun rd read => ⟨fun room => ?_, ?_⟩⟩
  · rw [run, stop]
  · have vals : (fun l => (f c rd.v l).1) = val c rd.v := funext fun l => by rw [computes]
    have fls : (fun l => (f c rd.v l).2) = flags c rd.v := funext fun l => by rw [computes]
    rw [runs, laneOp_of issues read room, vals, fls]
  · rintro k nb rfl act
    have idle : (c.act == 0) = false := by simpa using act
    refine ⟨fun unset => ?_, fun q there block full => ?_⟩
    · have unset : ((rd.s.gang? c.g).bind (fun x => x.wqs[k.toNat]?)).join = none := unset
      rw [run]
      simp only [read, Ctx.deliver, idle, Ctx.reserve, unset]
      rfl
    · have there : ((rd.s.gang? c.g).bind (fun x => x.wqs[k.toNat]?)).join = some q := there
      rw [run]
      simp only [read, Ctx.deliver, idle, Ctx.reserve, there, if_neg (not_lt.2 full), block]
      rfl

theorem arg_eq (v : List (Lanes 64)) (n l : Nat) : arg v n l = (v.getD n []).getD l 0 := getD_getD_splat v n l

theorem fcmp_predicate (t : Tail) (cond p : BitVec 3) (ty : BitVec 2) (e : Bool) (a b : Src) :
    let f := [f32, f64, f16, bf16].getD ty.toNat f32
    let word := if ty = 1 then 2 else 1
    let ck : CK := if ty.toNat < 2 then .fp f else .packed f
    let pick := fun (v : List (Lanes 64)) (k l : Nat) =>
      let x := ((v.getD k []).getD l 0).toNat
      if ty = 1 then x else if ty = 0 then x % 2 ^ 32 else x / 2 ^ (if e then 16 else 0) % 2 ^ 16
    Predicate (.fcmp t cond ty e p a b) t p [(a, ck, word), (b, ck, word)]
      (fun c v l => (fCompare f (ftz c) cond.toNat (pick v 0 l) (pick v 1 l)).1)
      (fun c v l => (fCompare f (ftz c) cond.toNat (pick v 0 l) (pick v 1 l)).2) := by
  intro f word ck pick
  have format : fcmpFmt ty = f := by revert ty; decide
  have words : (if (ty == 1) = true then 2 else 1) = word := by simp [word]
  have bits (v : List (Lanes 64)) (k l : Nat) : fcmpBits ty e (arg v k l) = pick v k l := by
    have types : ty = 0 ∨ ty = 1 ∨ ty = 2 ∨ ty = 3 := by revert ty; decide
    rw [arg_eq]
    obtain rfl | rfl | rfl | rfl := types
    · rfl
    · rfl
    · cases e <;> simp [fcmpBits, pick]
    · cases e <;> simp [fcmpBits, pick]
  refine laneOp_lanewise (f := fun c v l => let r := fCompare f (ftz c) cond.toNat (pick v 0 l) (pick v 1 l); (if r.1 then 1 else 0, r.2))
    (fun s => ?_) (fun c v l => rfl)
  change execFcmp t cond ty e p a b s = _
  simp only [execFcmp, predOp, bits, format, words]
  rfl

/-! ### Function words (R214) -/

theorem le_log2 {n k : Nat} (h : 2 ^ k ≤ n) : k ≤ Nat.log2 n :=
  (Nat.le_log2 ((Nat.two_pow_pos k).trans_le h).ne').2 h

/-- The quotient of FRCP holds more bits than any format that has it, and its rest is the sticky bit. -/
theorem rcpVal_isRound {f : Fmt} (std : Standard f) (narrow : f.fb < 69) (rm : BitVec 2) (z zs s : Bool) {m : Nat} (e : ℤ) (h : m ≠ 0) :
    IsRound f rm z (1 / (signOf s * m * 2 ^ e)) zs (deliver f rm z (rcpVal s m e)) := by
  have pos : 0 < m := Nat.pos_of_ne_zero h
  obtain ⟨k, hk⟩ : ∃ k, k = Nat.log2 m + 70 := ⟨_, rfl⟩
  have value : rcpVal s m e = .val s (2 ^ k / m) (-(k : ℤ) - e) (2 ^ k % m != 0) := by rw [hk]; rfl
  have above : m < 2 ^ (Nat.log2 m + 1) := Nat.lt_log2_self
  have bits : 2 ^ 69 ≤ 2 ^ k / m := by
    rw [Nat.le_div_iff_mul_le pos]
    calc 2 ^ 69 * m ≤ 2 ^ 69 * 2 ^ (Nat.log2 m + 1) := Nat.mul_le_mul_left _ above.le
      _ = 2 ^ k := by rw [← Nat.pow_add]; congr 1; omega
  have wide := le_log2 bits
  rw [value]
  refine roundVal_isRound std rm z zs ((Nat.two_pow_pos 69).trans_le bits)
    ⟨((2 ^ k % m : Nat) : ℚ) / m, by positivity, ?_, ?_, ?_⟩ (fun _ => narrow.trans_le wide)
  · have m0 : (0 : ℚ) < m := by exact_mod_cast pos
    rw [div_lt_one m0]
    exact_mod_cast Nat.mod_lt _ pos
  · have : (m : ℚ) ≠ 0 := by exact_mod_cast h
    rw [div_eq_zero_iff, or_iff_left this, Nat.cast_eq_zero]
    simp
  · have parts : (2 : ℚ) ^ k = m * (2 ^ k / m : Nat) + (2 ^ k % m : Nat) := by exact_mod_cast (Nat.div_add_mod (2 ^ k) m).symm
    have : (m : ℚ) ≠ 0 := by exact_mod_cast h
    have quotient : ((2 ^ k / m : Nat) : ℚ) + (2 ^ k % m : Nat) / m = 2 ^ k / m := by
      rw [parts]
      field_simp
    have power : (2 : ℚ) ^ (-(k : ℤ) - e) = (2 ^ k * 2 ^ e)⁻¹ := by
      rw [zpow_sub₀ (by norm_num), zpow_neg, zpow_natCast]
      field_simp
    rw [quotient, power]
    cases s <;> simp [signOf] <;> field_simp

section
variable {f : Fmt} (std : Standard f) (rm : BitVec 2) (z : Bool) {x : Nat}
include std

theorem fFunc_nan (h : isNaN f x = true) (n : Nat) : fFunc f rm z n x = (f.canon, if isSNaN f x then flNV else 0) := by
  have value : flushIn z f (decF f x) = .nan (isSNaN f x) := operand_nan std z h
  simp only [fFunc, value]
  rfl

theorem fFunc_zero (hx : x < 2 ^ f.width) (h : magnitude f (flushed f z x) = 0) :
    fFunc f rm z 0 x = (f.signed (negative f x) f.infBits, flDZ) ∧ fFunc f rm z 1 x = (f.signed (negative f x) f.infBits, flDZ) ∧
      fFunc f rm z 2 x = (flushed f z x, 0) ∧ fFunc f rm z 4 x = (f.signed true f.infBits, flDZ) ∧
      fFunc f rm z 5 x = (flushed f z x, 0) ∧ fFunc f rm z 6 x = deliver f rm z (.val false 1 0 false) := by
  have value : flushIn z f (decF f x) = .zero (negative f x) := operand_zero std h
  rw [magnitude_flushed_zero hx h]
  simp only [fFunc, value, true_and]

theorem fFunc_inf (x_inf : x = f.signed false f.infBits) :
    fFunc f rm z 0 x = (0, 0) ∧ fFunc f rm z 1 x = (0, 0) ∧ fFunc f rm z 2 x = (x, 0) ∧ fFunc f rm z 3 x = (x, 0) ∧
      fFunc f rm z 4 x = (x, 0) ∧ fFunc f rm z 5 x = (f.canon, flNV) ∧ fFunc f rm z 6 x = (f.canon, flNV) := by
  have value : flushIn z f (decF f x) = .inf false := by
    rw [x_inf]
    exact (operand_inf std z (magnitude_signed _ std.infBits_lt)).trans (congrArg _ (negative_signed _ std.infBits_lt))
  simp only [fFunc, value]
  rw [x_inf]
  exact ⟨rfl, rfl, rfl, rfl, rfl, rfl, rfl⟩

theorem fFunc_negative_inf (x_inf : x = f.signed true f.infBits) :
    fFunc f rm z 0 x = (f.signBit, 0) ∧ fFunc f rm z 1 x = (f.canon, flNV) ∧ fFunc f rm z 2 x = (f.canon, flNV) ∧
      fFunc f rm z 3 x = (0, 0) ∧ fFunc f rm z 4 x = (f.canon, flNV) ∧ fFunc f rm z 5 x = (f.canon, flNV) ∧
      fFunc f rm z 6 x = (f.canon, flNV) := by
  have value : flushIn z f (decF f x) = .inf true := by
    rw [x_inf]
    exact (operand_inf std z (magnitude_signed _ std.infBits_lt)).trans (congrArg _ (negative_signed _ std.infBits_lt))
  simp only [fFunc, value]
  exact ⟨rfl, rfl, rfl, rfl, rfl, rfl, rfl⟩

theorem fFunc_negative (fin : finite f x = true) (nonzero : magnitude f (flushed f z x) ≠ 0) (neg : negative f x = true) :
    fFunc f rm z 1 x = (f.canon, flNV) ∧ fFunc f rm z 2 x = (f.canon, flNV) ∧ fFunc f rm z 4 x = (f.canon, flNV) := by
  obtain ⟨m, e, sub, -, v⟩ := operand_fin std fin nonzero
  have value : flushIn z f (decF f x) = .fin true m e sub := neg ▸ v
  simp only [fFunc, value]
  exact ⟨rfl, rfl, rfl⟩

theorem fFunc_rcp (narrow : f.fb < 69) (fin : finite f x = true) (nonzero : magnitude f (flushed f z x) ≠ 0) :
    IsRound f rm z (1 / real f (flushed f z x)) (negative f x) (fFunc f rm z 0 x) := by
  obtain ⟨m, e, sub, m0, v⟩ := operand_fin std fin nonzero
  obtain ⟨-, number, -⟩ := operand_real std z fin
  have value : flushIn z f (decF f x) = .fin (negative f x) m e sub := v
  rw [← number, v, valueOf_fin]
  simp only [fFunc, value]
  exact rcpVal_isRound std narrow rm z _ _ e m0

theorem fFunc_log2_one : fFunc f rm z 4 (f.bias * 2 ^ f.fb) = (0, 0) := by
  have unit : 0 < 2 ^ f.fb := by positivity
  have bias := std.bias_pos
  have below : f.bias * 2 ^ f.fb < f.infBits := by
    rw [std.infBits]
    exact Nat.mul_lt_mul_of_pos_right (by omega) unit
  have code := below.trans std.infBits_lt
  have mag : magnitude f (f.bias * 2 ^ f.fb) = f.bias * 2 ^ f.fb := magnitude_signed false code
  have pos : negative f (f.bias * 2 ^ f.fb) = false := negative_signed false code
  have normal : 2 ^ f.fb ≤ f.bias * 2 ^ f.fb := Nat.le_mul_of_pos_left _ bias
  have value : flushIn z f (decF f (f.bias * 2 ^ f.fb)) = .fin false (2 ^ f.fb) (-f.fb) false := by
    change operand f z _ = _
    rw [operand_eq std, flushed_large z (by omega), decF_eq std, mag, pos, if_neg (by omega), if_neg (by omega), Nat.mul_mod_left,
      Nat.mul_div_cancel _ unit]
    simp
  simp only [fFunc, value]
  simp [log2Val, Nat.log2_two_pow, exactOf, deliver, Fmt.signed]

end

/-- 1 rounds to itself. -/
theorem deliver_one {f : Fmt} (hf : f ∈ [f32, f16, bf16]) (rm : BitVec 2) (z : Bool) :
    deliver f rm z (.val false 1 0 false) = (f.bias * 2 ^ f.fb, 0) := by
  simp only [List.mem_cons, List.not_mem_nil, or_false] at hf
  obtain rfl | rfl | rfl := hf <;> revert rm z <;> decide

theorem zero_times_inf {f : Fmt} (rm : BitVec 2) (z : Bool) {x y : Nat} (w : Nat)
    (h : InvalidProduct (operand f z x) (operand f z y)) :
    arith2 f z rm 2 x y = (f.canon, flNV) ∧ arith3 f z rm x y w = (f.canon, flNV) := by
  constructor
  · change deliver f rm z (fMul _ _) = _
    rw [fMul_invalid h]
    rfl
  · rw [arith3, fFma_invalid rm _ h]
    rfl

theorem fAdd_inf (rm : BitVec 2) (s s' : Bool) : fAdd rm (.inf s) (.inf s') = if s == s' then .inf s else .nan true := rfl

theorem inf_minus_inf {f : Fmt} (std : Standard f) (rm : BitVec 2) (z : Bool) {x y : Nat} (hx : magnitude f x = f.infBits)
    (hy : magnitude f y = f.infBits) :
    (negative f x ≠ negative f y → arith2 f z rm 0 x y = (f.canon, flNV)) ∧
      (negative f x = negative f y → arith2 f z rm 1 x y = (f.canon, flNV)) := by
  simp only [arith2, operand_inf std z hx, operand_inf std z hy, fSub, FVal.neg, fAdd_inf]
  constructor
  · intro differ
    rw [if_neg (by simpa using differ)]
    rfl
  · intro same
    rw [if_neg (by simp [same])]
    rfl

/-- Settles O14, from what each special code reads as and from the order of codes. -/
theorem floatSpecialOperands : Obligations.FloatSpecialOperands := by
  refine ⟨?_, ?_, ⟨?_, ?_⟩, ?_⟩
  · intro f hf rm z x y w hx hy hw nv inf zero
    have std := standard_of_mem hf
    refine ⟨?_, ?_, ?_, ?_, ?_, ?_⟩
    · intro nan op hop
      rw [arith2_nan std rm z nan hop]
      simp [nv]
    · exact fun ix iy => (inf_minus_inf std rm z ix iy).1
    · exact fun ix iy => (inf_minus_inf std rm z ix iy).2
    · exact fun zx iy => zero_times_inf rm z w ((invalidProduct_iff std z).2 (.inl ⟨zx, iy⟩))
    · exact fun ix zy => zero_times_inf rm z w ((invalidProduct_iff std z).2 (.inr ⟨ix, zy⟩))
    · intro nan first second
      rw [arith3_nan std rm z nan (fun invalid => ((invalidProduct_iff std z).1 invalid).elim first second)]
      simp [nv, or_assoc]
  · intro f hf z mx x y hx hy a b
    exact ⟨fMinMax_rank (standard_of_mem hf) z mx hx hy, fClass_eq (standard_of_mem hf) x⟩
  · exact fun t cond p ty e a b => fcmp_predicate t cond p ty e a b
  · exact fun f hf z cond x y _ _ => fCompare_order (standard_of_mem hf) z cond x y
  · intro f hf rm z x hx a fn bad one infinite neg
    have std : Standard f := standard_of_mem (List.mem_cons_of_mem _ hf)
    have narrow : f.fb < 69 := by
      simp only [List.mem_cons, List.not_mem_nil, or_false] at hf
      obtain rfl | rfl | rfl := hf <;> decide
    refine ⟨fun nan n _ => fFunc_nan std rm z nan n, fun zero => ?_, fFunc_inf std rm z, fFunc_negative_inf std rm z,
      fFunc_negative std rm z, ?_, fFunc_rcp std rm z narrow⟩
    · obtain ⟨f0, f1, f2, f4, f5, f6⟩ := fFunc_zero std rm z hx zero
      exact ⟨f0, f1, f2, f4, f5, f6.trans (deliver_one hf rm z)⟩
    · rintro rfl
      exact fFunc_log2_one std rm z

end Sys2Proof.Formats
end

-- Proofs of the statement on conversion (spec/04_number_formats.md)
section
/-! SUPPORT. What CVT reads of each source type and what it makes of a finite number for each destination type. -/

namespace Sys2Proof.Formats

open Sys2Proof Sys2Proof.Machine Sys2Proof.Says Sys2Proof.Laws Sys2Proof.LaneState

/-! ### What CVT reads (R80, R81, R217) -/

theorem valueOf_valOfInt (n : Int) : valueOf (valOfInt n) = n := by
  rw [valOfInt]
  split
  next zero => simp [zero]
  next nonzero => rw [valueOf_fin, zpow_zero, mul_one, ← signed_natAbs nonzero]

theorem signed_toInt (v : BitVec 64) : (v.extractLsb' 0 32).toInt = Says.signed 32 (v.toNat % 2 ^ 32) := by
  rw [BitVec.toInt_eq_toNat_cond, BitVec.extractLsb'_toNat, Nat.shiftRight_zero, Says.signed]
  split <;> split <;> omega

/-- The fields of an RN8 code (R79). -/
theorem rn8_fields (c : BitVec 8) : (c.extractLsb' 6 2).toNat = c.toNat / 64 ∧ (c.extractLsb' 3 3).toNat = c.toNat / 8 % 8 ∧
    (c.extractLsb' 0 3).toNat = c.toNat % 8 := by
  have := c.isLt
  simp only [BitVec.extractLsb'_toNat, Nat.shiftRight_eq_div_pow, Nat.reducePow, Nat.div_one, and_true]
  omega

theorem residue_fields {a b d : Nat} (hb : b < 8) (hd : d < 8) :
    (a * 64 + b * 8 + d) / 64 = a ∧ (a * 64 + b * 8 + d) / 8 % 8 = b ∧ (a * 64 + b * 8 + d) % 8 = d := by
  omega

/-- DecodeRN8 by the residues that a code holds (R80). -/
theorem decRN8_eq (c : BitVec 8) : decRN8 c =
    let a := c.toNat / 64
    let b := c.toNat / 8 % 8
    let d := c.toNat % 8
    if 2 < a ∨ 4 < b ∨ 6 < d then (0, flNV)
    else
      let v : Int := ((70 * a + 21 * b + 15 * d) % 105 : Nat)
      (if 52 < v then v - 105 else v, 0) := by
  obtain ⟨ha, hb, hd⟩ := rn8_fields c
  simp only [decRN8, ha, hb, hd, Bool.or_eq_true, decide_eq_true_eq, or_assoc]

theorem decRN8_rn8 {c : BitVec 8} {n : Int} (low : -52 ≤ n) (high : n ≤ 52) (h : c.toNat = rn8 n) : decRN8 c = (n, 0) := by
  obtain ⟨a, ha⟩ : ∃ a, a = (n % 3).toNat := ⟨_, rfl⟩
  obtain ⟨b, hb⟩ : ∃ b, b = (n % 5).toNat := ⟨_, rfl⟩
  obtain ⟨d, hd⟩ : ∃ d, d = (n % 7).toNat := ⟨_, rfl⟩
  have fields : c.toNat / 64 = a ∧ c.toNat / 8 % 8 = b ∧ c.toNat % 8 = d := by
    rw [h, rn8, ← ha, ← hb, ← hd]
    exact residue_fields (by omega) (by omega)
  obtain ⟨fa, fb, fd⟩ := fields
  rw [decRN8_eq]
  simp only [fa, fb, fd]
  rw [if_neg (by omega)]
  congr 1
  have value : (70 * (a : Int) + 21 * b + 15 * d) % 105 = n % 105 := by omega
  push_cast
  rw [value]
  split <;> omega

theorem decRN8_other {c : BitVec 8} (h : ∀ n : Int, -52 ≤ n → n ≤ 52 → c.toNat ≠ rn8 n) : decRN8 c = (0, flNV) := by
  rw [decRN8_eq]
  have code := c.isLt
  dsimp only
  split
  · rfl
  next valid =>
    obtain ⟨a, ha⟩ : ∃ a, a = c.toNat / 64 := ⟨_, rfl⟩
    obtain ⟨b, hb⟩ : ∃ b, b = c.toNat / 8 % 8 := ⟨_, rfl⟩
    obtain ⟨d, hd⟩ : ∃ d, d = c.toNat % 8 := ⟨_, rfl⟩
    have parts : c.toNat = a * 64 + b * 8 + d := by omega
    rw [← ha, ← hb, ← hd] at valid
    clear ha hb hd
    obtain ⟨v, hv⟩ : ∃ v : Int, v = (70 * (a : Int) + 21 * b + 15 * d) % 105 := ⟨_, rfl⟩
    obtain ⟨n, hn⟩ : ∃ n : Int, n = if 52 < v then v - 105 else v := ⟨_, rfl⟩
    obtain ⟨k, hk⟩ : ∃ k : Int, n = 70 * (a : Int) + 21 * b + 15 * d + 105 * k :=
      ⟨(n - (70 * (a : Int) + 21 * b + 15 * d)) / 105, by omega⟩
    have low : -52 ≤ n := by omega
    have high : n ≤ 52 := by omega
    clear hv hn
    refine absurd ?_ (h n low high)
    have ra : (n % 3).toNat = a := by omega
    have rb : (n % 5).toNat = b := by omega
    have rd : (n % 7).toNat = d := by omega
    rw [rn8, ra, rb, rd]
    exact parts

/-- DecodeL4 by the magnitude and the sign bit (R81). -/
theorem valueOf_decL4 (c : BitVec 4) : valueOf (decL4 c) =
    if c.toNat % 8 = 0 then 0 else (if 8 ≤ c.toNat then -1 else 1) * 2 ^ ((c.toNat % 8 : Nat) - 3 : Int) := by
  have := c.isLt
  have low : (c.extractLsb' 0 3).toNat = c.toNat % 8 := by simp
  have high : c.getLsbD 3 = decide (8 ≤ c.toNat) := by
    rw [BitVec.getLsbD, Nat.testBit_eq_decide_div_mod_eq]
    exact decide_eq_decide.2 (by omega)
  rw [decL4, low, high]
  split
  · rfl
  · simp [valueOf]

/-! ### Conversion to integers (R80, R218) -/

theorem roundInt_eq (rm : BitVec 2) (s : Bool) (m : Nat) (e : ℤ) :
    roundInt rm s m e = ((if s then -(roundedOf rm s m e false : ℤ) else roundedOf rm s m e false), restOf m e == 0) := by
  have rest : (restOf m e == 0 && !false) = (restOf m e == 0) := by simp
  simp only [roundedOf, rest]
  rfl

theorem denotes_fin (s : Bool) (m : Nat) (e : ℤ) (sub : Bool) : Denotes s m e false (valueOf (.fin s m e sub)) :=
  ⟨0, le_rfl, one_pos, by simp, by rw [valueOf_fin, add_zero]⟩

/-- The integer that a finite number rounds to, and whether it is that number. -/
theorem roundInt_value (rm : BitVec 2) (s : Bool) (m : Nat) (e : ℤ) (sub : Bool) :
    roundInt rm s m e = (toInteger rm (valueOf (.fin s m e sub)), decide ((toInteger rm (valueOf (.fin s m e sub)) : ℚ) = valueOf (.fin s m e sub))) := by
  have denotes := denotes_fin s m e sub
  have exact : decide ((toInteger rm (valueOf (.fin s m e sub)) : ℚ) = valueOf (.fin s m e sub)) = (restOf m e == 0) := by
    rw [Bool.eq_iff_iff, decide_eq_true_iff, denotes.exact_iff rm (by simp)]
    simp
  rw [exact, toInteger_denotes rm denotes (by simp), roundInt_eq]
  cases s <;> simp

theorem intConv_real (rm : BitVec 2) {lo hi : Int} (hlo : lo ≤ 0) (hhi : 0 ≤ hi) {v : FVal} (h : isReal v) :
    intConv rm lo hi v = intConverted rm lo hi (valueOf v) := by
  cases v with
  | nan _ | inf _ => exact h.elim
  | zero s =>
    have zero : toInteger rm 0 = 0 := by simpa using toInteger_intCast rm 0
    simp [intConv, intConverted, zero, hlo.not_gt, hhi.not_gt]
  | fin s m e sub =>
    simp only [intConv, intConverted, roundInt_value rm s m e sub, decide_eq_true_eq]

/-- A number has the sign of the integer that it rounds to. -/
theorem toInteger_sign (rm : BitVec 2) (s : Bool) (m : Nat) (e : ℤ) (sub : Bool) :
    (0 < toInteger rm (valueOf (.fin s m e sub)) → s = false) ∧ (toInteger rm (valueOf (.fin s m e sub)) < 0 → s = true) := by
  rw [toInteger_denotes rm (denotes_fin s m e sub) (by simp)]
  cases s <;> simp

theorem encRN8_real {v : FVal} (h : isReal v) :
    encRN8 v = (rn8 (intConverted 0 (-52) 52 (valueOf v)).1, (intConverted 0 (-52) 52 (valueOf v)).2) := by
  rw [← intConv_real 0 (by decide) (by decide) h]
  cases v with
  | nan _ | inf _ => exact h.elim
  | zero s => rfl
  | fin s m e sub =>
    obtain ⟨pos, neg⟩ := toInteger_sign 0 s m e sub
    simp only [encRN8, intConv, roundInt_value 0 s m e sub]
    generalize toInteger 0 (valueOf (.fin s m e sub)) = n at pos neg
    by_cases above : 52 < n
    · rw [pos (by omega)]
      simp [above, show ¬ n < -52 by omega]
      rfl
    by_cases below : n < -52
    · rw [neg (by omega)]
      simp [below]
      rfl
    · simp [above, below]
      rfl

/-! ### EncodeL4 (R83) -/

/-- m × 2^e compared with n eighths. -/
theorem eighths_compare (m : Nat) (e : ℤ) (n : Nat) :
    compare (scaled false m e (min e (-3))) (scaled false n (-3) (min e (-3))) = compare ((m : ℚ) * 2 ^ e) (n / 8) := by
  have unit : (0 : ℚ) < 2 ^ min e (-3) := by positivity
  have mono : StrictMono (fun k : ℤ => (k : ℚ) * 2 ^ min e (-3)) := fun i j less => by
    have : (i : ℚ) < j := by exact_mod_cast less
    exact mul_lt_mul_of_pos_right this unit
  have eighth : (n : ℚ) / 8 = signOf false * n * 2 ^ (-3 : ℤ) := by
    simp only [signOf, Bool.false_eq_true, if_false]
    norm_num
    ring
  have left : (m : ℚ) * 2 ^ e = signOf false * m * 2 ^ e := by simp [signOf]
  rw [eighth, left, ← scaled_value false m (min_le_left e (-3)), ← scaled_value false n (min_le_right e (-3))]
  exact (compare_strictMono mono _ _).symm

/-- The magnitude code that a comparison with eighths gives (R83). -/
def codeBy (cmp8 : Nat → Ordering) : Nat :=
  if cmp8 1 != .gt then 0 else if cmp8 3 == .lt then 1 else if cmp8 6 != .gt then 2 else if cmp8 12 == .lt then 3
  else if cmp8 24 != .gt then 4 else if cmp8 48 == .lt then 5 else if cmp8 96 != .gt then 6 else 7

theorem encL4_fin (s : Bool) (m : Nat) (e : ℤ) (sub : Bool) : encL4 (.fin s m e sub) =
    let cmp8 := fun (n : Nat) => compare (scaled false m e (min e (-3))) (scaled false n (-3) (min e (-3)))
    (if codeBy cmp8 = 0 then 0 else if s then 8 + codeBy cmp8 else codeBy cmp8,
     if codeBy cmp8 != 0 && cmp8 (2 ^ codeBy cmp8) == .eq then 0
     else if codeBy cmp8 == 0 then flNX ||| flUF else if cmp8 128 == .gt then flOF ||| flNX else flNX) := rfl

theorem compare_tests (a b : ℚ) : ((compare a b != .gt) = decide (a ≤ b)) ∧ ((compare a b == .lt) = decide (a < b)) ∧
    ((compare a b == .eq) = decide (a = b)) ∧ ((compare a b == .gt) = decide (b < a)) := by
  obtain lt | eq | gt := lt_trichotomy a b
  · rw [compare_lt_iff_lt.2 lt]
    simp [lt, lt.ne, lt.le, lt.not_gt]
  · rw [compare_eq_iff_eq.2 eq]
    simp [eq]
  · rw [compare_gt_iff_gt.2 gt]
    simp [gt, gt.ne', gt.not_gt]

/-- The magnitude code of a positive number, and whether it is exact (R83). -/
def l4Code (a : ℚ) : Nat := if a ≤ 1 / 8 then 0 else if a < 3 / 8 then 1 else if a ≤ 3 / 4 then 2 else if a < 3 / 2 then 3
    else if a ≤ 3 then 4 else if a < 6 then 5 else if a ≤ 12 then 6 else 7

theorem l4_eq (x : ℚ) : l4 x =
    (if l4Code |x| = 0 then 0 else if x < 0 then 8 + l4Code |x| else l4Code |x|,
     if (if l4Code |x| = 0 then |x| = 0 else |x| = 2 ^ ((l4Code |x| : ℤ) - 3)) then 0
     else if l4Code |x| = 0 then flNX ||| flUF else if 16 < |x| then flOF ||| flNX else flNX) := rfl

theorem codeBy_compare (a : ℚ) : codeBy (fun n => compare a (n / 8)) = l4Code a := by
  have tests (n : Nat) := compare_tests a (n / 8)
  simp only [codeBy, (tests _).1, (tests _).2.1, decide_eq_true_eq, l4Code]
  norm_num

theorem encL4_real {v : FVal} (h : isReal v) : encL4 v = l4 (valueOf v) := by
  cases v with
  | nan _ | inf _ => exact h.elim
  | zero s => simp [encL4, l4]
  | fin s m e sub =>
    have pos : (0 : ℚ) < m * 2 ^ e := by
      have : (0 : ℚ) < m := by exact_mod_cast Nat.pos_of_ne_zero h
      positivity
    have size : |valueOf (.fin s m e sub)| = m * 2 ^ e := by
      rw [valueOf_fin, mul_assoc, abs_signOf_mul s pos.le]
    have below : valueOf (.fin s m e sub) < 0 ↔ s = true := by
      cases s <;> simp [valueOf_fin, signOf, pos, pos.le]
    rw [encL4_fin, l4_eq]
    simp only [eighths_compare, codeBy_compare, size, below]
    generalize (m : ℚ) * 2 ^ e = a at pos
    obtain ⟨-, -, eq, -⟩ := compare_tests a ((2 ^ l4Code a : Nat) / 8)
    obtain ⟨-, -, -, gt⟩ := compare_tests a ((128 : Nat) / 8)
    have power : (2 : ℚ) ^ ((l4Code a : ℤ) - 3) = (2 ^ l4Code a : Nat) / 8 := by
      rw [zpow_sub₀ (by norm_num), zpow_natCast]
      norm_num
    have sixteen : ((128 : Nat) : ℚ) / 8 = 16 := by norm_num
    rw [eq, gt, power, sixteen]
    by_cases zero : l4Code a = 0
    · simp [zero, pos.ne']
    · simp [zero]

theorem cvtSource_float (z : Bool) (v : BitVec 64) (e : Nat) :
    ∀ ty f w, (ty = 0 ∧ f = f32 ∧ w = 32 ∧ e = 0) ∨ (ty = 1 ∧ f = f16 ∧ w = 16 ∧ e < 2) ∨ (ty = 2 ∧ f = bf16 ∧ w = 16 ∧ e < 2) →
      cvtSource z ty e v = (decF f (flushed f z (v.toNat / 2 ^ (w * e) % 2 ^ w)), 0) := by
  rintro ty f w (⟨rfl, rfl, rfl, rfl⟩ | ⟨rfl, rfl, rfl, -⟩ | ⟨rfl, rfl, rfl, -⟩)
  · rw [← operand_eq (standard_of_mem (by simp))]
    simp [cvtSource]
  · rw [← operand_eq (standard_of_mem (by simp))]
    rfl
  · rw [← operand_eq (standard_of_mem (by simp))]
    rfl

theorem cvtSource_six (z : Bool) (v : BitVec 64) (e : Nat) : cvtSource z 6 e v =
    (valOfInt (decRN8 (BitVec.ofNat 8 (v.toNat / 2 ^ (8 * e)))).1, (decRN8 (BitVec.ofNat 8 (v.toNat / 2 ^ (8 * e)))).2) := rfl

theorem cvtSource_rn8 (z : Bool) (v : BitVec 64) (e : Nat) :
    (∀ n : Int, -52 ≤ n → n ≤ 52 → v.toNat / 2 ^ (8 * e) % 2 ^ 8 = rn8 n →
      valueOf (cvtSource z 6 e v).1 = n ∧ (cvtSource z 6 e v).2 = 0) ∧
    ((∀ n : Int, -52 ≤ n → n ≤ 52 → v.toNat / 2 ^ (8 * e) % 2 ^ 8 ≠ rn8 n) → cvtSource z 6 e v = (.zero false, flNV)) := by
  have code : (BitVec.ofNat 8 (v.toNat / 2 ^ (8 * e))).toNat = v.toNat / 2 ^ (8 * e) % 2 ^ 8 := BitVec.toNat_ofNat ..
  constructor
  · intro n low high same
    have value := decRN8_rn8 low high (code.trans same)
    rw [cvtSource_six, value]
    exact ⟨valueOf_valOfInt n, rfl⟩
  · intro other
    have value := decRN8_other (c := BitVec.ofNat 8 (v.toNat / 2 ^ (8 * e))) (by rwa [code])
    rw [cvtSource_six, value]
    rfl

theorem cvtResult_float (z : Bool) (rm : BitVec 2) {x : FVal} (real : isReal x) :
    ∀ ty f, (ty = 0 ∧ f = f32) ∨ (ty = 1 ∧ f = f16) ∨ (ty = 2 ∧ f = bf16) ∨ (ty = 3 ∧ f = f64) →
      IsRound f rm (z && ty != 3) (valueOf x) x.sign (cvtResult z rm ty x) := by
  rintro ty f (⟨rfl, rfl⟩ | ⟨rfl, rfl⟩ | ⟨rfl, rfl⟩ | ⟨rfl, rfl⟩) <;>
    exact deliver_exact (standard_of_mem (by simp)) rm _ real

theorem cvt_lanewise (t : Tail) (rm : BitVec 2) (dst src e : BitVec 3) (d : Dst) (a : Src) :
    let conv := fun (c : Ctx) (v : List (Lanes 64)) (l : Nat) =>
      let x := cvtSource (ftz c) src.toNat e.toNat ((v.getD 0 []).getD l 0)
      let r := cvtResult (ftz c) rm dst.toNat x.1
      (BitVec.ofNat 64 r.1, x.2 ||| r.2)
    Lanewise (.cvt t rm dst src e d a) t 12 d (if dst = 3 then 2 else 1)
      [(a, cvtCk src.toNat, if src = 3 then 2 else 1)] (fun c v l => (conv c v l).1) (fun c v l => (conv c v l).2) := by
  intro conv
  refine laneOp_lanewise (f := conv) (fun s => ?_) (fun c v l => rfl)
  change execCvt t rm dst src e d a s = _
  simp only [execCvt, arg_eq, beq_iff_eq]
  rfl

/-- Settles O15: FlushIn and Round as in arithmetic, RN8 by its residues, L4 by comparisons with eighths. -/
theorem conversion : Obligations.Conversion := by
  refine ⟨cvt_lanewise, ⟨?_, ?_, ?_⟩⟩
  · intro z v e at_
    obtain ⟨rn8, other⟩ := cvtSource_rn8 z v e
    refine ⟨cvtSource_float z v e, rfl, ?_, ?_, fun n low high _ => rn8 n low high, fun _ => other, fun _ => ?_⟩
    · simp only [at_, Nat.mul_zero, Nat.pow_zero, Nat.div_one, ← signed_toInt]
      exact valueOf_valOfInt _
    · simp only [at_, Nat.mul_zero, Nat.pow_zero, Nat.div_one]
      exact valueOf_valOfInt ((v.toNat % 2 ^ 32 : Nat) : Int)
    · have := valueOf_decL4 (BitVec.ofNat 4 (v.toNat / 2 ^ (4 * e)))
      rwa [BitVec.toNat_ofNat] at this
  · intro z rm x real
    refine ⟨cvtResult_float z rm real, ?_, ?_, encRN8_real real, encL4_real real⟩
    · intro r
      have value : intConv rm (-(2 ^ 31)) (2 ^ 31 - 1) x = r := intConv_real rm (by decide) (by decide) real
      simp only [cvtResult, value, BitVec.toNat_ofInt]
      rfl
    · intro r
      have value : intConv rm 0 (2 ^ 32 - 1) x = r := intConv_real rm (by decide) (by decide) real
      simp only [cvtResult, value]
  · intro z rm sig s
    refine ⟨fun ty low high => ?_, ?_, ?_, rfl, rfl⟩
    · obtain rfl | rfl | rfl | rfl : ty = 4 ∨ ty = 5 ∨ ty = 6 ∨ ty = 7 := by omega
      all_goals rfl
    · cases s <;> rfl
    · cases s <;> rfl

end Sys2Proof.Formats
end

-- Proofs of the statement on products and reductions (spec/04_number_formats.md)
section
/-! SUPPORT. Residue cells add channel by channel, and a group of products is added as one exact sum. -/

namespace Sys2Proof.Formats

open Sys2Proof Sys2Proof.Machine Sys2Proof.Says Sys2Proof.Laws Sys2Proof.LaneState

/-! ### Residue products and sums (R86, R276) -/

theorem rnCell_sum (a b : Nat → Nat) (used : Nat → Bool) (k : Nat) (cell : BitVec 40) :
    (rnCell a b used k cell).1 = residueAdd cell (total (((List.range k).filter used).map (fun i =>
      (decRN8 (BitVec.ofNat 8 (a i))).1 * (decRN8 (BitVec.ofNat 8 (b i))).1))) := by
  have sum (is : List Nat) (x : Int × BitVec 5) :
      (is.foldl (fun (x : Int × BitVec 5) i =>
        if used i then
          (x.1 + (decRN8 (BitVec.ofNat 8 (a i))).1 * (decRN8 (BitVec.ofNat 8 (b i))).1,
            x.2 ||| (decRN8 (BitVec.ofNat 8 (a i))).2 ||| (decRN8 (BitVec.ofNat 8 (b i))).2)
        else x) x).1 = ((is.filter used).map (fun i =>
          (decRN8 (BitVec.ofNat 8 (a i))).1 * (decRN8 (BitVec.ofNat 8 (b i))).1)).foldl (· + ·) x.1 := by
    induction is generalizing x with
    | nil => rfl
    | cons i is ih =>
      rw [List.foldl_cons, ih]
      cases h : used i <;> simp [h]
  exact congrArg (residueAdd cell) (sum (List.range k) (0, 0))

theorem channel_residueSum (c d : BitVec 40) :
    ∀ e ∈ channels, channel (residueSum c d) e.2.1 e.2.2 = (channel c e.2.1 e.2.2 + channel d e.2.1 e.2.2) % e.1 := by
  have lt (x m : Nat) (pos : 0 < m) : x % m < m := Nat.mod_lt x pos
  obtain ⟨p, q, r, t⟩ := channel_cellOf (lt (channel c 0 8 + channel d 0 8) 255 (by decide) |>.trans (by decide))
    (lt (channel c 8 8 + channel d 8 8) 256 (by decide))
    (lt (channel c 16 9 + channel d 16 9) 257 (by decide) |>.trans (by decide))
    (lt (channel c 25 8 + channel d 25 8) 251 (by decide) |>.trans (by decide))
  simp only [channels, List.forall_mem_cons]
  exact ⟨p, q, r, t, by simp⟩

/-! ### One group (R90, R91) -/

/-- A group that has met finite numbers only holds their sum. -/
structure Sums (g : Group) (x : ℚ) : Prop where
  nan : g.nan = false
  pos : g.pos = false
  neg : g.neg = false
  sum : (g.sum : ℚ) * 2 ^ groupExp = x

/-- The exponents of a value that a group can hold. -/
def Fits : FVal → Prop
  | .fin _ _ e _ => -200 ≤ e
  | _ => True

theorem Sums.add {g : Group} {x : ℚ} (h : Sums g x) {a b : FVal} (ha : isReal a) (hb : isReal b) (fa : Fits a) (fb : Fits b) :
    Sums (g.add a b) (x + valueOf a * valueOf b) := by
  obtain ⟨nan, pos, neg, sum⟩ := h
  have numbers : (a.isNaN || b.isNaN) = false := by simp [isNaN_real ha, isNaN_real hb]
  cases a with
  | nan _ | inf _ => exact ha.elim
  | zero s =>
    cases b with
    | nan _ | inf _ => exact hb.elim
    | zero _ | fin _ _ _ _ =>
      rw [valueOf_zero, zero_mul, add_zero]
      exact ⟨nan, pos, neg, sum⟩
  | fin s m e sub =>
    cases b with
    | nan _ | inf _ => exact hb.elim
    | zero _ =>
      rw [valueOf_zero, mul_zero, add_zero]
      exact ⟨nan, pos, neg, sum⟩
    | fin s' m' e' sub' =>
      have deep : groupExp ≤ e + e' := by
        have fa : -200 ≤ e := fa
        have fb : -200 ≤ e' := fb
        rw [groupExp]
        omega
      obtain ⟨p, product, -, value, -⟩ := mulExact_real ha hb
      obtain rfl : FVal.fin (xor s s') (m * m') (e + e') false = p := Option.some.inj product
      refine ⟨nan, pos, neg, ?_⟩
      rw [← value, valueOf_fin, ← scaled_value (xor s s') (m * m') deep, ← sum, ← add_mul, ← Int.cast_add]
      rfl

theorem Sums.value {g : Group} {x : ℚ} (h : Sums g x) : isReal g.value.1 ∧ valueOf g.value.1 = x ∧ g.value.2 = false := by
  obtain ⟨nan, pos, neg, sum⟩ := h
  by_cases zero : g.sum = 0
  · simp only [Group.value, nan, pos, neg, zero]
    refine ⟨trivial, ?_, rfl⟩
    rw [← sum, zero]
    simp
  · have parts := signed_natAbs zero
    simp only [Group.value, nan, pos, neg, zero]
    exact ⟨Int.natAbs_ne_zero.2 zero, by rw [← sum, parts]; rfl, rfl⟩

/-- A group is added with one rounding (R90). -/
theorem Sums.accumulate {g : Group} {x : ℚ} (h : Sums g x) {acc : Nat} (fin : finite f32 acc = true) :
    ∃ sg, IsRound f32 0 false (real f32 acc + x) sg (Machine.accumulate acc g) := by
  have std : Standard f32 := standard_of_mem (by simp)
  obtain ⟨real, value, quiet⟩ := h.value
  obtain ⟨racc, vacc, -⟩ := decF_finite std fin
  have rounded := deliver_addExact std 0 false racc real
  rw [value, vacc, ← fAdd_real 0 racc real] at rounded
  have flags (r : BitVec 5) : r ||| (if g.value.2 = true then flNV else 0) = r := by simp [quiet]
  have same : Machine.accumulate acc g = deliver f32 0 false (fAdd 0 (decF f32 acc) g.value.1) := by
    rw [Machine.accumulate, flags]
  exact ⟨_, same ▸ rounded⟩

theorem decF_fits {f : Fmt} (std : Standard f) (deep : f.bias + f.fb ≤ 200) (code : Nat) : Fits (decF f code) := by
  have emin : f.emin = 1 - f.bias := rfl
  rw [decF_eq std]
  split
  · split <;> trivial
  · split
    · split
      · trivial
      · change -200 ≤ _
        omega
    · change -200 ≤ _
      generalize magnitude f code / 2 ^ f.fb = e
      omega

theorem elemVal_fits (f code : Nat) : Fits (elemVal f code) := by
  unfold elemVal
  split
  · exact decF_fits (standard_of_mem (by simp)) (by decide) code
  · exact decF_fits (standard_of_mem (by simp)) (by decide) code
  · exact decF_fits (standard_of_mem (by simp)) (by decide) code
  · generalize BitVec.ofNat 4 code = c
    rw [decL4]
    by_cases zero : (c.extractLsb' 0 3).toNat = 0
    · rw [if_pos zero]
      trivial
    · rw [if_neg zero]
      change -200 ≤ _
      omega

/-! ### Groups of a product step -/

/-- The group of n products from index i on. -/
def groupFrom (fa fb : Nat) (a b : Nat → Nat) (i n : Nat) : Group :=
  (List.range n).foldl (fun (g : Group) j => g.add (elemVal fa (a (i + j))) (elemVal fb (b (i + j)))) {}

/-- A cell of a product step in which every group is used. -/
theorem fpCell_eq (p fa fb : Nat) (a b : Nat → Nat) (k acc : Nat) : fpCell p fa fb a b (fun _ => true) k acc =
    (List.range ((k + pairGroup p - 1) / pairGroup p)).foldl (fun (x : Nat × BitVec 5) q =>
      let r := Machine.accumulate x.1 (groupFrom fa fb a b (q * pairGroup p) (min (pairGroup p) (k - q * pairGroup p)))
      (r.1, x.2 ||| r.2)) (acc, 0) := rfl

theorem pairGroup_pos (p : Nat) : 0 < pairGroup p := by
  rcases p with _ | _ | _ | _ | _ | _ | p <;> simp [pairGroup]

theorem groupFrom_sums (fa fb : Nat) (a b : Nat → Nat) (i n : Nat)
    (reals : ∀ j, j < n → isReal (elemVal fa (a (i + j))) ∧ isReal (elemVal fb (b (i + j)))) :
    Sums (groupFrom fa fb a b i n)
      ((List.range n).map (fun j => valueOf (elemVal fa (a (i + j))) * valueOf (elemVal fb (b (i + j))))).sum := by
  induction n with
  | zero => exact ⟨rfl, rfl, rfl, by simp [groupFrom]⟩
  | succ n ih =>
    obtain ⟨ra, rb⟩ := reals n (Nat.lt_succ_self n)
    have before := ih fun j h => reals j (by omega)
    have after := before.add ra rb (elemVal_fits ..) (elemVal_fits ..)
    rw [List.range_succ, List.map_append, List.sum_append, List.map_singleton, List.sum_singleton, groupFrom, List.range_succ,
      List.foldl_append]
    exact after

/-- A group is added after the groups before it (R90). -/
theorem fpCell_group (p fa fb q n acc : Nat) (a b : Nat → Nat) (pos : 0 < n) (fits : n ≤ pairGroup p) :
    fpCell p fa fb a b (fun _ => true) (q * pairGroup p + n) acc =
      let before := fpCell p fa fb a b (fun _ => true) (q * pairGroup p) acc
      let r := Machine.accumulate before.1 (groupFrom fa fb a b (q * pairGroup p) n)
      (r.1, before.2 ||| r.2) := by
  have w := pairGroup_pos p
  have groups : (q * pairGroup p + n + pairGroup p - 1) / pairGroup p = q + 1 := by
    rw [show q * pairGroup p + n + pairGroup p - 1 = n - 1 + (q + 1) * pairGroup p by rw [Nat.add_mul]; omega,
      Nat.add_mul_div_right _ _ w, Nat.div_eq_of_lt (by omega), Nat.zero_add]
  have earlier : (q * pairGroup p + pairGroup p - 1) / pairGroup p = q := by
    rw [show q * pairGroup p + pairGroup p - 1 = pairGroup p - 1 + q * pairGroup p by omega,
      Nat.add_mul_div_right _ _ w, Nat.div_eq_of_lt (by omega), Nat.zero_add]
  have whole {j : Nat} (h : j < q) (extra : Nat) : min (pairGroup p) (q * pairGroup p + extra - j * pairGroup p) = pairGroup p := by
    have : (j + 1) * pairGroup p ≤ q * pairGroup p := Nat.mul_le_mul_right _ h
    rw [Nat.add_mul] at this
    omega
  have last : min (pairGroup p) (q * pairGroup p + n - q * pairGroup p) = n := by omega
  have same : (List.range q).foldl (fun (x : Nat × BitVec 5) j =>
      let r := Machine.accumulate x.1 (groupFrom fa fb a b (j * pairGroup p) (min (pairGroup p) (q * pairGroup p + n - j * pairGroup p)))
      (r.1, x.2 ||| r.2)) (acc, 0) = fpCell p fa fb a b (fun _ => true) (q * pairGroup p) acc := by
    rw [fpCell_eq, earlier]
    refine List.foldl_ext _ _ _ fun x j hj => ?_
    have hj := List.mem_range.1 hj
    have zero := whole hj 0
    rw [Nat.add_zero] at zero
    rw [whole hj n, zero]
  rw [fpCell_eq, groups, List.range_succ, List.foldl_append, same]
  simp only [List.foldl_cons, List.foldl_nil, last]

/-- A product step within one group. -/
theorem fpCell_one (p fa fb n acc : Nat) (a b : Nat → Nat) (pos : 0 < n) (fits : n ≤ pairGroup p) :
    fpCell p fa fb a b (fun _ => true) n acc = Machine.accumulate acc (groupFrom fa fb a b 0 n) := by
  have := fpCell_group p fa fb 0 n acc a b pos fits
  rw [Nat.zero_mul, Nat.zero_add] at this
  rw [this]
  have none_before : fpCell p fa fb a b (fun _ => true) 0 acc = (acc, 0) := by
    rw [fpCell_eq, Nat.zero_add, Nat.div_eq_of_lt (Nat.sub_lt (pairGroup_pos p) one_pos)]
    rfl
  simp [none_before]

/-- Settles O34: channels add modulo their moduli, and a group is an exact sum that is rounded once. -/
theorem productsAndReductions : Obligations.ProductsAndReductions := by
  refine ⟨?_, ?_, ?_, ?_⟩
  · intro a b used k cell
    have sums := channel_residueAdd cell (total (((List.range k).filter used).map (fun i =>
      (decRN8 (BitVec.ofNat 8 (a i))).1 * (decRN8 (BitVec.ofNat 8 (b i))).1)))
    rw [← rnCell_sum a b used k cell] at sums
    simp only [channels, List.forall_mem_cons] at sums ⊢
    obtain ⟨p, q, r, t, -⟩ := sums
    exact ⟨p, q, r, t, by simp⟩
  · intro u v e he ch
    have := channel_residueSum v u e he
    rw [Nat.add_comm] at this
    exact ⟨this, rfl⟩
  · intro p n acc a b hp hp3 pos fits fin _ va vb reals s
    rw [fpCell_one _ _ _ _ _ _ _ pos fits]
    have sums := groupFrom_sums (pairFmts p).1 (pairFmts p).2 a b 0 n (by simpa using reals)
    simp only [Nat.zero_add] at sums
    exact sums.accumulate fin
  · intro p fa fb q n acc a b pos fits w before last
    rw [fpCell_group p fa fb q n acc a b pos fits]
    have shifted : last = Machine.accumulate before.1 (groupFrom fa fb a b (q * w) n) := by
      refine (fpCell_one p fa fb n before.1 (fun i => a (q * w + i)) (fun i => b (q * w + i)) pos fits).trans ?_
      simp only [groupFrom, Nat.zero_add]
    rw [shifted]

end Sys2Proof.Formats
end

-- What tile words read
section
/-! SUPPORT. A tile word that acts, and what it reads of the tiles of a gang with no tile operation in flight (R85, R254). -/

namespace Sys2Proof.TileWords

open Sys2Proof Sys2Proof.Machine Sys2Proof.Says Sys2Proof.Laws Sys2Proof.LaneState

/-! ### Issue -/

/-- A tile word that acts comes to what its body answers. -/
theorem tileIssue_of {cls : Bool} {t : Tail} {s : State} {c : Ctx} (h : Acts s t c) (body : Ctx → State → Res) :
    tileIssue cls t s body = c.finish t (spent s) (body c (spent s)) := by
  have hact : (c.act == 0) = false := beq_false_of_ne h.act
  unfold tileIssue
  rw [issueIn_of h.toIssues fun _ => h.free, hact]
  rfl

/-! ### What a tile word reads of a gang with no tile operation in flight (R85, R254) -/

/-- No tile operation of a gang is in flight. -/
abbrev Quiet (s : State) (g : Nat) : Prop := ∀ o ∈ s.ops, o.gang = g → ∀ k n, o.kind ≠ .tile k n

/-- A fold over operations that passes by all but the tile operations of a gang comes to its start. -/
theorem foldl_quiet {α : Type} {g : Nat} {f : α → Op → α} {ops : List Op} (a : α)
    (hq : ∀ o ∈ ops, o.gang = g → ∀ k n, o.kind ≠ .tile k n)
    (hf : ∀ a o, (o.gang = g → ∀ k n, o.kind ≠ .tile k n) → f a o = a) : ops.foldl f a = a := by
  induction ops generalizing a with
  | nil => rfl
  | cons o os ih =>
    rw [List.foldl_cons, hf a o (hq o (by simp))]
    exact ih a fun p hp => hq p (by simp [hp])

theorem seenX_quiet {s : State} {g : Nat} (hq : Quiet s g) (x : Nat) (t : XTile) : s.seenX g x t = (s, t.bits) := by
  unfold State.seenX
  refine foldl_quiet _ hq fun a o ho => ?_
  by_cases hg : o.gang = g
  · have hk := ho hg
    cases hkind : o.kind with
    | tile k n => exact absurd hkind (hk k n)
    | _ => simp [hg]
  · simp [hg]

theorem seenY_quiet {s : State} {g : Nat} (hq : Quiet s g) (y : Nat) (t : YTile) (fp : Option Bool) :
    s.seenY g y t fp = ({ s with seed := s.seed + (t.readAs fp s.seed).2 }, (t.readAs fp s.seed).1) := by
  unfold State.seenY
  refine foldl_quiet _ hq fun a o ho => ?_
  by_cases hg : o.gang = g
  · have hk := ho hg
    cases hkind : o.kind with
    | tile k n => exact absurd hkind (hk k n)
    | _ => simp [hg]
  · simp [hg]

theorem readX_quiet {s : State} {c : Ctx} (hq : Quiet s c.g) (hi : s.dev.injs = []) (n : BitVec 5) (t : XTile) :
    c.readX s n t = .ok (s, t.bits) := by
  unfold Ctx.readX
  rw [seenX_quiet hq]
  simp [hi]

theorem readY_quiet {s : State} {c : Ctx} (hq : Quiet s c.g) (hi : s.dev.injs = []) (n : BitVec 4) (t : YTile)
    (fp : Option Bool) :
    c.readY s n t fp = .ok ({ s with seed := s.seed + (t.readAs fp s.seed).2 }, (t.readAs fp s.seed).1, (t.readAs fp s.seed).1) := by
  unfold Ctx.readY
  rw [seenY_quiet hq]
  simp [hi]

theorem eccRows_quiet {s : State} (c : Ctx) (hi : s.dev.injs = []) (v : BitVec 64) (rows len : Nat) :
    c.eccRows s v rows len = .ok s := by
  simp [Ctx.eccRows, hi]

/-- The cells that a reader of a form does not see as they stand. -/
def otherForm (t : YTile) (fp : Option Bool) : BitVec 4096 :=
  match fp with
  | some true => t.res
  | some false => t.fp
  | none => 0

theorem readAs_eq (t : YTile) (fp : Option Bool) (seed : Nat) : t.readAs fp seed =
    if otherForm t fp == 0 then (t.cells, 0)
    else (t.cells.zipIdx.map (fun e =>
      if (otherForm t fp).getLsbD e.2 then (Config.freeValue (seed + e.2)).extractLsb' 0 40 else e.1), 4096) := rfl

theorem readAs_getD (t : YTile) (fp : Option Bool) (seed i : Nat) (h : (otherForm t fp).getLsbD i = false) :
    (t.readAs fp seed).1.getD i 0 = t.cells.getD i 0 := by
  rw [readAs_eq]
  split
  · rfl
  · simp only [List.getD_eq_getElem?_getD, List.getElem?_map, List.getElem?_zipIdx]
    cases hc : t.cells[i]? with
    | none => rfl
    | some c => simp [h]

theorem readAs_length (t : YTile) (fp : Option Bool) (seed : Nat) : (t.readAs fp seed).1.length = t.cells.length := by
  rw [readAs_eq]
  split <;> simp

/-- What `readAs` answers is a reading of the tile in that form. -/
theorem reads_readAs (t : YTile) (fp : Bool) (seed : Nat) : Says.reads t fp (t.readAs (some fp) seed).1 := by
  refine ⟨readAs_length t _ seed, fun i hi => readAs_getD t _ seed i ?_⟩
  cases fp <;> exact hi

/-- A tile that was never written in the other form reads as it stands. -/
theorem readAs_plain (t : YTile) (seed : Nat) (h : t.res = 0) : t.readAs (some true) seed = (t.cells, 0) := by
  simp [YTile.readAs, h]

@[simp] theorem readAs_none (t : YTile) (seed : Nat) : t.readAs none seed = (t.cells, 0) := by
  simp [YTile.readAs]

/-- Cells read in the FP32 form of a tile that was never written in the residue form. -/
theorem reads_plain {t : YTile} {cells : List (BitVec 40)} (h : t.res = 0) (hr : Says.reads t true cells) : cells = t.cells := by
  obtain ⟨hlen, hget⟩ := hr
  refine List.ext_getElem hlen fun i h1 h2 => ?_
  have := hget i (by simp [h])
  rwa [List.getD_eq_getElem _ _ h1, List.getD_eq_getElem _ _ h2] at this

/-! ### The elements of an array (R251, R252) -/

theorem elements_getD (bits : BitVec 65536) (ctl : BitVec 64) (i : Nat) : (Machine.elements bits ctl).getD i 0 =
    if i < ctlRows ctl * ctlCols ctl then (bits.extractLsb' (i * ctlBits ctl) (ctlBits ctl)).toNat else 0 := by
  unfold Machine.elements
  rw [Array.getD_eq_getD_getElem?, List.getElem?_toArray, List.getElem?_map]
  split
  · rw [List.getElem?_range ‹_›]; rfl
  · rw [List.getElem?_eq_none (by simpa using Nat.le_of_not_lt ‹¬ _›)]; rfl

theorem scales_row (bits : BitVec 65536) (ctl : BitVec 64) (i : Nat) :
    (scales bits ctl).1 i = decF f32 ((Machine.elements bits ctl).getD i 0) := rfl

theorem scales_col (bits : BitVec 65536) (ctl : BitVec 64) (j : Nat) :
    (scales bits ctl).2 j = decF f32 ((Machine.elements bits ctl).getD (ctlCols ctl + j) 0) := rfl

end Sys2Proof.TileWords
end

-- Refutation of the statement on tile arithmetic (spec/04_number_formats.md)
section
/-! SUPPORT. A scale past the elements of its x tile, and what a word that retires leaves of the tile operations in flight (R38, R274). -/

namespace Sys2Proof.TileWords

open Sys2Proof Sys2Proof.Machine Sys2Proof.Says Sys2Proof.Laws Sys2Proof.LaneState

/-! ### Retiring a word takes no tile operation away

The state in which a statement lets a word retire is known but for its slots, so whether the slot joins there is not known
either (R38). In a gang of which another tussock runs, and at whose matrix loops nobody waits, no join ends the gang. -/

/-- What an operation does as a tile operation. -/
def tileOf (o : Op) : Option TileOp :=
  match o.kind with
  | .tile k _ => some k
  | _ => none

/-- The tile operations in flight. -/
def tileOps (s : State) : List TileOp := s.ops.filterMap tileOf

theorem tileOps_congr {s u : State} (h : u.ops = s.ops) : tileOps u = tileOps s := by rw [tileOps, h, tileOps]

theorem tileOps_map {s u : State} {f : Op → Op} (h : u.ops = s.ops.map f) (hf : ∀ o, tileOf (f o) = tileOf o) :
    tileOps u = tileOps s := by
  rw [tileOps, h, List.filterMap_map]
  exact List.filterMap_congr fun o _ => hf o

theorem tileOps_mergeTags (s : State) (g t w : Nat) : tileOps (s.mergeTags g t w) = tileOps s := by
  refine tileOps_map (f := ?_) (by simp only [State.mergeTags, State.modSlot_ops]; rfl) fun o => ?_
  unfold tileOf
  by_cases hg : o.gang = g
  · by_cases ht : o.tk = t <;> cases hk : o.kind <;> simp [hg, ht]
  · simp [hg]

theorem tileOps_overRecords (s : State) (g t : Nat) (f : Tussock → Nat → Tussock × Option Nat) :
    tileOps (s.overRecords g t f) = tileOps s := by
  unfold State.overRecords
  split
  · rfl
  · dsimp only
    split
    · rw [tileOps_mergeTags]; rfl
    · rfl

theorem tileOps_joinIn (s : State) (g t k : Nat) : tileOps (s.joinIn g t k) = tileOps s := tileOps_overRecords ..

theorem tileOps_resumeTrapped (s : State) (g t : Nat) (skip : Bool) : tileOps (s.resumeTrapped g t skip) = tileOps s := by
  unfold State.resumeTrapped
  split
  · rfl
  split
  · rfl
  dsimp only
  generalize hu : State.mk _ _ _ _ _ _ _ _ _ _ _ _ _ _ _ _ _ _ _ = u
  have base : tileOps u = tileOps s := by
    refine tileOps_map (f := ?_) (by rw [← hu]; rfl) fun o => ?_
    split
    · unfold tileOf
      cases o.kind with
      | copy c => by_cases hc : (c.paused == some Park.trapped) = true <;> simp only [hc, if_true, Bool.false_eq_true, if_false]
      | _ => rfl
    · rfl
  split
  · exact base
  split
  · rw [tileOps_joinIn, base]
  · exact base

/-- Another tussock of a gang runs, and nobody waits at a matrix loop of it. -/
def Standing (s : State) (g t : Nat) : Prop :=
  ∃ x, s.gang? g = some x ∧ x.arrivals = [] ∧ ∃ u y, u ≠ t ∧ x.tks[u]? = some y ∧ y.ended = false

theorem standing_congr {s u : State} {g t : Nat} (h : Standing s g t) (hg : u.gangs = s.gangs) : Standing u g t := by
  simpa only [Standing, State.gang?, hg] using h

theorem standing_modTk {s : State} {g t : Nat} (h : Standing s g t) (f : Tussock → Tussock) : Standing (s.modTk g t f) g t := by
  obtain ⟨x, hx, ha, u, y, hu, hy, he⟩ := h
  refine ⟨{ x with tks := x.tks.modify t f }, ?_, ha, u, y, hu, ?_, he⟩
  · rw [State.modTk, gang?_modGang _ _ _ (by intro y; rfl), hx, Option.map_some]
  · simp [hu.symm, hy]

theorem standing_modSlot {s : State} {g t : Nat} (h : Standing s g t) (k : Nat) (f : Slot → Slot) :
    Standing (s.modSlot g t k f) g t := standing_modTk h _

theorem standing_mergeTags {s : State} {g t : Nat} (h : Standing s g t) (w : Nat) : Standing (s.mergeTags g t w) g t := by
  unfold State.mergeTags
  exact standing_modSlot (standing_congr h rfl) _ _

theorem standing_overRecords {s : State} {g t : Nat} (h : Standing s g t) (f : Tussock → Nat → Tussock × Option Nat) :
    Standing (s.overRecords g t f) g t := by
  unfold State.overRecords
  split
  · exact h
  · dsimp only
    split
    · exact standing_mergeTags (standing_congr (standing_modTk h _) rfl) _
    · exact standing_congr (standing_modTk h _) rfl

theorem standing_resumeTrapped {s : State} {g t : Nat} (h : Standing s g t) (skip : Bool) :
    Standing (s.resumeTrapped g t skip) g t := by
  unfold State.resumeTrapped
  split
  · exact h
  split
  · exact h
  dsimp only
  generalize hu : State.mk _ _ _ _ _ _ _ _ _ _ _ _ _ _ _ _ _ _ _ = u
  have base : Standing u g t := standing_congr (standing_modTk h _) (by rw [← hu])
  split
  · exact base
  split
  · exact standing_overRecords base _
  · exact base

theorem bargCheck_ops (s : State) (g : Nat) : (s.bargCheck g).ops = s.ops := by
  unfold State.bargCheck
  split
  · rfl
  · dsimp only
    split <;> rfl

theorem breakTeam_of_standing {s : State} {g t : Nat} (h : Standing s g t) : s.breakTeam g t = s := by
  obtain ⟨x, hx, ha, -⟩ := h
  simp [State.breakTeam, hx, ha]

/-- A gang that stands does not end with one of its tussocks. -/
theorem endCheck_ops {s : State} {g t : Nat} (h : Standing s g t) : (s.endCheck g t).ops = s.ops := by
  unfold State.endCheck
  split
  · rfl
  split
  · exact bargCheck_ops ..
  dsimp only
  generalize hu : State.modTk _ g t _ = u
  have hs : Standing u g t := hu ▸ standing_modTk (standing_congr h rfl) _
  have ho : u.ops = s.ops := hu ▸ rfl
  rw [breakTeam_of_standing hs]
  obtain ⟨x, hx, -, v, y, -, hy, he⟩ := hs
  have hall : x.tks.all (·.ended) = false := by
    rw [List.all_eq_false]
    exact ⟨y, List.mem_of_getElem? hy, by simp [he]⟩
  simp only [hx, hall, Bool.false_eq_true, if_false, bargCheck_ops, ho]

theorem tileOps_join {s : State} {g t : Nat} (h : Standing s g t) (k : Nat) : tileOps (s.join g t k) = tileOps s := by
  have h1 : Standing (s.joinIn g t k) g t := standing_overRecords h _
  unfold State.join
  dsimp only
  split
  · split
    · rw [tileOps_congr (endCheck_ops (standing_resumeTrapped h1 _)), tileOps_resumeTrapped, tileOps_joinIn]
    · rw [tileOps_congr (endCheck_ops h1), tileOps_joinIn]
  · rw [tileOps_congr (endCheck_ops h1), tileOps_joinIn]

theorem tileOps_goto {s : State} {g t : Nat} (h : Standing s g t) (k : Nat) (pc : Addr) :
    tileOps (s.goto g t k pc) = tileOps s := by
  unfold State.goto
  dsimp only
  split
  · split
    · rw [tileOps_join (standing_modSlot h _ _)]; rfl
    · rfl
  · rfl

/-- A word that retires with its tag held in a gang that stands leaves the tile operations in flight. -/
theorem tileOps_retire {s : State} {c : Ctx} (h : Standing s c.g c.t) (tl : Tail) (pc : Addr) :
    tileOps (c.retire tl s true pc) = tileOps s := by
  unfold Ctx.retire State.retireSlot State.retireTail
  simp only [Bool.not_true, Bool.and_false, Bool.false_eq_true, if_false]
  rw [tileOps_goto (standing_modSlot h _ _)]
  rfl

/-! ### A scale past the array

R274 and R275 speak of 4096 cells; a tile of the model may hold any number. A scale past the elements of the x tile reads as 0 in
the model; the statement reads the bits of the array there. -/

/-- 1 in FP32. -/
abbrev one32 : BitVec 40 := 0x3F800000

/-- An x tile of 2 × 64 FP32 elements: 1 as the first column scale, and 1 in the bits past its elements. -/
def scaleTile : XTile := { ctl := 0x3F0101, bits := BitVec.ofNat 65536 (0x3F800000 <<< 2048 ||| 0x3F800000 <<< 4096) }

/-- A gang of two tussocks whose y tile holds more than the cells of a tile, each 1. -/
def longTile : Gang :=
  { wTiles wTk with tks := [wTk, wTk], xt := [scaleTile], yt := [{ cells := List.replicate 8193 one32 }] }

/-- What the slot that issues the conversion sees. -/
def longCtx : Ctx := { g := 1, t := 0, k := 0, core := 0, clk := 0, x := longTile, tk := wTk, sl := wSlot, act := 0xFFFFFFFF, tag := 0 }

theorem long_acts : Acts (wWith longTile) t0 longCtx := by
  refine ⟨ready_passes ?_ (by decide +kernel), by decide⟩
  rfl

/-- Past the elements the model scales by 0. -/
theorem scale_row (bits : BitVec 65536) : (scales bits 0x3F0101).1 128 = decF f32 0 := by
  rw [scales_row, elements_getD, if_neg (by decide)]

theorem scale_column : (scales scaleTile.bits 0x3F0101).2 0 = decF f32 0x3F800000 := by
  have one : (scaleTile.bits.extractLsb' ((ctlCols 0x3F0101 + 0) * ctlBits 0x3F0101) (ctlBits 0x3F0101)).toNat = 0x3F800000 := by
    decide +kernel
  rw [scales_col, elements_getD, if_pos (by decide), one]

/-- The cells that the model computes. -/
def longCells : List (Nat × BitVec 40) :=
  let sc := scales scaleTile.bits 0x3F0101
  ((List.replicate 8193 one32).zipIdx.map (fun e => (e.2, ycvtCell true (sc.1 (e.2 / 64)) (sc.2 (e.2 % 64)) e.1))).map (fun e => (e.1, e.2.1))

theorem longCells_last : longCells[8192]? = some (8192, (ycvtCell true (decF f32 0) (decF f32 0x3F800000) one32).1) := by
  have hi : (List.replicate 8193 one32).zipIdx[8192]? = some (one32, 8192) := by
    rw [List.getElem?_zipIdx, List.getElem?_replicate, if_pos (by decide)]; rfl
  simp only [longCells, List.getElem?_map, hi, Option.map_some]
  rw [show 8192 / 64 = 128 from rfl, show 8192 % 64 = 0 from rfl, scale_row, scale_column]

/-- The y tile of the gang. -/
def longY : YTile := { cells := List.replicate 8193 one32 }

theorem long_standing : Standing (wWith longTile) 1 0 := ⟨longTile, rfl, rfl, 1, wTk, by decide, rfl, rfl⟩

/-- YCVT of a gang with no tile operation in flight: the cells, and the operation that writes them. -/
theorem ycvt_quiet {t : Tail} {yd ys : BitVec 4} {xb : BitVec 5} {sf : Bool} {s : State} {c : Ctx} {d a : YTile} {b : XTile}
    (h : Acts s t c) (hq : Quiet s c.g) (hi : s.dev.injs = []) (hd : c.x.y? yd = some d) (ha : c.x.y? ys = some a)
    (hb : c.x.x? xb = some b) (shape : scaleShape b.ctl = true) :
    let sc := scales b.bits b.ctl
    let r := a.readAs (some sf) s.seed
    let out := r.1.zipIdx.map (fun e => (e.2, ycvtCell sf (sc.1 (e.2 / 64)) (sc.2 (e.2 % 64)) e.1))
    exec (.ycvt t yd ys xb sf) s = retired t c (c.tileOp { spent s with seed := s.seed + r.2 } (c.clk + 24)
      (.setCells yd.toNat (out.map (fun e => (e.1, e.2.1)))
        [(ys.toNat, soundWrap sf r.1 r.1 (out.foldl (fun m e => m ||| e.2.2) 0))] (some true))
      [xb.toNat, yCode yd.toNat, yCode ys.toNat]) true := by
  intro sc r out
  change execYcvt t yd ys xb sf s = _
  unfold execYcvt
  rw [tileIssue_of h]
  simp only [hd, ha, hb, shape, Bool.not_true, Bool.false_eq_true, if_false, readX_quiet (s := spent s) hq hi,
    readY_quiet (s := spent s) hq hi]
  rfl

/-- What the model sends. -/
theorem long_exec : ∃ s1 evs, exec (.ycvt t0 0 0 0 true) (wWith longTile) = retired t0 longCtx s1 true ∧ Standing s1 1 0 ∧
    tileOps s1 = [.setCells 0 longCells evs (some true)] := by
  have run := ycvt_quiet (yd := 0) (ys := 0) (xb := 0) (sf := true) (d := longY) (a := longY) (b := scaleTile) long_acts
    (fun _ h => nomatch h) rfl rfl rfl rfl rfl
  rw [readAs_plain longY _ rfl] at run
  exact ⟨_, _, run, standing_congr long_standing rfl, rfl⟩

/-- A state with the data of one whose gang stands and is the only one stands too, whatever its slots hold. -/
theorem standing_sameData {s s' : State} (h : SameData s s') {x : Gang} {y z : Tussock} (hs : s.gangs = [x]) (ha : x.arrivals = [])
    (ht : x.tks = [y, z]) (hz : z.ended = false) : Standing s' x.id 0 := by
  have hg := h.gangs
  simp only [slotsAside, hs, List.map_cons, List.map_nil] at hg
  obtain ⟨x', hx', e⟩ := List.map_eq_singleton_iff.1 hg
  have hid : x'.id = x.id := (congrArg Gang.id e :)
  have harr : x'.arrivals = [] := (congrArg Gang.arrivals e :).trans ha
  have htks := (congrArg Gang.tks e :)
  simp only [ht, List.map_cons, List.map_nil] at htks
  obtain ⟨y', rest, hy', -, hrest⟩ := List.map_eq_cons_iff.1 htks
  obtain ⟨z', hz', ez⟩ := List.map_eq_singleton_iff.1 hrest
  have hend : z'.ended = false := (congrArg Tussock.ended ez :).trans hz
  refine ⟨x', by simp [State.gang?, hx', hid], harr, 1, z', by decide, by simp [hy', hz'], hend⟩

/-- The two results of the last cell. -/
theorem last_cell_differs :
    (ycvtCell true (decF f32 0) (decF f32 0x3F800000) one32).1 ≠ (ycvtCell true (decF f32 0x3F800000) (decF f32 0x3F800000) one32).1 := by
  decide +kernel

theorem scaleTile_past : (scaleTile.bits.extractLsb' (32 * 128) 32).toNat = 0x3F800000 := by decide +kernel

theorem scaleTile_column : (scaleTile.bits.extractLsb' (32 * (ctlCols scaleTile.ctl + 0)) 32).toNat = 0x3F800000 := by decide +kernel

/-- Refutes O33: in a state whose y tile holds 8193 cells, YCVT reads the row scale of the last one past the elements of the x tile, as
0 in the model, and as the bits of its array, here 1, in the statement. -/
theorem not_tileArithmetic : ¬ Obligations.TileArithmetic := by
  intro h
  obtain ⟨-, hscale, -⟩ := h t0 0 0 0 0 0 false false true (wWith longTile) longCtx long_acts (fun _ h => nomatch h) rfl longY longY rfl rfl
  obtain ⟨-, hok⟩ := hscale scaleTile rfl
  obtain ⟨⟨from_, hreads, s2, hrun, hsame, -, hops⟩, -⟩ := hok ⟨by decide, by decide, by decide⟩
  obtain rfl : from_ = longY.cells := reads_plain rfl hreads
  obtain ⟨s1, evs, hmodel, hstand, hcells⟩ := long_exec
  have hstand2 : Standing s2 1 0 := standing_sameData hsame rfl rfl rfl rfl
  have hretired := Host.Outcome.next.inj (hmodel.symm.trans hrun)
  have hkinds := congrArg tileOps hretired
  rw [tileOps_retire hstand, tileOps_retire hstand2, hcells, tileOps, hops] at hkinds
  have hlists := (TileOp.setCells.inj (List.cons.inj hkinds).1).2.1
  have hlast := longCells_last
  have hi : longY.cells.zipIdx[8192]? = some (one32, 8192) := by
    rw [longY, List.getElem?_zipIdx, List.getElem?_replicate, if_pos (by decide)]; rfl
  rw [hlists, List.getElem?_map, List.getElem?_map, hi] at hlast
  simp only [Option.map_some, Option.some.injEq, Prod.mk.injEq] at hlast
  rw [show 8192 / 64 = 128 from rfl, show 8192 % 64 = 0 from rfl, scaleTile_past, scaleTile_column] at hlast
  exact last_cell_differs hlast.2.symm

end Sys2Proof.TileWords
end

-- Frames of steps on one gang
section
/-! SUPPORT. Bytes of a write, and steps that change one gang, or nothing of it but its tussocks. -/

namespace Sys2Proof.GangFrames

open Sys2Proof Sys2Proof.Machine Sys2Proof.Says Sys2Proof.Laws Sys2Proof.LaneState

/-! ### Bytes of a write -/

theorem get_put_outside (m : Memory) (a b : Nat) (bs : List Byte) (h : m.wf = true) (hb : b < a ∨ a + bs.length ≤ b) :
    (m.put a bs).get b = m.get b := by
  induction bs generalizing m a with
  | nil => rfl
  | cons v vs ih =>
    rw [List.length_cons] at hb
    rw [Memory.put, ih _ _ (Memory.set_wf m a _ h) (by omega), Memory.get_set m a b _ h, if_neg (by omega)]

theorem get_put_inside (m : Memory) (a j : Nat) (bs : List Byte) (h : m.wf = true) (hj : j < bs.length) :
    (m.put a bs).get (a + j) = bs.getD j 0 := by
  induction bs generalizing m a j with
  | nil => exact absurd hj (Nat.not_lt_zero j)
  | cons v vs ih =>
    cases j with
    | zero =>
      rw [Memory.put, get_put_outside _ _ _ _ (Memory.set_wf m a _ h) (by omega), Nat.add_zero, Memory.get_set m a a _ h, if_pos rfl]
      rfl
    | succ j =>
      rw [Memory.put, show a + (j + 1) = a + 1 + j by omega, ih _ _ _ (Memory.set_wf m a _ h) (by simpa using hj)]
      rfl

/-! ### Steps that change one gang -/

theorem gang?_modGang_ne {s : State} {g g' : Nat} (f : Gang → Gang) (keeps : ∀ x, (f x).id = x.id) (h : g' ≠ g) :
    (s.modGang g f).gang? g' = s.gang? g' := by
  simp only [State.gang?, State.modGang_gangs]
  induction s.gangs with
  | nil => rfl
  | cons x xs ih =>
    rw [List.map_cons]
    by_cases hx : x.id = g
    · have ne : x.id ≠ g' := fun e => h (e.symm.trans hx)
      rw [List.find?_cons_of_neg (by simpa [hx, keeps] using ne), List.find?_cons_of_neg (by simpa using ne), ih]
    · by_cases hx' : x.id = g'
      · rw [List.find?_cons_of_pos (by simp [hx', h]), List.find?_cons_of_pos (by simp [hx'])]
        simp [hx]
      · rw [List.find?_cons_of_neg (by simp [hx, hx']), List.find?_cons_of_neg (by simp [hx']), ih]

/-- Memory and every other gang are as before, and one gang has become what is given. -/
structure Becomes (s u : State) (g : Nat) (x : Gang) : Prop where
  mem    : u.mem = s.mem
  gang   : u.gang? g = some x
  others : ∀ g', g' ≠ g → u.gang? g' = s.gang? g'

/-- A step that changes at most the tussocks of one gang. -/
structure TksOnly (s u : State) (g : Nat) : Prop where
  mem    : u.mem = s.mem
  gang   : ∀ x, s.gang? g = some x → ∃ tks, u.gang? g = some { x with tks := tks }
  others : ∀ g', g' ≠ g → u.gang? g' = s.gang? g'

theorem Becomes.of_modGang {s : State} {g : Nat} {x : Gang} (f : Gang → Gang) (keeps : ∀ x, (f x).id = x.id)
    (hx : s.gang? g = some x) : Becomes s (s.modGang g f) g (f x) :=
  ⟨rfl, by rw [gang?_modGang s g f keeps, hx, Option.map_some], fun _ h => gang?_modGang_ne f keeps h⟩

theorem Becomes.congr {s u v : State} {g : Nat} {x : Gang} (h : Becomes s u g x) (hm : v.mem = u.mem) (hg : v.gangs = u.gangs) :
    Becomes s v g x :=
  ⟨hm.trans h.mem, by rw [State.gang?, hg]; exact h.gang, fun g' hne => by rw [State.gang?, hg]; exact h.others g' hne⟩

theorem Becomes.refl {s : State} {g : Nat} {x : Gang} (hx : s.gang? g = some x) : Becomes s s g x := ⟨rfl, hx, fun _ _ => rfl⟩

theorem Becomes.trans {s u v : State} {g : Nat} {x y : Gang} (h : Becomes s u g x) (h' : Becomes u v g y) : Becomes s v g y :=
  ⟨h'.mem.trans h.mem, h'.gang, fun g' hne => (h'.others g' hne).trans (h.others g' hne)⟩

theorem Becomes.tks {s u v : State} {g : Nat} {x : Gang} (h : Becomes s u g x) (h' : TksOnly u v g) :
    ∃ tks, Becomes s v g { x with tks := tks } := by
  obtain ⟨tks, hg⟩ := h'.gang x h.gang
  exact ⟨tks, h'.mem.trans h.mem, hg, fun g' hne => (h'.others g' hne).trans (h.others g' hne)⟩

theorem TksOnly.of_eq {s u : State} {g : Nat} (hm : u.mem = s.mem) (hg : u.gangs = s.gangs) : TksOnly s u g :=
  ⟨hm, fun x hx => ⟨x.tks, by rw [State.gang?, hg]; exact hx⟩, fun g' _ => by rw [State.gang?, hg]; rfl⟩

theorem TksOnly.refl (s : State) (g : Nat) : TksOnly s s g := .of_eq rfl rfl

theorem TksOnly.trans {s u v : State} {g : Nat} (h : TksOnly s u g) (h' : TksOnly u v g) : TksOnly s v g := by
  refine ⟨h'.mem.trans h.mem, fun x hx => ?_, fun g' hne => (h'.others g' hne).trans (h.others g' hne)⟩
  obtain ⟨tks, hu⟩ := h.gang x hx
  obtain ⟨tks', hv⟩ := h'.gang _ hu
  exact ⟨tks', hv⟩

theorem TksOnly.modTk (s : State) (g t : Nat) (f : Tussock → Tussock) : TksOnly s (s.modTk g t f) g := by
  refine ⟨rfl, fun x hx => ⟨x.tks.modify t f, ?_⟩, fun g' hne => gang?_modGang_ne _ (by intro x; rfl) hne⟩
  rw [State.modTk, gang?_modGang s g _ (by intro x; rfl), hx]
  rfl

theorem TksOnly.modSlot (s : State) (g t k : Nat) (f : Slot → Slot) : TksOnly s (s.modSlot g t k f) g := .modTk ..

theorem TksOnly.foldl {α : Type} (g : Nat) (f : State → α → State) (hf : ∀ s a, TksOnly s (f s a) g) (l : List α) (s : State) :
    TksOnly s (l.foldl f s) g := by
  induction l generalizing s with
  | nil => exact .refl ..
  | cons a l ih => exact (hf s a).trans (ih _)

theorem TksOnly.writeN (s : State) (g t r : Nat) (mask : Mask) (vals : Lanes 32) : TksOnly s (s.writeN g t r mask vals) g := by
  unfold State.writeN
  split
  · exact .refl ..
  · next y _ =>
    dsimp only
    generalize hu : (if y.parked then _ else _ : State) = u
    have hsu : TksOnly s u g := by
      rw [← hu]
      split
      · split
        · exact .modTk ..
        · exact .refl ..
      · exact .modTk ..
    split
    · exact hsu.trans (.of_eq rfl rfl)
    · exact hsu

theorem TksOnly.landLong (s : State) (o : Op) (d : LDest) (vals : Lanes 128) : TksOnly s (s.landLong o d vals) o.gang := by
  unfold State.landLong
  cases d with
  | none => exact .refl ..
  | n r words => exact .foldl _ _ (fun s k => .writeN ..) _ _
  | g r => exact .modTk ..

/-- An operation that leaves nothing to be written ends: its tag falls and it is gone. -/
theorem TksOnly.finishOp (s : State) (o : Op) (h : o.unwritten = false) : TksOnly s (s.finishOp o) o.gang := by
  unfold State.finishOp
  dsimp only
  rw [h, if_neg Bool.false_ne_true]
  refine TksOnly.trans ?_ ((TksOnly.modTk _ _ _ _).trans (.of_eq (State.dropOp_mem _ _) (State.dropOp_gangs _ _)))
  split
  · exact .refl ..
  · exact .foldl _ _ (fun s k => .modSlot ..) _ _

theorem op?_dropOp (s : State) (id : Nat) : (s.dropOp id).op? id = none := by
  rw [State.op?, State.dropOp_ops, List.find?_eq_none]
  intro o ho
  simpa using (List.mem_filter.1 ho).2

theorem op?_finishOp (s : State) (o : Op) (h : o.unwritten = false) : (s.finishOp o).op? o.id = none := by
  unfold State.finishOp
  dsimp only
  rw [h, if_neg Bool.false_ne_true]
  exact op?_dropOp _ _

theorem op?_id {s : State} {id : Nat} {o : Op} (h : s.op? id = some o) : o.id = id := by
  simpa using List.find?_some h

end Sys2Proof.GangFrames
end

-- Proof of the statement on tile operations that complete (spec/04_number_formats.md)
section
/-! SUPPORT. What a tile operation writes when it completes (R257, R258), and that it changes nothing else of its gang but tussocks. -/

namespace Sys2Proof.GangFrames

open Sys2Proof Sys2Proof.Machine Sys2Proof.Says Sys2Proof.Laws Sys2Proof.LaneState

/-! ### What a tile operation writes -/

/-- The gang that a tile operation leaves, but for its tussocks. -/
def written (x : Gang) (k : TileOp) : Gang :=
  let bytes := fun (r : RowRead) => r.got.getD (x.arr.bytes r.addr r.len)
  match k with
  | .setCtl n v => { x with xt := x.xt.modify n (fun q => { q with ctl := v }) }
  | .setX n w bits => { x with xt := x.xt.modify n (fun q => { q with bits := lowOver w bits (x.xt.getD n {}).bits }) }
  | .xld n rows =>
    let bs := rows.flatMap bytes
    { x with xt := x.xt.modify n (fun q => { q with bits := lowOver (8 * bs.length) (bitsOfBytes bs) (x.xt.getD n {}).bits }) }
  | .yld n f rows =>
    { x with yt := x.yt.modify n (fun q =>
        { q.formed (if f then some true else none) (List.range 4096) with cells := cellsOfRows f (rows.map bytes) }) }
  | .setCells n cells evs fp =>
    { x with yt := evs.foldl (fun ts e => ts.modify e.1 (fun t => { t with events := t.events ||| e.2 })) (x.yt.modify n (fun q =>
        { q.formed fp (cells.map (·.1)) with cells := setCellList (x.yt.getD n {}).cells cells })) }
  | .store rows => rows.foldl (fun y r => y.arrPut r.1 r.2) x
  | .evRd .. => x
  | .evClr n mask => { x with yt := x.yt.modify n (fun q => { q with events := q.events &&& ~~~mask }) }

theorem foldl_arrPut_id (rows : List (Nat × List Byte)) (x : Gang) : (rows.foldl (fun y r => y.arrPut r.1 r.2) x).id = x.id := by
  induction rows generalizing x with
  | nil => rfl
  | cons r rs ih => exact ih _

theorem foldl_arrPut_tiles (rows : List (Nat × List Byte)) (x : Gang) :
    (rows.foldl (fun y r => y.arrPut r.1 r.2) x).xt = x.xt ∧ (rows.foldl (fun y r => y.arrPut r.1 r.2) x).yt = x.yt := by
  induction rows generalizing x with
  | nil => exact ⟨rfl, rfl⟩
  | cons r rs ih => exact ih _

theorem foldl_arrPut_outside {rows : List (Nat × List Byte)} {x : Gang} {a : Nat} (h : Memory.wf x.sp = true)
    (ha : ∀ r ∈ rows, a < r.1 ∨ r.1 + r.2.length ≤ a) :
    Memory.get (rows.foldl (fun y r => y.arrPut r.1 r.2) x).sp a = Memory.get x.sp a := by
  induction rows generalizing x with
  | nil => rfl
  | cons r rs ih =>
    rw [List.foldl_cons, ih (Memory.put_wf _ _ _ h) fun q hq => ha q (by simp [hq])]
    exact get_put_outside _ _ _ _ h (ha r (by simp))

theorem loopOn_false {s : State} (h : ∀ q ∈ s.ops, ∀ l, q.kind ≠ .loop l) (g code : Nat) : s.loopOn g code = false := by
  rw [State.loopOn, List.any_eq_false]
  intro q hq
  cases hk : q.kind with
  | loop l => exact absurd hk (h q hq l)
  | _ => simp

/-- Where no other tile operation of the gang is pending, none takes values of one that completes. -/
theorem mixPending_ops {s : State} {o : Op} (k : TileOp)
    (h : ∀ q ∈ s.ops, q.gang = o.gang → q.id ≠ o.id → ∀ k n, q.kind ≠ .tile k n) : (s.mixPending o k).ops = s.ops := by
  change s.ops.map _ = s.ops
  refine (List.map_congr_left (g := id) fun q hq => ?_).trans (List.map_id _)
  by_cases hid : q.id = o.id
  · simp [hid]
  by_cases hg : q.gang = o.gang
  · have hk := h q hq hg hid
    cases hkind : q.kind with
    | tile k n => exact absurd hkind (hk k n)
    | _ => cases k <;> simp [hid, hg]
  · simp [hg]

/-- What a tile operation does where nothing else uses the tiles. -/
theorem tileDone_written {s : State} {o : Op} {x : Gang} (k : TileOp) (hx : s.gang? o.gang = some x)
    (hq : ∀ q ∈ s.ops, q.gang = o.gang → q.id ≠ o.id → ∀ k n, q.kind ≠ .tile k n) (hl : ∀ q ∈ s.ops, ∀ l, q.kind ≠ .loop l) :
    ∃ tks, Becomes s (s.tileDone o k) o.gang { written x k with tks := tks } := by
  have mixed : ∀ n, (s.mixPending o k).loopOn o.gang n = false :=
    fun n => loopOn_false (fun q h l => hl q (by rwa [mixPending_ops k hq] at h) l) _ n
  have mix : Becomes s (s.mixPending o k) o.gang x := (Becomes.refl hx).congr rfl rfl
  unfold State.tileDone
  rw [hx]
  cases k with
  | setCtl n v => exact ⟨x.tks, .of_modGang _ (by intro y; rfl) hx⟩
  | setX n w bits =>
    simp only [State.putX, mixed, Bool.false_eq_true, if_false]
    exact ⟨x.tks, mix.trans (.of_modGang _ (by intro y; rfl) mix.gang)⟩
  | xld n rows =>
    simp only [State.putX, loopOn_false hl, Bool.false_eq_true, if_false]
    exact ⟨x.tks, .of_modGang _ (by intro y; rfl) hx⟩
  | yld n f rows =>
    simp only [State.putY, loopOn_false hl, Bool.false_eq_true, if_false]
    exact ⟨x.tks, .of_modGang _ (by intro y; rfl) hx⟩
  | setCells n cells evs fp =>
    simp only [State.putY, mixed, Bool.false_eq_true, if_false]
    have put := mix.trans (.of_modGang (fun z => { z with yt := z.yt.modify n (fun t =>
      { t.formed fp (cells.map (·.1)) with cells := setCellList (x.yt.getD n {}).cells cells }) }) (by intro y; rfl) mix.gang)
    exact ⟨x.tks, put.trans (.of_modGang _ (by intro y; rfl) put.gang)⟩
  | store rows => exact ⟨_, .of_modGang _ (foldl_arrPut_id rows) hx⟩
  | evRd d v => exact (Becomes.refl hx).tks (.landLong ..)
  | evClr n mask => exact ⟨x.tks, .of_modGang _ (by intro y; rfl) hx⟩

/-- A tile operation that is due: what it writes, and that it is gone. -/
theorem tileOpComplete_written {s : State} {id : Nat} {o : Op} {k : TileOp} {names : List Nat} {x : Gang} (ho : s.op? id = some o)
    (hk : o.kind = .tile k names) (hdue : o.at_ ≤ s.opClk o) (hx : s.gang? o.gang = some x)
    (hq : ∀ q ∈ s.ops, q.gang = o.gang → q.id ≠ o.id → ∀ k n, q.kind ≠ .tile k n) (hl : ∀ q ∈ s.ops, ∀ l, q.kind ≠ .loop l) :
    ∃ t tks, exec (.tileOpComplete id) s = .next t ∧ t.op? id = none ∧ Becomes s t o.gang { written x k with tks := tks } := by
  have run : exec (.tileOpComplete id) s = .next ((s.tileDone o k).finishOp o) := by
    change execTileOpComplete id s = _
    simp only [execTileOpComplete, ho, hk, if_pos hdue]
  have kept : o.unwritten = false := by simp [Op.unwritten, hk]
  obtain ⟨tks, hdone⟩ := tileDone_written k hx hq hl
  obtain ⟨tks', hend⟩ := hdone.tks (.finishOp _ o kept)
  exact ⟨_, tks', run, op?_id ho ▸ op?_finishOp _ o kept, hend⟩

/-- Settles O35: a tile operation writes what `written` says and nothing else of its gang. -/
theorem tileOperationsComplete : Obligations.TileOperationsComplete := by
  intro s id o k names x ho hk hdue hx hq hl
  obtain ⟨t, tks, run, gone, hend⟩ := tileOpComplete_written ho hk hdue hx hq hl
  refine ⟨t, _, run, gone, hend.gang, hend.mem, hend.others, ?_⟩
  cases k with
  | store rows =>
    obtain ⟨hxt, hyt⟩ := foldl_arrPut_tiles rows x
    refine ⟨hxt, hyt, fun hwf => ⟨fun a ha => foldl_arrPut_outside hwf ha, fun r j hr hj => ?_⟩⟩
    subst hr
    exact get_put_inside _ _ _ _ hwf hj
  | yld n f rows =>
    refine ⟨⟨rfl, rfl⟩, rfl, ?_⟩
    simp only [written, cellsOfRows, List.flatMap_map]
    cases f <;> rfl
  | _ => exact ⟨⟨rfl, rfl⟩, rfl, rfl⟩

end Sys2Proof.GangFrames
end

-- Matrices through ports
section
/-! SUPPORT. Numbers packed one above the other, and what a tile takes through the port of another (R252, R262). -/

namespace Sys2Proof.TileWords

open Sys2Proof Sys2Proof.Machine Sys2Proof.Says Sys2Proof.Laws Sys2Proof.LaneState

/-! ### Numbers packed one above the other (R252) -/

/-- The first n values of a function, each in w bits, the first one lowest. -/
def packed (f : Nat → Nat) (w n : Nat) : Nat := (List.range n).reverse.foldl (fun (m : Nat) k => m * 2 ^ w + f k) 0

theorem packMatrix_eq (m : Matrix) (w : Nat) : packMatrix m w =
    BitVec.ofNat 65536 (packed (fun k => m.at_ (k / m.cols) (k % m.cols)) w (m.rows * m.cols)) := rfl

theorem foldl_packed (f : Nat → Nat) (w : Nat) (l : List Nat) (a : Nat) :
    l.foldl (fun (m : Nat) k => m * 2 ^ w + f k) a = 2 ^ (w * l.length) * a + l.foldl (fun (m : Nat) k => m * 2 ^ w + f k) 0 := by
  induction l generalizing a with
  | nil => simp
  | cons k l ih =>
    rw [List.foldl_cons, List.foldl_cons, ih, ih (0 * 2 ^ w + f k), List.length_cons]
    ring

theorem packed_succ (f : Nat → Nat) (w n : Nat) : packed f w (n + 1) = 2 ^ (w * n) * f n + packed f w n := by
  rw [packed, List.range_succ, List.reverse_append, List.reverse_singleton, List.singleton_append, List.foldl_cons, foldl_packed,
    List.length_reverse, List.length_range, Nat.zero_mul, Nat.zero_add]
  rfl

theorem packed_lt {f : Nat → Nat} {w n : Nat} (h : ∀ k, k < n → f k < 2 ^ w) : packed f w n < 2 ^ (w * n) := by
  induction n with
  | zero => exact Nat.one_pos
  | succ n ih =>
    have hn := h n (Nat.lt_succ_self n)
    have hp := ih fun k hk => h k (Nat.lt_succ_of_lt hk)
    rw [packed_succ, Nat.mul_succ, Nat.pow_add]
    calc 2 ^ (w * n) * f n + packed f w n < 2 ^ (w * n) * f n + 2 ^ (w * n) := by omega
      _ = 2 ^ (w * n) * (f n + 1) := by ring
      _ ≤ 2 ^ (w * n) * 2 ^ w := Nat.mul_le_mul_left _ hn

/-- Bit b of value k of packed numbers. -/
theorem testBit_packed {f : Nat → Nat} {w n k b : Nat} (h : ∀ k, k < n → f k < 2 ^ w) (hk : k < n) (hb : b < w) :
    (packed f w n).testBit (k * w + b) = (f k).testBit b := by
  induction n with
  | zero => exact absurd hk (Nat.not_lt_zero k)
  | succ n ih =>
    have low : packed f w n < 2 ^ (w * n) := packed_lt fun k hk => h k (Nat.lt_succ_of_lt hk)
    rw [packed_succ, Nat.testBit_two_pow_mul_add _ low]
    obtain hlt | rfl := Nat.lt_succ_iff_lt_or_eq.1 hk
    · have : k * w + b < w * n := by
        calc k * w + b < (k + 1) * w := by rw [Nat.succ_mul]; omega
          _ ≤ n * w := Nat.mul_le_mul_right w hlt
          _ = w * n := Nat.mul_comm ..
      rw [if_pos this, ih (fun k hk => h k (Nat.lt_succ_of_lt hk)) hlt]
    · rw [Nat.mul_comm w k, if_neg (by omega), Nat.add_sub_cancel_left]

/-! ### A matrix moved through a port (R252, R262) -/

/-- The code of an element that a port delivers. -/
theorem matrixOf_at (bits : BitVec 65536) (ctl : BitVec 64) (tr : Bool) {i j : Nat} (hi : i < (portShape ctl tr).2.1)
    (hj : j < (portShape ctl tr).2.2) : (matrixOf bits ctl tr).at_ i j =
      (bits.extractLsb' ((if tr then j * ctlCols ctl + i else i * ctlCols ctl + j) * ctlBits ctl) (ctlBits ctl)).toNat := by
  have inside : ∀ a b, a < ctlRows ctl → b < ctlCols ctl → a * ctlCols ctl + b < ctlRows ctl * ctlCols ctl := fun a b ha hb =>
    calc a * ctlCols ctl + b < (a + 1) * ctlCols ctl := by rw [Nat.succ_mul]; omega
      _ ≤ ctlRows ctl * ctlCols ctl := Nat.mul_le_mul_right _ ha
  cases tr with
  | true => exact (elements_getD ..).trans (if_pos (inside j i hj hi))
  | false => exact (elements_getD ..).trans (if_pos (inside i j hi hj))

theorem matrixOf_shape (bits : BitVec 65536) (ctl : BitVec 64) (tr : Bool) :
    (matrixOf bits ctl tr).rows = (portShape ctl tr).2.1 ∧ (matrixOf bits ctl tr).cols = (portShape ctl tr).2.2 := by
  cases tr <;> exact ⟨rfl, rfl⟩

theorem portShape_fmt (ctl : BitVec 64) (tr : Bool) : (portShape ctl tr).1 = ctlFmt ctl := by cases tr <;> rfl

/-- An element of a matrix that a tile takes through the port of another. -/
theorem packMatrix_element {q z : BitVec 64} {bits : BitVec 65536} {tr : Bool} (hshape : portShape z tr = (ctlFmt q, ctlRows q, ctlCols q))
    (hsize : ctlSize q ≤ 65536) {i j : Nat} (hi : i < ctlRows q) (hj : j < ctlCols q) :
    (packMatrix (matrixOf bits z tr) (ctlBits q)).extractLsb' ((i * ctlCols q + j) * ctlBits q) (ctlBits q) =
      bits.extractLsb' ((if tr then j * ctlCols z + i else i * ctlCols z + j) * ctlBits q) (ctlBits q) := by
  have hw : ctlBits z = ctlBits q := by
    rw [ctlBits, ctlBits, ← portShape_fmt z tr, hshape]
  obtain ⟨hrows, hcols⟩ := matrixOf_shape bits z tr
  have rows : (portShape z tr).2.1 = ctlRows q := by rw [hshape]
  have cols : (portShape z tr).2.2 = ctlCols q := by rw [hshape]
  rw [rows] at hrows
  rw [cols] at hcols
  have elem : ∀ i j, i < ctlRows q → j < ctlCols q → (matrixOf bits z tr).at_ i j =
      (bits.extractLsb' ((if tr then j * ctlCols z + i else i * ctlCols z + j) * ctlBits q) (ctlBits q)).toNat := fun i j hi hj => by
    rw [matrixOf_at bits z tr (rows ▸ hi) (cols ▸ hj), hw]
  have hpos : 0 < ctlCols q := Nat.succ_pos _
  have small : ∀ k, k < ctlRows q * ctlCols q → (matrixOf bits z tr).at_ (k / ctlCols q) (k % ctlCols q) < 2 ^ ctlBits q := fun k hk => by
    rw [elem _ _ (Nat.div_lt_of_lt_mul (by rwa [Nat.mul_comm])) (Nat.mod_lt _ hpos)]
    exact BitVec.isLt _
  have hk : i * ctlCols q + j < ctlRows q * ctlCols q :=
    calc i * ctlCols q + j < (i + 1) * ctlCols q := by rw [Nat.succ_mul]; omega
      _ ≤ ctlRows q * ctlCols q := Nat.mul_le_mul_right _ hi
  have hdiv : (i * ctlCols q + j) / ctlCols q = i := by
    rw [Nat.mul_comm, Nat.mul_add_div hpos, Nat.div_eq_of_lt hj, Nat.add_zero]
  have hmod : (i * ctlCols q + j) % ctlCols q = j := by
    rw [Nat.mul_comm, Nat.mul_add_mod, Nat.mod_eq_of_lt hj]
  refine BitVec.eq_of_getLsbD_eq fun b hb => ?_
  have fits : (i * ctlCols q + j) * ctlBits q + b < 65536 :=
    calc (i * ctlCols q + j) * ctlBits q + b < (i * ctlCols q + j + 1) * ctlBits q := by rw [Nat.succ_mul]; omega
      _ ≤ ctlRows q * ctlCols q * ctlBits q := Nat.mul_le_mul_right _ hk
      _ ≤ 65536 := hsize
  have left : (packMatrix (matrixOf bits z tr) (ctlBits q)).getLsbD ((i * ctlCols q + j) * ctlBits q + b) =
      ((bits.extractLsb' ((if tr then j * ctlCols z + i else i * ctlCols z + j) * ctlBits q) (ctlBits q)).toNat).testBit b := by
    rw [packMatrix_eq, hrows, hcols, BitVec.getLsbD_ofNat, testBit_packed small hk hb, hdiv, hmod, elem i j hi hj]
    simp only [fits, decide_true, Bool.true_and]
  rw [BitVec.getLsbD_extractLsb', left, BitVec.testBit_toNat]
  simp [hb]

end Sys2Proof.TileWords
end

-- Words on tiles
section
/-! SUPPORT. The checks of the tile path where nothing is locked and no window stands in the way (R255), and what each tile word without arithmetic comes to (R253, R260 to R262, R277, R278). -/

namespace Sys2Proof.TileWords

open Sys2Proof Sys2Proof.Machine Sys2Proof.Says Sys2Proof.Laws Sys2Proof.LaneState

/-! ### The tile path (R255, R257 to R261) -/

/-- No lock of the core, and no window of the gang that is filled from elsewhere. -/
structure Open (s : State) (c : Ctx) : Prop where
  locks   : (s.core c.core).locks = []
  windows : ∀ x, s.gang? c.g = some x → ∀ w ∈ x.windows, w = none

theorem touched_none {x : Gang} (h : ∀ w ∈ x.windows, w = none) (rs : List (Nat × Nat)) : x.touched rs = [] := by
  have none_there : x.windows.zipIdx.filterMap (fun e => e.1.map (fun w => (e.2, w))) = [] := by
    rw [List.filterMap_eq_nil_iff]
    intro e he
    rw [h e.1 (List.fst_mem_of_mem_zipIdx he)]
    rfl
  rw [Gang.touched, none_there]
  rfl

theorem touch_none {s : State} {c : Ctx} (h : ∀ x, s.gang? c.g = some x → ∀ w ∈ x.windows, w = none) (rs : List (Nat × Nat)) :
    c.touch s rs = none := by
  unfold Ctx.touch
  cases hx : s.gang? c.g with
  | none => rfl
  | some x => rw [Option.map_some, touched_none (h x hx)]

theorem lockHit_none {s : State} {c : Ctx} (h : (s.core c.core).locks = []) (glob writes : Bool) (lo n : Nat) :
    c.lockHit s glob writes lo n = false := by
  rw [Ctx.lockHit, h]
  rfl

theorem pathArgs_base (v : BitVec 64) : (pathArgs v).base = v.toNat % 2 ^ 32 := by simp [pathArgs]

theorem pathArgs_pitch (v : BitVec 64) : (pathArgs v).pitch = v.toNat / 2 ^ 32 % 2 ^ 16 := by
  simp [pathArgs, Nat.shiftRight_eq_div_pow]

theorem reserved_iff (v : BitVec 64) : (v.extractLsb' 48 16 != 0) = decide (2 ^ 48 ≤ v.toNat) := by
  rw [Bool.eq_iff_iff, decide_eq_true_iff, bne_iff_ne, ne_eq, ← BitVec.toNat_inj]
  have := v.isLt
  simp [Nat.shiftRight_eq_div_pow]
  omega

/-- The checks of a tile-path access where nothing is locked and no window stands in the way. -/
theorem pathCheck_open {s : State} {c : Ctx} (h : Open s c) (v : BitVec 64) (rows len : Nat) (writes : Bool) :
    c.pathCheck s v rows len writes =
      if 2 ^ 48 ≤ v.toNat then some (c.trap .qerr)
      else if c.x.foot.sp < v.toNat % 2 ^ 32 + (rows - 1) * (v.toNat / 2 ^ 32 % 2 ^ 16) + len then some (c.trap .prot (v.toNat % 2 ^ 32))
      else if v.toNat % 2 ^ 32 % 4 ≠ 0 ∨ v.toNat / 2 ^ 32 % 2 ^ 16 % 4 ≠ 0 then some (c.trap .align (v.toNat % 2 ^ 32))
      else none := by
  unfold Ctx.pathCheck
  simp only [pathArgs_base, pathArgs_pitch, reserved_iff, decide_eq_true_eq, lockHit_none h.locks, touch_none h.windows,
    Bool.false_eq_true, if_false, Bool.or_eq_true, bne_iff_ne]

/-- A word whose accesses of the tile path are checked, and then made. -/
theorem path_of {i : Instr} {s : State} {t : Tail} {c : Ctx} {v : BitVec 64} {rows len : Nat} {writes : Bool} {r : Res}
    (h : Open (spent s) c) (run : exec i s = c.finish t (spent s) ((c.pathCheck (spent s) v rows len writes).getD r)) :
    let base := v.toNat % 2 ^ 32
    let pitch := v.toNat / 2 ^ 32 % 2 ^ 16
    let hi := base + (rows - 1) * pitch + len
    (2 ^ 48 ≤ v.toNat → exec i s = trapped c s .qerr c.act 0 0) ∧
    (v.toNat < 2 ^ 48 → c.x.foot.sp < hi → exec i s = trapped c s .prot c.act base 0) ∧
    (v.toNat < 2 ^ 48 → hi ≤ c.x.foot.sp → base % 4 ≠ 0 ∨ pitch % 4 ≠ 0 → exec i s = trapped c s .align c.act base 0) ∧
    (v.toNat < 2 ^ 48 → hi ≤ c.x.foot.sp → base % 4 = 0 → pitch % 4 = 0 → exec i s = c.finish t (spent s) r) := by
  intro base pitch hi
  rw [pathCheck_open h] at run
  refine ⟨fun h1 => ?_, fun h1 h2 => ?_, fun h1 h2 h3 => ?_, fun h1 h2 h3 h4 => ?_⟩
  · rw [run, if_pos h1]; rfl
  · rw [run, if_neg (Nat.not_le_of_lt h1), if_pos h2]; rfl
  · rw [run, if_neg (Nat.not_le_of_lt h1), if_neg (Nat.not_lt_of_le h2), if_pos h3]; rfl
  · rw [run, if_neg (Nat.not_le_of_lt h1), if_neg (Nat.not_lt_of_le h2), if_neg (by rintro (h | h) <;> contradiction)]; rfl

theorem rowReads_eq (v : BitVec 64) (start rows len : Nat) :
    rowReads start (pathArgs v).base (pathArgs v).pitch rows len = (List.range rows).map (fun i =>
      ({ at_ := start + 10 + i + i * ((len / 4 + 63) / 64 - 1),
         addr := (v.toNat % 2 ^ 32 + i * (v.toNat / 2 ^ 32 % 2 ^ 16)) % 2 ^ 32, len := len } : RowRead)) := by
  unfold rowReads rowExtra
  refine List.map_congr_left fun i _ => ?_
  rw [pathArgs_base, pathArgs_pitch]
  congr 1

/-! ### Words on x tiles (R253, R260, R262) -/

section
variable {s : State} {t : Tail} {c : Ctx} (h : Acts s t c)
include h

theorem xtile_absent {x : BitVec 5} (hx : c.x.x? x = none) (a : USrc) (g : BitVec 6) :
    exec (.xzero t x) s = trapped c s .shape c.act 0 0 ∧ exec (.xshape t x a) s = trapped c s .shape c.act 0 0 ∧
    exec (.xld t x g) s = trapped c s .shape c.act 0 0 ∧ exec (.xst t x g) s = trapped c s .shape c.act 0 0 := by
  refine ⟨?_, ?_, ?_, ?_⟩
  · change execXzero t x s = _
    simp only [execXzero, tileIssue_of h, hx]; rfl
  · change execXshape t x a s = _
    simp only [execXshape, tileIssue_of h, hx]; rfl
  · change execXld t x g s = _
    simp only [execXld, tileIssue_of h, hx]; rfl
  · change execXst t x g s = _
    simp only [execXst, tileIssue_of h, hx]; rfl

theorem xzero_sends {x : BitVec 5} {q : XTile} (hx : c.x.x? x = some q) : exec (.xzero t x) s =
    retired t c (inFlight c (spent s) 4 (.tile (.setX x.toNat 65536 0) [x.toNat])) true := by
  change execXzero t x s = _
  simp only [execXzero, tileIssue_of h, hx]; rfl

theorem xshape_invalid {x : BitVec 5} {q : XTile} {a : USrc} (hx : c.x.x? x = some q) (hv : ctlValid (c.tk.uval a) = false) :
    exec (.xshape t x a) s = trapped c s .shape c.act 0 0 := by
  change execXshape t x a s = _
  simp only [execXshape, tileIssue_of h, hx, hv]; rfl

theorem xshape_named {x : BitVec 5} {q : XTile} {a : USrc} (hx : c.x.x? x = some q) (hv : ctlValid (c.tk.uval a) = true)
    (hn : (spent s).tileNamed c.g x.toNat = true) (hl : (spent s).loopOn c.g x.toNat = false) :
    exec (.xshape t x a) s = trapped c s .shape c.act 0 0 := by
  change execXshape t x a s = _
  simp only [execXshape, tileIssue_of h, hx, hv, hn, hl]; rfl

theorem xshape_sends {x : BitVec 5} {q : XTile} {a : USrc} (hx : c.x.x? x = some q) (hv : ctlValid (c.tk.uval a) = true)
    (hn : (spent s).tileNamed c.g x.toNat = false) : exec (.xshape t x a) s = retired t c ((spent s).addOp (fun id =>
      { id := id, gang := c.g, tk := c.t, slot := c.k, core := some c.core, at_ := c.clk + 2, mask := c.act,
        kind := .tile (.setCtl x.toNat (c.tk.uval a)) [] })).1 false := by
  change execXshape t x a s = _
  simp only [execXshape, tileIssue_of h, hx, hv, hn]; rfl

/-- A shape whose rows are not whole words has no tile path. -/
theorem xpath_unshaped {x : BitVec 5} {q : XTile} (g : BitVec 6) (hx : c.x.x? x = some q)
    (hw : ctlBits q.ctl = 0 ∨ ctlCols q.ctl * ctlBits q.ctl % 32 ≠ 0) :
    exec (.xld t x g) s = trapped c s .shape c.act 0 0 ∧ exec (.xst t x g) s = trapped c s .shape c.act 0 0 := by
  have bad : (ctlBits q.ctl == 0 || ctlCols q.ctl * ctlBits q.ctl % 32 != 0) = true := by simpa using hw
  refine ⟨?_, ?_⟩
  · change execXld t x g s = _
    simp only [execXld, tileIssue_of h, hx, bad]; rfl
  · change execXst t x g s = _
    simp only [execXst, tileIssue_of h, hx, bad]; rfl

theorem xst_overlapping {x : BitVec 5} {q : XTile} (g : BitVec 6) (hx : c.x.x? x = some q) (hr : 1 < ctlRows q.ctl)
    (hp : (c.tk.g.getD g.toNat 0).toNat / 2 ^ 32 % 2 ^ 16 < ctlCols q.ctl * ctlBits q.ctl / 8) :
    exec (.xst t x g) s = trapped c s .shape c.act 0 0 := by
  rw [← pathArgs_pitch] at hp
  have bad : (ctlBits q.ctl == 0 || ctlCols q.ctl * ctlBits q.ctl % 32 != 0 ||
      (decide (1 < ctlRows q.ctl) && decide ((pathArgs (c.tk.greg g.toNat)).pitch < ctlCols q.ctl * ctlBits q.ctl / 8))) = true := by
    simp only [Tussock.greg, hr, hp, decide_true, Bool.and_self, Bool.or_true]
  change execXst t x g s = _
  simp only [execXst, tileIssue_of h, hx, bad]; rfl

theorem xld_run {x : BitVec 5} {q : XTile} (g : BitVec 6) (hi : s.dev.injs = []) (hx : c.x.x? x = some q) (hw : ctlBits q.ctl ≠ 0)
    (hc : ctlCols q.ctl * ctlBits q.ctl % 32 = 0) :
    let v := c.tk.g.getD g.toNat 0
    let rows := ctlRows q.ctl
    let len := ctlCols q.ctl * ctlBits q.ctl / 8
    exec (.xld t x g) s = c.finish t (spent s) ((c.pathCheck (spent s) v rows len false).getD
      (.next (c.tileOp (spent s) (c.clk + pathClocks rows len)
        (.xld x.toNat (rowReads c.clk (pathArgs v).base (pathArgs v).pitch rows len)) [x.toNat]) true)) := by
  intro v rows len
  have good : (ctlBits q.ctl == 0 || ctlCols q.ctl * ctlBits q.ctl % 32 != 0) = false := by simp [hw, hc]
  change execXld t x g s = _
  simp only [execXld, tileIssue_of h, hx, good, Bool.false_eq_true, if_false]
  cases hp : c.pathCheck (spent s) v rows len false with
  | some r => simp only [v, rows, len, Tussock.greg] at hp ⊢; rw [hp]; rfl
  | none => simp only [v, rows, len, Tussock.greg] at hp ⊢; rw [hp, eccRows_quiet (s := spent s) c hi]; rfl

theorem xst_run {x : BitVec 5} {q : XTile} (g : BitVec 6) (hq : Quiet s c.g) (hi : s.dev.injs = []) (hx : c.x.x? x = some q)
    (hw : ctlBits q.ctl ≠ 0) (hc : ctlCols q.ctl * ctlBits q.ctl % 32 = 0)
    (hp : ctlRows q.ctl ≤ 1 ∨ ctlCols q.ctl * ctlBits q.ctl / 8 ≤ (c.tk.g.getD g.toNat 0).toNat / 2 ^ 32 % 2 ^ 16) :
    let v := c.tk.g.getD g.toNat 0
    let rows := ctlRows q.ctl
    let len := ctlCols q.ctl * ctlBits q.ctl / 8
    exec (.xst t x g) s = c.finish t (spent s) ((c.pathCheck (spent s) v rows len true).getD
      (.next (c.tileOp (spent s) (c.clk + pathClocks rows len) (.store ((List.range rows).map (fun i =>
        ((pathArgs v).base + i * (pathArgs v).pitch, bytesOfNat len (q.bits.toNat / 2 ^ (8 * len * i)))))) [x.toNat]) true)) := by
  intro v rows len
  rw [← pathArgs_pitch] at hp
  have good : (ctlBits q.ctl == 0 || ctlCols q.ctl * ctlBits q.ctl % 32 != 0 ||
      (decide (1 < ctlRows q.ctl) && decide ((pathArgs (c.tk.greg g.toNat)).pitch < ctlCols q.ctl * ctlBits q.ctl / 8))) = false := by
    simp only [Tussock.greg, Bool.or_eq_false_iff, Bool.and_eq_false_iff, beq_eq_false_iff_ne, bne_eq_false_iff_eq, decide_eq_false_iff_not,
      Nat.not_lt]
    exact ⟨⟨hw, hc⟩, hp.imp_right fun h => decide_eq_false (Nat.not_lt_of_le h)⟩
  change execXst t x g s = _
  simp only [execXst, tileIssue_of h, hx, good, Bool.false_eq_true, if_false]
  cases hp : c.pathCheck (spent s) v rows len true with
  | some r => simp only [v, rows, len, Tussock.greg] at hp ⊢; rw [hp]; rfl
  | none => simp only [v, rows, len, Tussock.greg] at hp ⊢; rw [hp, readX_quiet (s := spent s) hq hi]; rfl

theorem xmov_unshaped {xd xs : BitVec 5} {q z : XTile} {tr : Bool} (hx : c.x.x? xd = some q) (hz : c.x.x? xs = some z)
    (hw : ctlBits q.ctl = 0 ∨ portShape z.ctl tr ≠ (ctlFmt q.ctl, ctlRows q.ctl, ctlCols q.ctl)) :
    exec (.xmov t xd xs tr) s = trapped c s .shape c.act 0 0 := by
  have bad : (ctlBits q.ctl == 0 || portShape z.ctl tr != portShape q.ctl false) = true := by simpa [portShape] using hw
  change execXmov t xd xs tr s = _
  simp only [execXmov, tileIssue_of h, hx, hz, bad]; rfl

theorem xmov_sends {xd xs : BitVec 5} {q z : XTile} {tr : Bool} (hq : Quiet s c.g) (hi : s.dev.injs = []) (hx : c.x.x? xd = some q)
    (hz : c.x.x? xs = some z) (hw : ctlBits q.ctl ≠ 0) (hp : portShape z.ctl tr = (ctlFmt q.ctl, ctlRows q.ctl, ctlCols q.ctl)) :
    exec (.xmov t xd xs tr) s = retired t c (inFlight c (spent s) (8 + (ctlSize q.ctl + 2047) / 2048)
      (.tile (.setX xd.toNat (ctlSize q.ctl) (packMatrix (matrixOf z.bits z.ctl tr) (ctlBits q.ctl))) [xd.toNat, xs.toNat])) true := by
  have good : (ctlBits q.ctl == 0 || portShape z.ctl tr != portShape q.ctl false) = false := by
    have hs : portShape q.ctl false = (ctlFmt q.ctl, ctlRows q.ctl, ctlCols q.ctl) := rfl
    simp [hw, hp, hs]
  change execXmov t xd xs tr s = _
  simp only [execXmov, tileIssue_of h, hx, hz, good, Bool.false_eq_true, if_false, readX_quiet (s := spent s) hq hi, Nat.add_assoc]
  rfl

/-! ### Words on y tiles (R261, R262, R277, R278) -/

theorem ytile_absent {y : BitVec 4} (hy : c.x.y? y = none) (g : BitVec 6) (cf : Bool) (d : Dst) (mask : BitVec 5) :
    exec (.yzero t y) s = trapped c s .shape c.act 0 0 ∧ exec (.yld t y g cf) s = trapped c s .shape c.act 0 0 ∧
    exec (.yst t y g cf) s = trapped c s .shape c.act 0 0 ∧ exec (.mwait t y) s = trapped c s .shape c.act 0 0 ∧
    exec (.yevtRd t d y) s = trapped c s .shape c.act 0 0 ∧ exec (.yevtClr t y mask) s = trapped c s .shape c.act 0 0 := by
  refine ⟨?_, ?_, ?_, ?_, ?_, ?_⟩
  · change execYzero t y s = _
    simp only [execYzero, tileIssue_of h, hy]; rfl
  · change execYld t y g cf s = _
    simp only [execYld, tileIssue_of h, hy]; rfl
  · change execYst t y g cf s = _
    simp only [execYst, tileIssue_of h, hy]; rfl
  · change execMwait t y s = _
    simp only [execMwait, tileIssue_of h, hy]; rfl
  · change execYevtRd t d y s = _
    simp only [execYevtRd, tileIssue_of h, hy]; rfl
  · change execYevtClr t y mask s = _
    simp only [execYevtClr, tileIssue_of h, hy]; rfl

theorem yzero_sends {y : BitVec 4} {q : YTile} (hy : c.x.y? y = some q) : exec (.yzero t y) s = retired t c (inFlight c (spent s) 4
    (.tile (.setCells y.toNat ((List.range 4096).map (fun i => (i, 0))) [] none) [32 + y.toNat])) true := by
  change execYzero t y s = _
  simp only [execYzero, tileIssue_of h, hy]; rfl

theorem yevtRd_sends {y : BitVec 4} {q : YTile} (hy : c.x.y? y = some q) (d : Dst) : exec (.yevtRd t d y) s =
    retired t c (inFlight c (spent s) 4 (.tile (.evRd (goesTo d 1) q.events) [32 + y.toNat])) true := by
  change execYevtRd t d y s = _
  simp only [execYevtRd, tileIssue_of h, hy]
  cases d <;> rfl

theorem yevtClr_sends {y : BitVec 4} {q : YTile} (hy : c.x.y? y = some q) (mask : BitVec 5) : exec (.yevtClr t y mask) s =
    retired t c (inFlight c (spent s) 4 (.tile (.evClr y.toNat mask) [32 + y.toNat])) true := by
  change execYevtClr t y mask s = _
  simp only [execYevtClr, tileIssue_of h, hy]; rfl

theorem mwait_passes {y : BitVec 4} {q : YTile} (hy : c.x.y? y = some q)
    (hw : c.mwaitOps (spent s) y.toNat = [] ∨ c.sl.phase.started = true) : exec (.mwait t y) s =
    retired t c ((spent s).raise c.g c.t c.act (splat (flagsOfEvents q.events)) 0) false := by
  have done : (!(c.mwaitOps (spent s) y.toNat).isEmpty && !c.sl.phase.started) = false := by
    obtain hw | hw := hw <;> simp [hw]
  change execMwait t y s = _
  simp only [execMwait, tileIssue_of h, hy, done]; rfl

theorem mwait_stalls {y : BitVec 4} {q : YTile} (hy : c.x.y? y = some q) (hw : c.mwaitOps (spent s) y.toNat ≠ [])
    (hs : c.sl.phase.started = false) : exec (.mwait t y) s = .next ((spent s).modSlot c.g c.t c.k (fun z =>
      { z with phase := { z.phase with started := true }, stall := some (.drain (c.mwaitOps (spent s) y.toNat) 0) })) := by
  have waits : (!(c.mwaitOps (spent s) y.toNat).isEmpty && !c.sl.phase.started) = true := by
    simp [hs, hw]
  change execMwait t y s = _
  simp only [execMwait, tileIssue_of h, hy, waits, if_true, Ctx.finish, modSlot_modSlot]

theorem yld_run {y : BitVec 4} {q : YTile} (g : BitVec 6) (cf : Bool) (hi : s.dev.injs = []) (hy : c.x.y? y = some q) :
    let v := c.tk.g.getD g.toNat 0
    exec (.yld t y g cf) s = c.finish t (spent s) ((c.pathCheck (spent s) v 64 (yRowBytes cf) false).getD
      (.next (c.tileOp (spent s) (c.clk + pathClocks 64 (yRowBytes cf))
        (.yld y.toNat cf (rowReads c.clk (pathArgs v).base (pathArgs v).pitch 64 (yRowBytes cf))) [yCode y.toNat]) true)) := by
  intro v
  change execYld t y g cf s = _
  simp only [execYld, tileIssue_of h, hy]
  cases hp : c.pathCheck (spent s) v 64 (yRowBytes cf) false with
  | some r => simp only [v, Tussock.greg] at hp ⊢; rw [hp]; rfl
  | none => simp only [v, Tussock.greg] at hp ⊢; rw [hp, eccRows_quiet (s := spent s) c hi]; rfl

theorem yst_overlapping {y : BitVec 4} {q : YTile} (g : BitVec 6) (cf : Bool) (hy : c.x.y? y = some q)
    (hp : (c.tk.g.getD g.toNat 0).toNat / 2 ^ 32 % 2 ^ 16 < yRowBytes cf) : exec (.yst t y g cf) s = trapped c s .shape c.act 0 0 := by
  have hlow : (pathArgs (c.tk.greg g.toNat)).pitch < yRowBytes cf := by rw [pathArgs_pitch]; exact hp
  change execYst t y g cf s = _
  simp only [execYst, tileIssue_of h, hy, if_pos hlow]; rfl

/-- The form in which YST reads cells. -/
def storeForm (cf : Bool) : Option Bool := if cf then some true else none

/-- The rows that YST writes. -/
def storeRows (v : BitVec 64) (cf : Bool) (cells : List (BitVec 40)) : List (Nat × List Byte) :=
  (List.range 64).map (fun i => ((pathArgs v).base + i * (pathArgs v).pitch, ((cells.drop (64 * i)).take 64).flatMap (fun q =>
    if cf then bytesOfNat 4 (q.toNat % 2 ^ 32) else bytesOfNat 8 q.toNat)))

theorem yst_run {y : BitVec 4} {q : YTile} (g : BitVec 6) (cf : Bool) (hq : Quiet s c.g) (hi : s.dev.injs = [])
    (hy : c.x.y? y = some q) (hp : yRowBytes cf ≤ (c.tk.g.getD g.toNat 0).toNat / 2 ^ 32 % 2 ^ 16) :
    let v := c.tk.g.getD g.toNat 0
    let r := q.readAs (storeForm cf) s.seed
    exec (.yst t y g cf) s = c.finish t (spent s) ((c.pathCheck (spent s) v 64 (yRowBytes cf) true).getD
      (.next (c.tileOp { spent s with seed := s.seed + r.2 } (c.clk + pathClocks 64 (yRowBytes cf))
        (.store (storeRows v cf r.1)) [yCode y.toNat]) true)) := by
  intro v r
  have hlow : ¬ (pathArgs (c.tk.greg g.toNat)).pitch < yRowBytes cf := by rw [pathArgs_pitch]; exact Nat.not_lt_of_le hp
  change execYst t y g cf s = _
  simp only [execYst, tileIssue_of h, hy, if_neg hlow]
  cases hc : c.pathCheck (spent s) v 64 (yRowBytes cf) true with
  | some r => simp only [v, Tussock.greg] at hc ⊢; rw [hc]; rfl
  | none => simp only [v, Tussock.greg] at hc ⊢; rw [hc, readY_quiet (s := spent s) hq hi]; rfl

end

end Sys2Proof.TileWords
end

-- Proof of the statement on tile movement (spec/04_number_formats.md)
section
/-! SUPPORT. The tile words without arithmetic, put together. -/

namespace Sys2Proof.TileWords

open Sys2Proof Sys2Proof.Machine Sys2Proof.Says Sys2Proof.Laws Sys2Proof.LaneState

theorem storeRows_eq (v : BitVec 64) (cf : Bool) (cells : List (BitVec 40)) : storeRows v cf cells = (List.range 64).map (fun i =>
    (v.toNat % 2 ^ 32 + i * (v.toNat / 2 ^ 32 % 2 ^ 16), ((cells.drop (64 * i)).take 64).flatMap (fun q =>
      if cf then bytesOfNat 4 (q.toNat % 2 ^ 32) else bytesOfNat 8 q.toNat))) := by
  rw [storeRows, pathArgs_base, pathArgs_pitch]

/-- Settles O32, word by word. -/
theorem tileMovement : Obligations.TileMovement := by
  intro t xd xs y a g tr cf d mask s c h hq hi hlocks hwin sends shape v base pitch path reads
  have hopen : Open (spent s) c := ⟨hlocks, hwin⟩
  refine ⟨fun hx => xtile_absent h hx a g, fun hy => ytile_absent h hy g cf d mask, fun q hx => ?_, fun q hy => ?_⟩
  · intro w rows len row
    refine ⟨xzero_sends h hx, xshape_invalid h hx, xshape_named h hx, xshape_sends h hx, xpath_unshaped h g hx, fun hw hc => ?_, fun z hz => ?_⟩
    · refine ⟨?_, xst_overlapping h g hx, fun hp => ?_⟩
      · have run := path_of hopen (xld_run h g hi hx hw hc)
        rw [rowReads_eq] at run
        exact run
      · have run := path_of hopen (xst_run h g hq hi hx hw hc hp)
        rw [pathArgs_base, pathArgs_pitch] at run
        exact run
    · exact ⟨xmov_unshaped h hx hz, fun hw hp hsize => ⟨_, xmov_sends h hq hi hx hz hw hp, fun i j ri rj => packMatrix_element hp hsize ri rj⟩⟩
  · intro code rb bytes row here
    refine ⟨yzero_sends h hy, ?_, yst_overlapping h g cf hy, fun hp hf => ?_, fun hp hf hh => ?_, yevtRd_sends h hy d, yevtClr_sends h hy mask,
      mwait_passes h hy, mwait_stalls h hy⟩
    · have run := path_of hopen (yld_run h g cf hi hy)
      rw [rowReads_eq] at run
      exact run
    · have run := path_of hopen (yst_run h g cf hq hi hy hp)
      have plain : q.readAs (storeForm cf) s.seed = (q.cells, 0) := by
        cases cf with
        | false => exact readAs_none q _
        | true => exact readAs_plain q _ (hf.resolve_left (by decide))
      rw [plain, storeRows_eq] at run
      exact run
    · subst hf
      obtain ⟨-, -, -, run⟩ := path_of hopen (yst_run h g true hq hi hy hp)
      obtain ⟨h1, h2, h3, h4⟩ := hh
      refine ⟨_, (q.readAs (some true) s.seed).1, c.clk + pathClocks 64 256, run h1 h2 h3 h4, ⟨rfl, rfl, rfl, rfl, rfl, rfl, rfl⟩, reads_readAs q true _, ?_⟩
      rw [storeRows_eq]
      rfl

end Sys2Proof.TileWords
end

-- Refutation of the statement on shuffles, merges and loops (spec/04_number_formats.md)
section
/-! SUPPORT. A merge whose record is pushed to its own gang, when an error in the subscription table ends that gang's fault domain (R120, R438). -/

namespace Sys2Proof.MergeAbort

open Sys2Proof Sys2Proof.Machine Sys2Proof.Says

/-! ### A merge whose record is pushed to a subscriber that an error ends

The write of the record makes a push to every subscription of its location (R120), for which the home reads the subscription table
through ECC; an error that lasts there ends the subscribers' fault domains (R438). Here the merge's own gang subscribes to the place of
its record: its domain ends, and the merge with it, where the statement has the merge stand with its record written. -/

/-- The merge of two empty lists, and its operation. -/
def emptyMerge : Merge := wMerge 0 0
def mergeOp : Op := wOp (.merge emptyMerge)

/-- Where its record lies in memory, and the subscription of its own gang to that place. -/
def recordPa : Nat := 0x200400
def recordSub : SubEntry := { addr := recordPa, home := 0, subs := [{ gang := 1, slot := 0 }] }

/-- Two bits of that entry of the subscription table stay inverted. -/
def tableError : Inj := { array := 6, home := 0, persist := true, addr := 0x200400, mask := 3 }

/-- The state in which the merge takes its last turn. -/
def doomed : State :=
  let s := wRun (.merge emptyMerge)
  { s with subs := [recordSub], dev := { s.dev with injs := [tableError] } }

theorem record_address : ∃ q, doomed.mergeAddr mergeOp emptyMerge (wGang wTk) wPart 0 emptyMerge.st .write = .ok q ∧ q.2 = recordPa :=
  gets (by decide +kernel)

/-- The turn goes through, and the merge is gone. -/
theorem merge_gone : ∃ u, exec (.mrgkComplete 0) doomed = .next u ∧ (u.op? 0).isNone = true := nextWhere (by decide +kernel)

/-- Refutes O40: the merge that takes its last turn in `doomed` does not stand afterwards with its record written, since its gang's fault
domain has ended. -/
theorem not_shufflesMergesAndLoops : ¬ Obligations.ShufflesMergesAndLoops := by
  intro h
  obtain ⟨-, hmerge, -⟩ := h
  obtain ⟨hends, -⟩ := hmerge doomed 0 0 mergeOp emptyMerge (wGang wTk) wPart rfl rfl rfl rfl rfl rfl rfl (by decide +kernel) (by decide +kernel)
  obtain ⟨⟨s2, a⟩, haddr, -⟩ := record_address
  obtain ⟨u, o', hrun, hop, -⟩ := hends (by decide) (by decide) (by decide) rfl rfl (Nat.le_refl 0) (Nat.le_refl 0)
    ⟨.inr (by decide), .inr (by decide)⟩ s2 a haddr
  obtain ⟨u', hrun', hgone⟩ := merge_gone
  obtain rfl : u = u' := Host.Outcome.next.inj (hrun.symm.trans hrun')
  rw [hop] at hgone
  exact Bool.false_ne_true hgone

end Sys2Proof.MergeAbort
end

-- Refutations of statements on memory as kernels see it (spec/05_memory_as_kernels_see_it.md)
section
/-! SUPPORT. Statements on performed accesses, subscriptions and page moves that ask for more than their hypotheses give. -/

namespace Sys2Proof.KernelMemoryLimits

open Sys2Proof Sys2Proof.Machine Sys2Proof.Says Sys2Proof.LaneState

/-! ### The last atomic of a gang that has ended

A gang whose tussocks have all ended keeps its resources until its stores and atomics are performed; with the last of them it is gone
(R34, R369). -/

/-- An atomic add whose one access has been performed, and which is to deliver nothing. -/
def lastAtomOp : Op :=
  { id := 0, gang := 1, tk := 0, slot := 0, core := some 0, at_ := 0, mask := 1
    kind := .atom .none [{ lane := 0, glob := true, addr := 0, size := 4, act := .rmw 0 1, at_ := 0, done := true }] false }

/-- The machine in which the gang's resources wait for that atomic. -/
def atomAfterEnd : State := { State.reset with gangs := [endedGang], ops := [lastAtomOp] }

theorem lastAtom_releases_gang : ∃ t, exec (.loadComplete 0) atomAfterEnd = .next t ∧ t.tk? 1 0 = none := by
  refine ⟨_, rfl, ?_⟩
  decide +kernel

/-- Refutes O25: a load or atomic that completes is to leave its tussock in the state, but the last atomic of a gang that has ended
releases the gang with all its tussocks. -/
theorem not_accessesArePerformed : ¬ Obligations.AccessesArePerformed := by
  intro h
  obtain ⟨⟨-, completes⟩, -⟩ := h
  obtain ⟨t, y, run, -, here, -⟩ := completes atomAfterEnd 0 lastAtomOp _ _ false false true _
    rfl rfl (by decide) (by decide) rfl (by decide)
  obtain ⟨t', run', gone⟩ := lastAtom_releases_gang
  obtain rfl : t' = t := Host.Outcome.next.inj (run'.symm.trans run)
  exact Option.some_ne_none y (here.symm.trans gone)

/-! ### A SUBL that registers at a page that moves

The entries of a page that is moving take no pushes (R404), and registering a subscription passes them over as well: a location whose
entry is full then gets an entry of its own (R119). -/

/-- A location of global memory, and the page-table entry that its subscribers came through. -/
def movingLocation : Nat := 0x200000
def movingLeaf : Nat := 0x100

/-- Sixteen subscriptions of another gang to the location. -/
def fullEntry : SubEntry :=
  { addr := movingLocation, subs := (List.range 16).map (fun k => { gang := 2, slot := 16 * k, leaf := movingLeaf }) }

/-- A SUBL of gang 1 in lane 0, to the location and slot 0 of its scratchpad. -/
def movingSubl : Op := { wOp (.subl [(0, movingLocation, 0, 0)]) with who := some (0, 0) }

/-- The plain machine with that SUBL due, where the entry 0x100 says that its page moves. -/
def subscribesMoving : State :=
  { wOps [movingSubl] with mem := Memory.write [] movingLeaf 8 0x20, subs := [fullEntry] }

theorem movingSubl_registers :
    ∃ t, exec (.loadComplete 0) subscribesMoving = .next t ∧ t.subs ≠ subscribesMoving.subs := by
  refine ⟨_, rfl, ?_⟩
  decide +kernel

/-- Refutes O30: a location whose entry holds sixteen subscribers is to take no further one, but where the entry's page is moving the
SUBL does not see it and registers beside it. -/
theorem not_subscriptions : ¬ Obligations.Subscriptions := by
  intro h
  obtain ⟨-, -, -, completes⟩ := h
  obtain ⟨t, x, y, run, -, -, -, -, -, refused⟩ := completes subscribesMoving 0 0 movingLocation 0 0 movingSubl (wGang wTk) wTk wPart _
    rfl rfl (by decide) rfl rfl rfl (by decide) rfl rfl (by decide) rfl
  have full : ¬ fullEntry.subs.length < 16 := by decide
  obtain ⟨-, same, -⟩ := refused (fun room => full room.2)
  obtain ⟨t', run', differs⟩ := movingSubl_registers
  obtain rfl : t' = t := Host.Outcome.next.inj (run'.symm.trans run)
  exact differs same

/-! ### A page move that takes a frame from a pool whose head is watched

Taking a frame writes the head of the near pool (R399), and that write pushes to the subscribers of its word (R120), for which the home
reads the subscription table through ECC; an error that lasts there ends the subscribers' fault domains with their tasks (R438). -/

/-- The tables of `loadTables` with the page 0x1_0000 in far memory, and a near pool of one frame. -/
def farPage : Memory := ((loadTables []).write 0x142008 8 (2 ^ 52 + 7)).write 0x100004 4 1

/-- The one portion of a MIGR of that page. -/
def migrOp : Op := { wOp (.migrQueued 0x10000 1 1 []) with who := some (0, 0) }

/-- The machine in which the portion comes to its judgement: gang 1 subscribes to the head of the pool, and two bits of the subscription
table's entry for it stay inverted. -/
def migratesWatched : State :=
  let s := wOps [migrOp]
  { s with
    mem := farPage
    subs := [{ addr := 0x100000, subs := [{ gang := 1, slot := 0 }] }]
    dev := { s.dev with injs := [{ array := 6, home := 0, persist := true, addr := 0x100000, mask := 3 }] } }

theorem migr_ends_task : ∃ u, exec (.loadComplete 0) migratesWatched = .next u ∧ u.tasks ≠ migratesWatched.tasks := by
  refine ⟨_, rfl, ?_⟩
  decide +kernel

theorem farPage_walk : walk migratesWatched.mem wPart 0 0x10000 .host true =
    .pa (2 ^ 52) (2 ^ 52) 65536 0x142008 false true false [0, 0x2800, 0x2820, 0x2840] := by
  decide +kernel

/-- Refutes O42: the move of a page to near memory is to leave every task as it was, but no hypothesis supposes sound storage, and the
write that takes the frame can meet a lost entry of the subscription table, which ends its subscriber's tasks. -/
theorem not_pageMovesAndSwaps : ¬ Obligations.PageMovesAndSwaps := by
  intro h
  obtain ⟨-, -, -, portions, -⟩ := h
  obtain ⟨begins, -⟩ := portions migratesWatched 0 0x10000 1 0 [] migrOp wPart rfl rfl (by decide) rfl rfl (by decide +kernel) (by decide)
  obtain ⟨u, q, m, run, -, -, -, -, -, -, -, -, -, -, -, -, same⟩ := begins _ _ _ _ _ _ _ farPage_walk (by decide) (by simp)
    (by decide +kernel) (by decide)
  obtain ⟨u', run', differs⟩ := migr_ends_task
  obtain rfl : u' = u := Host.Outcome.next.inj (run'.symm.trans run)
  exact differs same

end Sys2Proof.KernelMemoryLimits
end

-- Proof of the statement on the tag table (spec/05_memory_as_kernels_see_it.md)
section
/-! SUPPORT. The tag table: what its three operations do to one key, and what a word does with its lanes in ascending order. -/

namespace Sys2Proof.TagTables

open Sys2Proof Sys2Proof.Machine Sys2Proof.Says Sys2Proof.Laws Sys2Proof.LaneState

/-! ### One key (R107, R108, R238) -/

/-- What a table holds at a slot. -/
abbrev held (tab : TagTable) (n : Nat) : Option Nat := tab.lines.getD n none

theorem ways_eq (tab : TagTable) (key : Nat) : tab.ways key =
    [4 * (key / tab.z % tab.sets), 4 * (key / tab.z % tab.sets) + 1, 4 * (key / tab.z % tab.sets) + 2,
      4 * (key / tab.z % tab.sets) + 3] := rfl

theorem hit_none {tab : TagTable} {key : Nat} (h : ∀ n ∈ tab.ways key, held tab n ≠ some (key / tab.z)) : tab.hit key = none :=
  List.find?_eq_none.2 fun n hn => by simpa using h n hn

/-- The words of PTSET's result: the slot, what happened, and the line that it speaks of. -/
theorem ptset_words (line n : Nat) (what : BitVec 32) :
    BitVec.ofNat 64 line ++ what ++ BitVec.ofNat 32 n = BitVec.ofNat 128 (n % 2 ^ 32 + 2 ^ 32 * what.toNat + 2 ^ 64 * (line % 2 ^ 64)) := by
  apply BitVec.eq_of_toNat_eq
  have hw : what.toNat < 2 ^ 32 := what.isLt
  have hn : n % 2 ^ 32 < 2 ^ 32 := Nat.mod_lt _ (by decide)
  have hl : line % 2 ^ 64 < 2 ^ 64 := Nat.mod_lt _ (by decide)
  simp only [BitVec.toNat_append, BitVec.toNat_ofNat]
  rw [← Nat.shiftLeft_add_eq_or_of_lt hw, ← Nat.shiftLeft_add_eq_or_of_lt hn, Nat.shiftLeft_eq, Nat.shiftLeft_eq]
  omega

/-- The least recently used of the slots that a fold has seen. -/
theorem leastUsed (used : List Nat) (ns : List Nat) (m : Nat) :
    let v := ns.foldl (fun m n => if used.getD n 0 < used.getD m 0 then n else m) m
    (v = m ∨ v ∈ ns) ∧ used.getD v 0 ≤ used.getD m 0 ∧ ∀ n ∈ ns, used.getD v 0 ≤ used.getD n 0 := by
  induction ns generalizing m with
  | nil => simp
  | cons n ns ih =>
    dsimp only [List.foldl_cons]
    split
    · obtain ⟨hv, hm, hns⟩ := ih n
      refine ⟨.inr ?_, by omega, ?_⟩
      · rcases hv with hv | hv
        · rw [hv]; exact List.mem_cons_self
        · exact List.mem_cons_of_mem _ hv
      · intro k hk
        rcases List.mem_cons.1 hk with rfl | hk
        · exact hm
        · exact hns k hk
    · obtain ⟨hv, hm, hns⟩ := ih m
      refine ⟨hv.imp_right (List.mem_cons_of_mem _), hm, ?_⟩
      intro k hk
      rcases List.mem_cons.1 hk with rfl | hk
      · omega
      · exact hns k hk

/-- The victim of an install is a way of the key's set: the lowest invalid one, else the least recently used. -/
theorem victim_spec (tab : TagTable) (key : Nat) : tab.victim key ∈ tab.ways key ∧
    (∀ m ∈ tab.ways key, m < tab.victim key → held tab (tab.victim key) = none → held tab m ≠ none) ∧
    (∀ m ∈ tab.ways key, held tab (tab.victim key) ≠ none → held tab m ≠ none ∧ tab.used.getD (tab.victim key) 0 ≤ tab.used.getD m 0) := by
  unfold TagTable.victim
  cases hf : (tab.ways key).find? (fun n => (tab.lines.getD n none).isNone) with
  | some n =>
    obtain ⟨hn, as, bs, hl, has⟩ := List.find?_eq_some_iff_append.1 hf
    refine ⟨List.mem_of_find?_eq_some hf, ?_, fun m _ h => absurd (by simpa using hn) h⟩
    intro m hm hlt _
    have sorted : (tab.ways key).Pairwise (· < ·) := by simp [ways_eq]
    rw [hl] at hm sorted
    obtain ⟨-, hbs, -⟩ := List.pairwise_append.1 sorted
    rcases List.mem_append.1 hm with hm | hm
    · simpa [held, Option.isSome_iff_ne_none] using has m hm
    · rcases List.mem_cons.1 hm with rfl | hm
      · exact absurd hlt (Nat.lt_irrefl _)
      · exact absurd (List.rel_of_pairwise_cons hbs hm) (Nat.lt_asymm hlt)
  | none =>
    have full : ∀ m ∈ tab.ways key, held tab m ≠ none := fun m hm => by simpa using List.find?_eq_none.1 hf m hm
    obtain ⟨hv, -, hns⟩ := leastUsed tab.used (tab.ways key) (4 * tab.setOf key)
    dsimp only
    have hmem : (tab.ways key).foldl (fun m n => if tab.used.getD n 0 < tab.used.getD m 0 then n else m) (4 * tab.setOf key) ∈ tab.ways key := by
      rcases hv with hv | hv
      · rw [hv, ways_eq]; exact List.mem_cons_self
      · exact hv
    exact ⟨hmem, fun m hm _ h => absurd h (full _ hmem), fun m hm _ => ⟨full m hm, hns m hm⟩⟩

/-- An operation on a key that the table holds. -/
theorem ops_hit {tab : TagTable} {key n : Nat} (h : tab.hit key = some n) :
    tab.ptag key = (BitVec.ofNat 128 n, tab.touch n) ∧
    tab.ptset key = (BitVec.ofNat 128 (n % 2 ^ 32 + 2 ^ 32 * 2 + 2 ^ 64 * (key / tab.z * tab.z % 2 ^ 64)), tab.touch n) ∧
    tab.ptinv key = (BitVec.ofNat 128 n, { tab with lines := tab.lines.set n none }) := by
  refine ⟨by rw [TagTable.ptag, h], ?_, by rw [TagTable.ptinv, h]⟩
  rw [TagTable.ptset, h]
  exact congrArg (·, tab.touch n) (ptset_words _ n 2#32)

/-- PTSET on a key that the table does not hold installs its line at the victim. -/
theorem ptset_miss {tab : TagTable} {key : Nat} (h : tab.hit key = none) :
    tab.ptset key = (BitVec.ofNat 128 (tab.victim key % 2 ^ 32 + match held tab (tab.victim key) with
        | none => 0
        | some old => 2 ^ 32 + 2 ^ 64 * (old * tab.z % 2 ^ 64)),
      { tab with lines := tab.lines.set (tab.victim key) (some (key / tab.z)) }.touch (tab.victim key)) := by
  rw [TagTable.ptset, h]
  refine congrArg (·, _) ?_
  rw [ptset_words]
  unfold held
  cases tab.lines.getD (tab.victim key) none with
  | none => simp
  | some old => simp [Nat.add_assoc]

/-! ### The lanes of a word in ascending order (R183, R238) -/

section

/-- One lane's turn: the table goes on, and the lane's value is kept. -/
abbrev turn (f : TagTable → Nat → BitVec 128 × TagTable) (key : Nat → Nat) (x : TagTable × Lanes 128) (l : Nat) :
    TagTable × Lanes 128 :=
  ((f x.1 (key l)).2, x.2.set l (f x.1 (key l)).1)

/-- The table after some lanes' turns. -/
abbrev after (f : TagTable → Nat → BitVec 128 × TagTable) (key : Nat → Nat) (tab : TagTable) (ls : List Nat) : TagTable :=
  ls.foldl (fun q l => (f q (key l)).2) tab

variable (f : TagTable → Nat → BitVec 128 × TagTable) (key : Nat → Nat)

theorem turns_table (ls : List Nat) (x : TagTable × Lanes 128) : (ls.foldl (turn f key) x).1 = after f key x.1 ls := by
  induction ls generalizing x with
  | nil => rfl
  | cons l ls ih => exact ih _

theorem turns_other (ls : List Nat) (x : TagTable × Lanes 128) {l : Nat} (h : l ∉ ls) :
    (ls.foldl (turn f key) x).2.getD l 0 = x.2.getD l 0 := by
  induction ls generalizing x with
  | nil => rfl
  | cons k ls ih =>
    obtain ⟨hk, hls⟩ := not_or.1 (mt List.mem_cons.2 h)
    rw [List.foldl_cons, ih _ hls]
    simp [List.getD_eq_getElem?_getD, List.getElem?_set_ne (Ne.symm hk)]

theorem turns_length (ls : List Nat) (x : TagTable × Lanes 128) : (ls.foldl (turn f key) x).2.length = x.2.length := by
  induction ls generalizing x with
  | nil => rfl
  | cons k ls ih => rw [List.foldl_cons, ih]; exact List.length_set

/-- A lane's value is what the operation gives on the table that the lanes below it leave. -/
theorem turns_value {ls : List Nat} (sorted : ls.Pairwise (· < ·)) (x : TagTable × Lanes 128) {l : Nat} (hl : l ∈ ls)
    (hx : l < x.2.length) :
    (ls.foldl (turn f key) x).2.getD l 0 = (f (after f key x.1 (ls.filter (fun k => k < l))) (key l)).1 := by
  induction ls generalizing x with
  | nil => cases hl
  | cons k ls ih =>
    obtain ⟨hk, hls⟩ := List.pairwise_cons.1 sorted
    rcases List.mem_cons.1 hl with rfl | hl
    · have none_below : (l :: ls).filter (fun k => k < l) = [] :=
        List.filter_eq_nil_iff.2 fun j hj => by
          rcases List.mem_cons.1 hj with rfl | hj
          · simp
          · simpa using Nat.le_of_lt (hk j hj)
      rw [List.foldl_cons, turns_other f key ls _ (fun h => Nat.lt_irrefl _ (hk l h)), none_below]
      simp [List.getD_eq_getElem?_getD, hx]
    · rw [List.foldl_cons, ih hls _ hl (by simpa using hx), List.filter_cons_of_pos (by simpa using hk l hl)]
      rfl

/-! ### The words (R238) -/

theorem lanesOf_sorted (m : Mask) : (lanesOf m).Pairwise (· < ·) := List.Pairwise.filter _ List.pairwise_lt_range

theorem arg_eq (v : List (Lanes 64)) (n l : Nat) : arg v n l = (v.getD n []).getD l 0 := getD_getD_splat v n l

variable {t : Tail} {d : Dst} {a : Src} {words : Nat} {s : State} {c : Ctx} {rd : Read}

theorem tagOp_idle (h : Issues s t c) (hr : c.read (spent s) [(a, .int, 2)] = .ok rd) (idle : c.act = 0) :
    tagOp t s d a words f = retired t c rd.s false := by
  unfold tagOp
  rw [issue_of h]
  simp only [hr, idle, beq_self_eq_true, if_true]
  rfl

theorem tagOp_without_table (h : Issues s t c) (hr : c.read (spent s) [(a, .int, 2)] = .ok rd) (act : c.act ≠ 0)
    (none_there : (rd.s.gang? c.g).bind (fun x => x.tags) = none) : tagOp t s d a words f = trapped c s .qerr c.act 0 0 := by
  unfold tagOp
  rw [issue_of h]
  simp only [hr, beq_false_of_ne act, Bool.false_eq_true, if_false, none_there]
  rfl

/-- What a word leaves that operates on a tag table: the table after its lanes' turns, and their values on the way. -/
theorem tagOp_with_table (h : Issues s t c) (hr : c.read (spent s) [(a, .int, 2)] = .ok rd) (act : c.act ≠ 0) {x : Gang}
    {tab : TagTable} (hx : rd.s.gang? c.g = some x) (ht : x.tags = some tab) :
    let key := fun (l : Nat) => ((rd.v.getD 0 []).getD l 0).toNat
    ∃ s2 due vals, tagOp t s d a words f = retired t c s2 true ∧ s2.mem = rd.s.mem ∧ c.clk < due ∧
      s2.ops = rd.s.ops ++ [opOf c rd.s (some c.core) due rd.p6 (.values (goesTo d words) vals none none)] ∧
      s2.gang? c.g = some { x with tags := some (after f key tab (lanesOf c.act)) } ∧
      ∀ l ∈ lanesOf c.act, vals.getD l 0 = (f (after f key tab ((lanesOf c.act).filter (fun k => k < l))) (key l)).1 := by
  intro key
  let r := (lanesOf c.act).foldl (turn f key) (tab, splat 0)
  let u := rd.s.modGang c.g (fun y => { y with tags := some r.1 })
  refine ⟨c.longOp u.delay.2 (1 + u.delay.1) (.values (ldest d words) r.2 none none) rd.p6, c.clk + (1 + u.delay.1), r.2,
    ?_, rfl, by omega, rfl, ?_, fun l hl => turns_value f key (lanesOf_sorted _) _ hl ?_⟩
  · unfold tagOp
    rw [issue_of h]
    simp only [hr, beq_false_of_ne act, Bool.false_eq_true, if_false, hx, Option.bind_some, ht, arg_eq]
    rfl
  · have hu : u.gang? c.g = _ := gang?_modGang rd.s c.g _ (by intro y; rfl)
    rw [hx, turns_table] at hu
    exact hu
  · rw [splat, List.length_replicate]
    exact List.mem_range.1 (List.mem_filter.1 hl).1

end

/-- Settles O27: a key's slot is the first of its set that holds its line and an install takes `victim`; the words take their lanes'
turns in ascending order. -/
theorem tagTableOperations : Obligations.TagTableOperations := by
  refine ⟨fun tab key => ⟨fun n hn => ?_, fun hn => ?_⟩, fun t d a s c rd h hr => ?_⟩
  · obtain ⟨htag, hset, hinv⟩ := ops_hit (tab := tab) (key := key) hn
    rw [htag, hset, hinv]
    exact ⟨rfl, rfl, ⟨rfl, rfl⟩, rfl, rfl, ⟨rfl, rfl⟩, rfl, rfl⟩
  · have miss : tab.hit key = none := hit_none hn
    obtain ⟨hmem, hlow, hold⟩ := victim_spec tab key
    refine ⟨by rw [TagTable.ptag, miss], by rw [TagTable.ptinv, miss], tab.victim key, hmem, ?_⟩
    rw [ptset_miss miss]
    exact ⟨rfl, ⟨rfl, rfl⟩, rfl, hlow, hold⟩
  · exact ⟨⟨tagOp_idle TagTable.ptag h hr, tagOp_without_table TagTable.ptag h hr, fun _ _ act => tagOp_with_table TagTable.ptag h hr act⟩,
      ⟨tagOp_idle TagTable.ptset h hr, tagOp_without_table TagTable.ptset h hr, fun _ _ act => tagOp_with_table TagTable.ptset h hr act⟩,
      ⟨tagOp_idle TagTable.ptinv h hr, tagOp_without_table TagTable.ptinv h hr, fun _ _ act => tagOp_with_table TagTable.ptinv h hr act⟩⟩

end Sys2Proof.TagTables
end

-- Proof of the statement on the addresses of lanes (spec/05_memory_as_kernels_see_it.md)
section
/-! SUPPORT. Where the lanes of an access reach through a translation register and in scratchpad (R98, R101, R227). -/

namespace Sys2Proof.LaneAccess

open Sys2Proof Sys2Proof.Machine Sys2Proof.Says Sys2Proof.Laws Sys2Proof.LaneState

/-! ### Translation through a bound register (R98) -/

section
variable {s : State} {g t core : Nat} {p : Partition} {tenant : Nat} {sup : Bool} {tr : BitVec 3} {o : Int} {size : Nat}
  {acc : Access} {y : Tussock} {r : TReg}

/-- The page that a register records refuses an access: a write without W, or any below supervisor level with S. -/
def Refuses (r : TReg) (sup : Bool) (acc : Access) : Prop := (acc = .write ∧ r.w = false) ∨ (r.s = true ∧ sup = false)

/-- An access inside the limit of a register that is up to date stays with what the register records. -/
theorem tAddr_inside (hy : s.tk? g t = some y) (hr : y.t[tr.toNat]? = some r) (hb : r.bound = true) (hf : r.retrans = false)
    (lo : 0 ≤ o) (hi : o + size ≤ r.limit) : s.tAddr g t core p tenant sup tr o size acc =
      if (acc == .write && !r.w) || (r.s && !sup) then (s, .prot)
      else (s, .pa (r.frame + o.toNat) r.frame (2 ^ 16) 0 r.s r.w false r.lines) := by
  unfold State.tAddr
  simp only [hy, Option.bind_some, hr, hb, hf, Bool.not_true, Bool.not_false, Bool.false_eq_true, if_false, if_true,
    State.tAddr.go, lo, hi, decide_true, Bool.and_true]

theorem tAddr_refused (hy : s.tk? g t = some y) (hr : y.t[tr.toNat]? = some r) (hb : r.bound = true) (hf : r.retrans = false)
    (lo : 0 ≤ o) (hi : o + size ≤ r.limit) (no : Refuses r sup acc) :
    s.tAddr g t core p tenant sup tr o size acc = (s, .prot) := by
  rw [tAddr_inside hy hr hb hf lo hi, if_pos]
  rcases no with ⟨ha, hw⟩ | ⟨hs, hsup⟩
  · simp [ha, hw]
  · simp [hs, hsup]

theorem tAddr_granted (hy : s.tk? g t = some y) (hr : y.t[tr.toNat]? = some r) (hb : r.bound = true) (hf : r.retrans = false)
    (lo : 0 ≤ o) (hi : o + size ≤ r.limit) (hw : acc = .write → r.w = true) (hs : r.s = true → sup = true) :
    s.tAddr g t core p tenant sup tr o size acc = (s, .pa (r.frame + o.toNat) r.frame (2 ^ 16) 0 r.s r.w false r.lines) := by
  rw [tAddr_inside hy hr hb hf lo hi, if_neg]
  simp only [Bool.or_eq_true, Bool.and_eq_true, beq_iff_eq, Bool.not_eq_true', not_or, not_and, Bool.not_eq_false]
  exact ⟨hw, hs⟩

end

/-- Lanes whose translations leave the state alone are translated one by one. -/
theorem translateLanes_pure {c : Ctx} {s : State} {p : Partition} {tr : BitVec 3} {base : Addr} {os : List (Nat × Int)} {size : Nat}
    {acc : Access} (w : Int → Walk)
    (h : ∀ o ∈ os, s.tAddr c.g c.t c.core p c.x.tenant c.sup tr o.2 size acc = (s, w o.2)) :
    c.translateLanes s p tr base os size acc = (s, os.map (fun o => (o.1, vaOf base o.2, w o.2))) := by
  have fold (done : List (Nat × Nat × Walk)) : os.foldl (fun a o =>
      let r := a.1.tAddr c.g c.t c.core p c.x.tenant c.sup tr o.2 size acc
      (r.1, a.2 ++ [(o.1, vaOf base o.2, r.2)])) (s, done) = (s, done ++ os.map (fun o => (o.1, vaOf base o.2, w o.2))) := by
    induction os generalizing done with
    | nil => simp
    | cons o os ih =>
      rw [List.foldl_cons]
      simp only [h o (by simp)]
      rw [ih (fun q hq => h q (by simp [hq]))]
      simp
  exact fold []

/-! ### Faults of lanes (R227, R398) -/

/-- Where every lane meets a page that may not be used so, the first one names the address. -/
theorem walkFault_prot (c : Ctx) (s : State) (kind : Nat) (a : Nat × Nat) (as : List (Nat × Nat)) :
    c.walkFault s kind ((a :: as).map (fun e => (e.1, Walk.prot, e.2))) =
      some (.trap { code := .prot, lanes := maskOfList ((a :: as).map (·.1)), addr := a.2 }) := by
  unfold Ctx.walkFault
  simp only [List.map_cons, List.foldl_cons, List.foldl_map]
  rw [List.foldl_fixed' fun b => if_neg (Nat.lt_irrefl _)]
  simp [Walk.code, List.filter_map, Function.comp_def]

theorem walkFault_nil (c : Ctx) (s : State) (kind : Nat) : c.walkFault s kind [] = none := rfl

theorem lockFault_none {c : Ctx} {s : State} (h : (s.core c.core).locks = []) (glob writes : Bool) (as : List (Nat × Nat)) (n : Nat) :
    c.lockFault s glob writes as n = none := by
  have none_hit : as.filter (fun a => c.lockHit s glob writes a.2 n) = [] := by
    simp [Ctx.lockHit, h]
  rw [Ctx.lockFault, none_hit]

theorem touched_none {x : Gang} (h : ∀ w ∈ x.windows, w = none) (rs : List (Nat × Nat)) : x.touched rs = [] := by
  unfold Gang.touched
  rw [List.filter_eq_nil_iff.2]
  intro e he
  obtain ⟨⟨w, k⟩, hw, hk⟩ := List.mem_filterMap.1 he
  rw [h w (List.fst_mem_of_mem_zipIdx hw)] at hk
  cases hk

theorem touch_none {c : Ctx} {s : State} (h : ∀ x, s.gang? c.g = some x → ∀ w ∈ x.windows, w = none) (rs : List (Nat × Nat)) :
    c.touch s rs = none := by
  unfold Ctx.touch
  cases hx : s.gang? c.g with
  | none => rfl
  | some x => simp [touched_none (h x hx)]

/-! ### The D bit (R393) -/

/-- What setting the D bits of pages leaves alone. -/
structure LeavesOnly (s s' : State) : Prop where
  gangs : s'.gangs = s.gangs
  ops   : s'.ops = s.ops
  parts : s'.parts = s.parts

theorem setDirty_leaves (s : State) (p : Partition) (tenant va : Nat) : LeavesOnly s (s.setDirty p tenant va) := by
  unfold State.setDirty
  split
  · split <;> exact ⟨rfl, rfl, rfl⟩
  · exact ⟨rfl, rfl, rfl⟩

theorem setDirty_foldl_leaves (p : Partition) (tenant : Nat) (as : List (Nat × Nat)) (s : State) :
    LeavesOnly s (as.foldl (fun s a => s.setDirty p tenant a.2) s) := by
  induction as generalizing s with
  | nil => exact ⟨rfl, rfl, rfl⟩
  | cons a as ih =>
    obtain ⟨hg, ho, hp⟩ := setDirty_leaves s p tenant a.2
    obtain ⟨hg', ho', hp'⟩ := ih (s.setDirty p tenant a.2)
    exact ⟨hg'.trans hg, ho'.trans ho, hp'.trans hp⟩

/-! ### The lanes of an access to global memory (R98, R227) -/

/-- The lanes at an address that is not a multiple of the size. -/
theorem misaligned_eq (f : Nat × Int → Nat) (os : List (Nat × Int)) (size : Nat) :
    (os.map (fun o => (o.1, f o))).filter (fun a => a.2 % size != 0) =
      (os.filter (fun o => f o % size ≠ 0)).map (fun o => (o.1, f o)) := by
  rw [List.filter_map]
  congr 1
  refine List.filter_congr fun o _ => ?_
  simp [bne, beq_eq_decide]

section
variable {c : Ctx} {s : State} {p : Partition} {tr : BitVec 3} {os : List (Nat × Int)} {size : Nat} {acc : Access} {kind : Nat}
  {locks dirty : Bool} {y : Tussock} {r : TReg}

theorem globalLanes_unbound (hr : c.tk.t[tr.toNat]? = some r) (hb : r.bound = false) :
    c.globalLanes s p tr os size acc kind locks dirty =
      .error (.trap { code := .prot, lanes := c.act, addr := (os.map (fun o => vaOf r.base o.2)).headD 0 }) := by
  unfold Ctx.globalLanes
  simp only [List.getD_eq_getElem?_getD, hr, Option.getD_some, hb, Bool.not_false, if_true, List.map_map]
  rfl

theorem globalLanes_misaligned (hr : c.tk.t[tr.toNat]? = some r) (hb : r.bound = true)
    (odd : os.filter (fun o => vaOf r.base o.2 % size ≠ 0) ≠ []) :
    c.globalLanes s p tr os size acc kind locks dirty =
      .error (.trap { code := .align, lanes := maskOfList ((os.filter (fun o => vaOf r.base o.2 % size ≠ 0)).map (·.1)),
                      addr := ((os.filter (fun o => vaOf r.base o.2 % size ≠ 0)).map (fun o => vaOf r.base o.2)).headD 0 }) := by
  unfold Ctx.globalLanes
  simp only [List.getD_eq_getElem?_getD, hr, Option.getD_some, hb, Bool.not_true, Bool.false_eq_true, if_false,
    misaligned_eq (fun o => vaOf r.base o.2), List.isEmpty_map]
  rw [if_pos (by simpa using odd), List.map_map, List.map_map]
  rfl

section
variable (hy : s.tk? c.g c.t = some y) (same : y.t = c.tk.t) (hr : c.tk.t[tr.toNat]? = some r) (hb : r.bound = true)
  (even : os.filter (fun o => vaOf r.base o.2 % size ≠ 0) = []) (hf : r.retrans = false)
  (inside : ∀ o ∈ os, 0 ≤ o.2 ∧ o.2 + size ≤ r.limit)
include hy same hr hb even hf inside

/-- Aligned lanes inside the limit of a register whose page refuses them. -/
theorem globalLanes_refused (some_lane : os ≠ []) (no : Refuses r c.tk.sup acc) :
    c.globalLanes s p tr os size acc kind locks dirty =
      .error (.trap { code := .prot, lanes := maskOfList (os.map (·.1)), addr := (os.map (fun o => vaOf r.base o.2)).headD 0 }) := by
  have walks := translateLanes_pure (c := c) (s := s) (p := p) (tr := tr) (base := r.base) (size := size) (acc := acc)
    (fun _ => .prot) fun o ho => tAddr_refused hy (same ▸ hr) hb hf (inside o ho).1 (inside o ho).2 no
  obtain ⟨o, os', rfl⟩ := List.exists_cons_of_ne_nil some_lane
  have fault := walkFault_prot c s kind (o.1, vaOf r.base o.2) (os'.map (fun q => (q.1, vaOf r.base q.2)))
  rw [← List.map_cons (f := fun q : Nat × Int => (q.1, vaOf r.base q.2)), List.map_map, List.map_map] at fault
  unfold Ctx.globalLanes
  simp only [List.getD_eq_getElem?_getD, hr, Option.getD_some, hb, Bool.not_true, Bool.false_eq_true, if_false,
    misaligned_eq (fun o => vaOf r.base o.2), even, List.map_nil, List.isEmpty_nil, walks]
  rw [List.filter_eq_self.2 fun e he => by obtain ⟨q, -, rfl⟩ := List.mem_map.1 he; rfl, List.map_map]
  simp only [Function.comp_def] at fault ⊢
  rw [fault]
  rfl

/-- Aligned lanes inside the limit of a register whose page takes them. -/
theorem globalLanes_granted (hw : acc = .write → r.w = true) (hs : r.s = true → c.tk.sup = true)
    (unlocked : (s.core c.core).locks = []) :
    ∃ s', c.globalLanes s p tr os size acc kind locks dirty =
        .ok (s', os.map (fun o => (o.1, vaOf r.base o.2, r.frame + o.2.toNat))) ∧
      (acc = .read → s' = s) ∧ LeavesOnly s s' := by
  have walks := translateLanes_pure (c := c) (s := s) (p := p) (tr := tr) (base := r.base) (size := size) (acc := acc)
    (fun o => .pa (r.frame + o.toNat) r.frame (2 ^ 16) 0 r.s r.w false r.lines)
    fun o ho => tAddr_granted hy (same ▸ hr) hb hf (inside o ho).1 (inside o ho).2 hw hs
  unfold Ctx.globalLanes
  simp only [List.getD_eq_getElem?_getD, hr, Option.getD_some, hb, Bool.not_true, Bool.false_eq_true, if_false,
    misaligned_eq (fun o => vaOf r.base o.2), even, List.map_nil, List.isEmpty_nil, walks, lockFault_none unlocked, ite_self]
  rw [List.filter_eq_nil_iff.2 fun e he => by obtain ⟨q, -, rfl⟩ := List.mem_map.1 he; exact Bool.false_ne_true, List.map_nil,
    walkFault_nil, List.map_map]
  refine ⟨_, rfl, fun ha => by simp [ha], ?_⟩
  split
  · exact setDirty_foldl_leaves ..
  · exact ⟨rfl, rfl, rfl⟩
end

end

/-! ### The lanes of an access to scratchpad (R101, R227) -/

section
variable {c : Ctx} {s : State} {as : List (Nat × Nat)} {size align : Nat} {writes locks : Bool}

theorem spCheck_outside (out : as.filter (fun a => c.x.foot.sp ≤ a.2) ≠ []) :
    c.spCheck s as size align writes locks =
      some (.trap { code := .prot, lanes := maskOfList ((as.filter (fun a => c.x.foot.sp ≤ a.2)).map (·.1)),
                    addr := ((as.filter (fun a => c.x.foot.sp ≤ a.2)).map (·.2)).headD 0 }) := by
  obtain ⟨a, rest, h⟩ := List.exists_cons_of_ne_nil out
  unfold Ctx.spCheck
  simp only [h, List.map_cons, List.headD_cons]

theorem spCheck_misaligned (out : as.filter (fun a => c.x.foot.sp ≤ a.2) = []) (odd : as.filter (fun a => a.2 % align != 0) ≠ []) :
    c.spCheck s as size align writes locks =
      some (.trap { code := .align, lanes := maskOfList ((as.filter (fun a => a.2 % align != 0)).map (·.1)),
                    addr := ((as.filter (fun a => a.2 % align != 0)).map (·.2)).headD 0 }) := by
  obtain ⟨a, rest, h⟩ := List.exists_cons_of_ne_nil odd
  unfold Ctx.spCheck
  simp only [out, h, List.map_cons, List.headD_cons]

theorem spCheck_passes (out : as.filter (fun a => c.x.foot.sp ≤ a.2) = []) (even : as.filter (fun a => a.2 % align != 0) = [])
    (unlocked : (s.core c.core).locks = []) (present : ∀ x, s.gang? c.g = some x → ∀ w ∈ x.windows, w = none) :
    c.spCheck s as size align writes locks = none := by
  unfold Ctx.spCheck
  simp only [out, even, lockFault_none unlocked, ite_self, touch_none present]

end

/-- The address that a lane reaches in scratchpad. -/
abbrev spAt (o : Nat × Int) : Nat := (o.2 % 2 ^ 32).toNat

/-- The lanes past the allocation. -/
theorem outside_eq (os : List (Nat × Int)) (n : Nat) :
    (os.map (fun o => (o.1, spAt o))).filter (fun a => n ≤ a.2) = (os.filter (fun o => n ≤ spAt o)).map (fun o => (o.1, spAt o)) := by
  rw [List.filter_map]
  rfl

/-- Settles O24: each trap is answered as soon as its lanes are known, in the order of R227, and where none is, the lanes reach
where the register or the allocation puts them. -/
theorem laneAddresses : Obligations.LaneAddresses := by
  refine ⟨fun c s p tr os size acc kind y r _ some_lane hy same hr _ => ?_, fun c s os size writes => ⟨fun out => ?_, fun out odd => ?_,
    fun out even unlocked present => ?_⟩⟩
  · refine ⟨globalLanes_unbound hr, globalLanes_misaligned hr, fun hb even hf inside no => ?_,
      fun hb even hf inside hw hs unlocked => ?_⟩
    · exact globalLanes_refused hy same hr hb even hf inside some_lane no
    · obtain ⟨s', run, clean, hg, ho, hp⟩ := globalLanes_granted (p := p) (kind := kind) (locks := true) (dirty := true)
        hy same hr hb even hf inside hw hs unlocked
      exact ⟨s', run, clean, hg, ho, hp⟩
  · have trap := spCheck_outside (c := c) (s := s) (as := os.map (fun o => (o.1, spAt o))) (size := size) (align := size)
      (writes := writes) (locks := true) (by rw [outside_eq]; exact mt List.map_eq_nil_iff.1 out)
    rw [outside_eq, List.map_map, List.map_map] at trap
    unfold scratchCheck
    simp only [trap]
    rfl
  · have trap := spCheck_misaligned (c := c) (s := s) (as := os.map (fun o => (o.1, spAt o))) (size := size) (align := size)
      (writes := writes) (locks := true) (by rw [outside_eq]; exact List.map_eq_nil_iff.2 out)
      (by rw [misaligned_eq]; exact mt List.map_eq_nil_iff.1 odd)
    rw [misaligned_eq, List.map_map, List.map_map] at trap
    unfold scratchCheck
    simp only [trap]
    rfl
  · have passes := spCheck_passes (c := c) (s := s) (as := os.map (fun o => (o.1, spAt o))) (size := size) (align := size)
      (writes := writes) (locks := true) (by rw [outside_eq]; exact List.map_eq_nil_iff.2 out)
      (by rw [misaligned_eq]; exact List.map_eq_nil_iff.2 even) unlocked present
    unfold scratchCheck
    simp only [passes, List.map_map]
    rfl

end Sys2Proof.LaneAccess
end

-- Words with checked operands, and what they send (spec/05_memory_as_kernels_see_it.md)
section
/-! SUPPORT. Words with checked operands, and what a word leaves alone that only sends something on its way (R56, R227, R234). -/

namespace Sys2Proof.SlotRequests

open Sys2Proof Sys2Proof.Machine Sys2Proof.Says Sys2Proof.Laws Sys2Proof.LaneState

/-! ### Data beside the slots -/

theorem map_modify_of_same {α β : Type} (f : α → β) (h : α → α) (same : ∀ a, f (h a) = f a) (as : List α) (n : Nat) :
    (as.modify n h).map f = as.map f := by
  refine List.ext_getElem? fun i => ?_
  simp only [List.getElem?_map, List.getElem?_modify]
  cases as[i]? with
  | none => rfl
  | some a => by_cases hi : n = i <;> simp [hi, same]

theorem slotsAside_modTk (s : State) (g t : Nat) (f : Tussock → Tussock)
    (same : ∀ y, ({ f y with slots := [], stack := [] } : Tussock) = { y with slots := [], stack := [] }) :
    (slotsAside (s.modTk g t f)).gangs = (slotsAside s).gangs := by
  simp only [slotsAside, State.modTk, State.modGang, List.map_map]
  refine List.map_congr_left fun x _ => ?_
  simp only [Function.comp]
  split
  · rw [map_modify_of_same _ f same]
  · rfl

theorem slotsAside_modSlot (s : State) (g t k : Nat) (f : Slot → Slot) :
    (slotsAside (s.modSlot g t k f)).gangs = (slotsAside s).gangs := slotsAside_modTk s g t _ fun _ => rfl

theorem slotsAside_congr {s u : State} (h : u.gangs = s.gangs) : (slotsAside u).gangs = (slotsAside s).gangs := by
  simp only [slotsAside, h]

theorem sameData_refl (s : State) : SameData s s := ⟨rfl, rfl, rfl, rfl, rfl, rfl, rfl⟩

theorem sameData_trans {s u v : State} (h : SameData s u) (h' : SameData u v) : SameData s v :=
  ⟨h'.mem.trans h.mem, h'.gangs.trans h.gangs, h'.tasks.trans h.tasks, h'.dev.trans h.dev, h'.cores.trans h.cores,
    h'.subs.trans h.subs, h'.waiters.trans h.waiters⟩

theorem sameData_modSlot (s : State) (g t k : Nat) (f : Slot → Slot) : SameData s (s.modSlot g t k f) :=
  ⟨rfl, slotsAside_modSlot .., rfl, rfl, rfl, rfl, rfl⟩

/-! ### Words with checked operands (R56, R163, R227) -/

/-- A word of which the body is `Ctx.checked`: what stops its check is what the statement's check says, and where that passes on a
sound state, its body retires with what the statement says. -/
theorem checks_of {α β : Type} {i : Instr} {t : Tail} {ws : List Want} {check : Ctx → Read → State → Except Res (State × α)}
    {post : Ctx → Read → α → State → State → Prop} (checkOf : Ctx → State → Read → State → Except Res (State × β))
    (bodyOf : Ctx → State → Read → State → β → Res)
    (run : ∀ s, exec i s = issueHeld t s (fun c s0 => c.checked s0 ws (checkOf c s0) (bodyOf c s0)))
    (stops : ∀ c s rd e, check c rd s = .error e → checkOf c s rd s = .error e)
    (passes : ∀ c s rd s1 a, c.read s ws = .ok rd → check c rd s = .ok (s1, a) → s1.sound = true →
      ∃ b, checkOf c s rd s = .ok (s1, b) ∧ ∀ rd1, c.read s1 ws = .ok rd1 →
        ∃ s2, bodyOf c s rd1 rd1.s b = .next s2 true ∧ post c rd1 a rd1.s s2) : Checks i t ws check post := by
  intro s c h
  have out := run s
  rw [issueHeld_of h] at out
  unfold Ctx.checked at out
  refine ⟨fun e he => by rw [out, he], fun rd hr => ?_⟩
  simp only [hr] at out
  refine ⟨fun idle => ?_, fun e act he => ?_, fun s1 a act ha sound => ?_⟩
  · rw [out, idle]
    rfl
  · rw [out, beq_false_of_ne act]
    simp only [Bool.false_eq_true, if_false, stops c (spent s) rd e he]
  · obtain ⟨b, hb, body⟩ := passes c (spent s) rd s1 a hr ha sound
    rw [beq_false_of_ne act] at out
    simp only [Bool.false_eq_true, if_false, hb] at out
    refine ⟨fun e he => by rw [out, he], fun rd1 hr1 => ?_⟩
    obtain ⟨s2, hs2, hpost⟩ := body rd1 hr1
    refine ⟨s2, ?_, hpost⟩
    rw [out, hr1]
    simp only [hs2]
    rfl

/-! ### Notes on a slot's accesses (R130, R134, R138) -/

/-- A state that differs from another at most in notes on when accesses of the issuing slot reach their homes. -/
structure Notes (c : Ctx) (s u : State) : Prop extends SameData s u where
  ops  : u.ops = s.ops
  next : u.nextOp = s.nextOp
  now  : u.now = s.now
  hold : (u.slot? c.g c.t c.k).map (fun z => z.hold) = (s.slot? c.g c.t c.k).map (fun z => z.hold)

variable {c : Ctx} {s u v : State}

theorem Notes.refl (c : Ctx) (s : State) : Notes c s s := ⟨sameData_refl s, rfl, rfl, rfl, rfl⟩

theorem Notes.trans (h : Notes c s u) (h' : Notes c u v) : Notes c s v :=
  ⟨sameData_trans h.toSameData h'.toSameData, h'.ops.trans h.ops, h'.next.trans h.next, h'.now.trans h.now, h'.hold.trans h.hold⟩

theorem Notes.pushFifo (c : Ctx) (s : State) (grove : Nat) (homes : List (Nat × Nat)) : Notes c s (s.pushFifo grove homes) :=
  ⟨⟨rfl, rfl, rfl, rfl, rfl, rfl, rfl⟩, rfl, rfl, rfl, rfl⟩

theorem Notes.delay (c : Ctx) (s : State) : Notes c s s.delay.2 := ⟨⟨rfl, rfl, rfl, rfl, rfl, rfl, rfl⟩, rfl, rfl, rfl, rfl⟩

theorem Notes.modPart (c : Ctx) (s : State) (n : Nat) (f : Partition → Partition) : Notes c s (s.modPart n f) :=
  ⟨⟨rfl, rfl, rfl, rfl, rfl, rfl, rfl⟩, rfl, rfl, rfl, rfl⟩

theorem Notes.modSlot (c : Ctx) (s : State) (f : Slot → Slot) (same : ∀ z, (f z).hold = z.hold) :
    Notes c s (s.modSlot c.g c.t c.k f) := by
  refine ⟨sameData_modSlot .., rfl, rfl, rfl, ?_⟩
  rw [slot?_modSlot, Option.map_map]
  exact Option.map_congr fun z _ => same z

theorem releaseFor_notes (c : Ctx) (s : State) (release : Bool) (scope : Nat) : Notes c s (c.releaseFor s release scope).1 := by
  unfold Ctx.releaseFor
  split
  · exact .refl ..
  · exact .pushFifo ..

theorem spRelease_notes (c : Ctx) (s : State) (release : Bool) : Notes c s (c.spRelease s release).1 := by
  unfold Ctx.spRelease
  split
  · exact .pushFifo ..
  · exact .refl ..

theorem globalAccs_notes (c : Ctx) (s : State) (p : Partition) (ls : List LanePa) (size : Nat) (act : Nat → AccAct) (after : Nat) :
    Notes c s (c.globalAccs s p ls size act after).1 := by
  unfold Ctx.globalAccs
  dsimp only
  cases act 0 with
  | read =>
    refine (Notes.delay c s).trans (.modSlot c s.delay.2 _ ?_)
    exact fun _ => rfl
  | _ =>
    rw [if_pos rfl]
    refine (Notes.delay c s).trans (.trans (.modSlot c s.delay.2 _ ?_) (.modPart ..))
    exact fun _ => rfl

/-! ### Accesses (R101, R234) -/

theorem globalAccs_access (c : Ctx) (s : State) (p : Partition) (ls : List LanePa) (size : Nat) (act : Nat → AccAct) (after : Nat) :
    (c.globalAccs s p ls size act after).2.map access = ls.map (fun e => (e.1, true, e.2.2, size, act e.1, false)) := by
  unfold Ctx.globalAccs
  simp only [List.map_map]
  rfl

/-- An access is made no earlier than 100 reference clocks from now. -/
theorem globalAccs_at {p : Partition} {ls : List LanePa} {size : Nat} {act : Nat → AccAct} {after : Nat} {a : Acc}
    (h : a ∈ (c.globalAccs s p ls size act after).2) : s.now + 100 ≤ a.at_ := by
  obtain ⟨e, -, rfl⟩ := List.mem_map.1 h
  simp only [Ctx.homeAt]
  omega

theorem spAccs_access (c : Ctx) (s : State) (as : List (Nat × Nat)) (size : Nat) (act : Nat → AccAct) (after : Nat) :
    (c.spAccs s as size act after).map access = as.map (fun a => (a.1, false, a.2, size, act a.1, false)) := by
  unfold Ctx.spAccs
  simp only [List.map_map]
  rfl

/-- An access is made no earlier than 10 clocks from issue. -/
theorem spAccs_at {as : List (Nat × Nat)} {size : Nat} {act : Nat → AccAct} {after : Nat} {a : Acc}
    (h : a ∈ c.spAccs s as size act after) : c.clk + 10 ≤ a.at_ := by
  obtain ⟨e, -, rfl⟩ := List.mem_map.1 h
  dsimp only
  omega

/-- The latest of some accesses. -/
theorem le_latest (accs : List Acc) (m : Nat) : m ≤ accs.foldl (fun m a => max m a.at_) m ∧
    ∀ a ∈ accs, a.at_ ≤ accs.foldl (fun m a => max m a.at_) m := by
  induction accs generalizing m with
  | nil => simp
  | cons b bs ih =>
    obtain ⟨hm, hbs⟩ := ih (max m b.at_)
    rw [List.foldl_cons]
    refine ⟨le_trans (le_max_left ..) hm, fun a ha => ?_⟩
    rcases List.mem_cons.1 ha with rfl | ha
    · exact le_trans (le_max_right ..) hm
    · exact hbs a ha

/-! ### What goes out (R130, R230, R234, R373, R424) -/

/-- An operation that goes out in a state that differs in notes only, with its accesses, and holds back the slot where it is an
acquire. -/
theorem requests_of {glob : Bool} {ls : List LanePa} {size : Nat} {act : Nat → AccAct} {p6 : Option Bool} {kind : List Acc → OpKind}
    {lands acquire : Bool} {accs : List Acc} {due : Nat} (notes : Notes c s u)
    (forms : accs.map access = ls.map (fun e => (e.1, glob, e.2.2, size, act e.1, false)))
    (times : ∀ a ∈ accs, (if glob then s.now + 100 else c.clk + 10) ≤ a.at_ ∧
      (lands = true → if glob then a.at_ + 100 + c.clk ≤ due + s.now else a.at_ ≤ due)) (mk : Nat → Op)
    (made : mk s.nextOp = if glob then sentOut c s (if lands then some c.core else none) due p6 (kind accs)
      else opOf c s (some c.core) due p6 (kind accs)) :
    Requests c s (c.holdFor (u.addOp mk).1 (u.addOp mk).2 acquire) glob ls size act p6 kind lands acquire := by
  have ops : (u.addOp mk).1.ops = s.ops ++ [mk s.nextOp] := by rw [← notes.ops, ← notes.next]; rfl
  have same : SameData s (u.addOp mk).1 := ⟨notes.mem, notes.gangs, notes.tasks, notes.dev, notes.cores, notes.subs, notes.waiters⟩
  refine ⟨accs, due, ?_, forms, times, ?_, ?_⟩
  · rw [← made, ← ops]
    cases acquire <;> rfl
  · cases acquire
    · exact same
    · exact sameData_trans same (sameData_modSlot ..)
  · cases acquire
    · exact notes.hold
    · have added : (u.addOp mk).2 = s.nextOp := notes.next
      rw [Ctx.holdFor, if_pos rfl, slot?_modSlot, Option.map_map, added]
      have hold := congrArg (Option.map (s.nextOp :: ·)) notes.hold
      rw [Option.map_map, Option.map_map] at hold
      exact hold

end Sys2Proof.SlotRequests
end

-- Proof of the statement on loads, stores and atomics (spec/05_memory_as_kernels_see_it.md)
section
/-! SUPPORT. Loads, stores and atomics: their checks and the accesses that they send (R117, R227, R230, R234 to R236, R239). -/

namespace Sys2Proof.AccessWords

open Sys2Proof Sys2Proof.Machine Sys2Proof.Says Sys2Proof.Laws Sys2Proof.LaneState Sys2Proof.SlotRequests

/-! ### The words of the statements -/

theorem arg_eq (v : List (Lanes 64)) (n l : Nat) : arg v n l = (v.getD n []).getD l 0 := getD_getD_splat v n l

theorem offsets_eq (c : Ctx) (rd : Read) (bytes : Int) : c.offsets (rd.v.headD []) bytes = lanesAt c rd bytes := by
  unfold lanesAt
  cases rd.v <;> rfl

theorem onceFor_eq {α : Type} (d : Dst) (ls : List α) : onceFor d ls = once d ls := by cases d <;> rfl

theorem ldest_eq (d : Dst) (words : Nat) : ldest d words = goesTo d words := by cases d <;> rfl

theorem wordsFor_eq (size : BitVec 3) : wordsFor size = regsOf size := by simp [wordsFor, regsOf]

theorem storeData_eq (rd : Read) (size : BitVec 3) (l : Nat) : storeData rd 1 size l = stored rd size l := by
  simp only [storeData, stored, arg_eq, beq_iff_eq]
  rfl

/-- Where the lanes reach in scratchpad. -/
abbrev spLanes (os : List (Nat × Int)) : List (Nat × Nat) := os.map (fun o => (o.1, (o.2 % 2 ^ 32).toNat))

theorem onceFor_spAddrs (c : Ctx) (d : Dst) (rd : Read) (bytes : Int) :
    onceFor d (c.spAddrs (rd.v.headD []) bytes) = spLanes (once d (lanesAt c rd bytes)) := by
  rw [Ctx.spAddrs, offsets_eq, onceFor_eq]
  cases d with
  | g r hi => exact (List.map_take ..).symm
  | _ => rfl

theorem eccLanes_sound {s : State} (sound : s.sound = true) (c : Ctx) (p : Partition) (glob : Bool) (as : List Nat) (size : Nat) :
    c.eccLanes s p glob as size = .ok (s, []) := by rw [Ctx.eccLanes, if_pos sound]

@[simp] theorem flipped_nil (accs : List Acc) : flipped accs [] = accs := rfl

/-- A word that reads is due as much later than its accesses as R234 asks. -/
theorem due_after {a : Acc} {accs : List Acc} (h : a ∈ accs) (clk now r : Nat) :
    a.at_ + 100 + clk ≤ clk + (accs.foldl (fun m x => max m x.at_) 0 + 100 + r - now) + now := by
  have := (le_latest accs 0).2 a h
  omega

/-- What a check in scratchpad that passes says of its lanes. -/
theorem scratchCheck_ok {c : Ctx} {s s1 : State} {os : List (Nat × Int)} {size : Nat} {writes : Bool} {ls : List LanePa}
    (h : scratchCheck c s os size writes = .ok (s1, ls)) :
    c.spCheck s (spLanes os) size size writes true = none ∧ s1 = s ∧ ls = (spLanes os).map (fun a => (a.1, a.2, a.2)) := by
  unfold scratchCheck at h
  dsimp only at h
  split at h
  · cases h
  · next hc =>
    cases h
    exact ⟨hc, rfl, rfl⟩

theorem scratchCheck_error {c : Ctx} {s : State} {os : List (Nat × Int)} {size : Nat} {writes : Bool} {e : Res}
    (h : scratchCheck c s os size writes = .error e) : c.spCheck s (spLanes os) size size writes true = some e := by
  unfold scratchCheck at h
  dsimp only at h
  split at h
  · next hc =>
    cases h
    exact hc
  · cases h

/-! ### What goes out (R130, R230, R234, R373, R424) -/

section
variable {c : Ctx} {s u : State} {size : Nat} {act : Nat → AccAct} {after : Nat} {p6 : Option Bool}

/-- The accesses of lanes in scratchpad, as the statements write them. -/
theorem spAccs_forms (as : List (Nat × Nat)) :
    (c.spAccs s as size act after).map access =
      (as.map (fun a => (a.1, a.2, a.2))).map (fun e => (e.1, false, e.2.2, size, act e.1, false)) := by
  rw [spAccs_access, List.map_map]
  rfl

/-- A load or atomic of global memory. -/
theorem globalLoad_requests (notes : Notes c s u) (p : Partition) (ls : List LanePa) (kind : List Acc → OpKind) (acquire : Bool) :
    let g := c.globalAccs u p ls size act after
    let o := c.globalLoad g.1.delay.2 (g.2.foldl (fun m x => max m x.at_) 0 + 100 + g.1.delay.1) (kind g.2) p6
    Requests c s (c.holdFor o.1 o.2 acquire) true ls size act p6 kind true acquire := by
  intro g o
  have notes' : Notes c s g.1.delay.2 := notes.trans ((globalAccs_notes ..).trans (.delay ..))
  refine requests_of (accs := g.2) (due := c.clk + (g.2.foldl (fun m x => max m x.at_) 0 + 100 + g.1.delay.1 - s.now))
    notes' (globalAccs_access ..) (fun a ha => ⟨?_, fun _ => due_after ha _ _ _⟩) _ ?_
  · rw [← notes.now]
    exact globalAccs_at ha
  · rw [notes'.now]
    rfl

/-- A store to global memory, or an atomic that returns nothing. -/
theorem globalOp_requests (notes : Notes c s u) (p : Partition) (ls : List LanePa) (kind : List Acc → OpKind) {v : State}
    (rest : Notes c (c.globalAccs u p ls size act after).1 v) :
    Requests c s (c.globalOp v 0 (kind (c.globalAccs u p ls size act after).2) p6).1 true ls size act p6 kind false false := by
  refine requests_of (due := 0) (acquire := false) ((notes.trans (globalAccs_notes ..)).trans rest)
    (globalAccs_access ..) (fun a ha => ⟨?_, fun no => absurd no Bool.false_ne_true⟩) _ rfl
  rw [← notes.now]
  exact globalAccs_at ha

/-- A load, store or atomic in scratchpad. -/
theorem coreOp_requests (notes : Notes c s u) (as : List (Nat × Nat)) (kind : List Acc → OpKind) (lands acquire : Bool) (due : Nat)
    (late : lands = true → ∀ a ∈ c.spAccs u as size act after, a.at_ ≤ due) :
    let o := c.coreOp u due (kind (c.spAccs u as size act after)) p6
    Requests c s (c.holdFor o.1 o.2 acquire) false (as.map (fun a => (a.1, a.2, a.2))) size act p6 kind lands acquire :=
  requests_of (accs := c.spAccs u as size act after) (due := due) notes (spAccs_forms as)
    (fun a ha => ⟨spAccs_at ha, fun h => late h a ha⟩) _ rfl

theorem spLands_late (as : List (Nat × Nat)) (accs : List Acc) : ∀ a ∈ accs, a.at_ ≤ c.spLands as size accs := (le_latest _ _).2

end

/-! ### LDG and LDP (R234) -/

section
variable (t : Tail) (md : MemMod) (d : Dst) (tr : BitVec 3) (a b : Src) (off : BitVec 6)

/-- The operation of a load. -/
abbrev loadKind (accs : List Acc) : OpKind := .load (goesTo d (regsOf md.size)) md.sx accs (md.kind == 2)

theorem checks_ldg : Checks (.ldg t md d tr a off) t [(a, .int, 1)]
    (fun c rd s => c.globalLanes s (c.part s) tr (once d (lanesAt c rd (offBytes off (Machine.sizeOf md.size)))) (Machine.sizeOf md.size)
      .read 0 true)
    (fun c rd ls s s2 => Requests c s s2 true ls (Machine.sizeOf md.size) (fun _ => .read) rd.p6 (loadKind md d) true (md.kind == 2)) := by
  refine checks_of _ _ (fun s => by change execLdg t md d tr a off s = _; dsimp only [execLdg]) (fun c s rd e stop => ?_)
    (fun c s rd s1 ls hr pass sound => ⟨(ls, []), ?_, fun rd1 hr1 => ⟨_, rfl, ?_⟩⟩)
  · simp only [offsets_eq, onceFor_eq, stop]
  · simp only [offsets_eq, onceFor_eq, pass, eccLanes_sound sound]
  · rw [ldest_eq, wordsFor_eq]
    exact globalLoad_requests (.refl ..) _ ls (loadKind md d) _

theorem checks_ldp : Checks (.ldp t md d a off) t [(a, .int, 1)]
    (fun c rd s => scratchCheck c s (once d (lanesAt c rd (offBytes off (Machine.sizeOf md.size)))) (Machine.sizeOf md.size) false)
    (fun c rd ls s s2 => Requests c s s2 false ls (Machine.sizeOf md.size) (fun _ => .read) rd.p6 (loadKind md d) true (md.kind == 2)) := by
  refine checks_of _ _ (fun s => by change execLdp t md d a off s = _; dsimp only [execLdp]) (fun c s rd e stop => ?_)
    (fun c s rd s1 ls hr pass sound => ⟨[], ?_, fun rd1 hr1 => ⟨_, rfl, ?_⟩⟩)
  · simp only [onceFor_spAddrs, scratchCheck_error stop]
  · obtain ⟨hc, rfl, rfl⟩ := scratchCheck_ok pass
    simp only [onceFor_spAddrs, hc, eccLanes_sound sound]
  · obtain ⟨-, rfl, rfl⟩ := scratchCheck_ok pass
    obtain rfl : rd1 = rd := Except.ok.inj (hr1.symm.trans hr)
    simp only [onceFor_spAddrs]
    rw [ldest_eq, wordsFor_eq]
    exact coreOp_requests (.refl ..) _ (loadKind md d) _ _ _ fun _ => spLands_late _ _

/-! ### STG, STP and ST.N4 (R117, R234 to R236) -/

theorem writes_eq (rd : Read) : (fun l => AccAct.write (storeData rd 1 md.size l)) = fun l => .write (stored rd md.size l) := by
  funext l
  rw [storeData_eq]

theorem checks_stg : Checks (.stg t md tr a b off) t [(a, .int, 1), (b, .int, regsOf md.size)]
    (fun c rd s => c.globalLanes s (c.part s) tr (lanesAt c rd (offBytes off (Machine.sizeOf md.size))) (Machine.sizeOf md.size) .write 1 true)
    (fun c rd ls s s2 => Requests c s s2 true ls (Machine.sizeOf md.size) (fun l => .write (stored rd md.size l)) rd.p6 .store false false) := by
  rw [← wordsFor_eq]
  refine checks_of _ _ (fun s => by change execStg t md tr a b off s = _; dsimp only [execStg]) (fun c s rd e stop => ?_)
    (fun c s rd s1 ls hr pass sound => ⟨ls, ?_, fun rd1 hr1 => ⟨_, rfl, ?_⟩⟩)
  · rw [offsets_eq, stop]
  · rw [offsets_eq, pass]
  · rw [writes_eq]
    exact globalOp_requests (releaseFor_notes ..) _ ls .store (.refl ..)

theorem spOk_error {c : Ctx} {s : State} {as : List (Nat × Nat)} {size : Nat} {writes : Bool} {e : Res}
    (h : c.spCheck s as size size writes true = some e) : c.spOk s as size writes = .error e := by
  unfold Ctx.spOk
  rw [h]

theorem spOk_ok {c : Ctx} {s : State} {as : List (Nat × Nat)} {size : Nat} {writes : Bool}
    (h : c.spCheck s as size size writes true = none) : c.spOk s as size writes = .ok (s, ()) := by
  unfold Ctx.spOk
  rw [h]

theorem spAddrs_eq (c : Ctx) (rd : Read) (bytes : Int) : c.spAddrs (rd.v.headD []) bytes = spLanes (lanesAt c rd bytes) :=
  onceFor_spAddrs c .discard rd bytes

theorem checks_stp : Checks (.stp t md a b off) t [(a, .int, 1), (b, .int, regsOf md.size)]
    (fun c rd s => scratchCheck c s (lanesAt c rd (offBytes off (Machine.sizeOf md.size))) (Machine.sizeOf md.size) true)
    (fun c rd ls s s2 => Requests c s s2 false ls (Machine.sizeOf md.size) (fun l => .write (stored rd md.size l)) rd.p6 .store false false) := by
  rw [← wordsFor_eq]
  refine checks_of _ _ (fun s => by change execStp t md a b off s = _; dsimp only [execStp]) (fun c s rd e stop => ?_)
    (fun c s rd s1 ls hr pass sound => ⟨(), ?_, fun rd1 hr1 => ⟨_, rfl, ?_⟩⟩)
  · rw [spAddrs_eq, spOk_error (scratchCheck_error stop)]
  · obtain ⟨hc, rfl, rfl⟩ := scratchCheck_ok pass
    rw [spAddrs_eq, spOk_ok hc]
  · obtain ⟨-, rfl, rfl⟩ := scratchCheck_ok pass
    obtain rfl : rd1 = rd := Except.ok.inj (hr1.symm.trans hr)
    rw [writes_eq, spAddrs_eq]
    exact coreOp_requests (spRelease_notes ..) _ .store false false 0 (nomatch ·)

end

section
variable (t : Tail) (m4 : N4Mod) (tr : BitVec 3) (a b : Src) (off : BitVec 6)

/-- The byte of a lane's element, and the nibble that the lane writes in it. -/
abbrev halves (c : Ctx) (rd : Read) : List (Nat × Int) := (lanesAt c rd off.toInt).map (fun e => (e.1, e.2 / 2))

abbrev nibble (c : Ctx) (rd : Read) (l : Nat) : AccAct :=
  .nib (decide ((((lanesAt c rd off.toInt).lookup l).getD 0) % 2 = 1)) (((rd.v.getD 1 []).getD l 0).extractLsb' 0 4)

theorem find?_eq_lookup (es : List (Nat × Int)) (l : Nat) : (es.find? (fun e => e.1 == l)).map (·.2) = es.lookup l := by
  induction es with
  | nil => rfl
  | cons e es ih =>
    rw [List.find?_cons, List.lookup_cons]
    by_cases h : e.1 = l
    · rw [beq_iff_eq.2 h, beq_iff_eq.2 h.symm]
      rfl
    · rw [beq_false_of_ne h, beq_false_of_ne (Ne.symm h)]
      exact ih

theorem nibAct_eq (c : Ctx) (rd : Read) : nibAct (lanesAt c rd off.toInt) rd = nibble off c rd := by
  funext l
  rw [nibAct, find?_eq_lookup, arg_eq]
  rfl

theorem checks_stN4_global (h : m4.sp = false) : Checks (.stN4 t m4 tr a b off) t [(a, .int, 1), (b, .int, 1)]
    (fun c rd s => c.globalLanes s (c.part s) tr (halves off c rd) 1 .write 2 true)
    (fun c rd ls s s2 => Requests c s s2 true ls 1 (nibble off c rd) rd.p6 .store false false) := by
  refine checks_of _ _ (fun s => by change execStN4 t m4 tr a b off s = _; simp only [execStN4, h, Bool.false_eq_true, if_false]; rfl) (fun c s rd e stop => ?_)
    (fun c s rd s1 ls hr pass sound => ⟨ls, ?_, fun rd1 hr1 => ⟨_, rfl, ?_⟩⟩)
  · rw [offsets_eq, stop]
  · rw [offsets_eq, pass]
  · rw [offsets_eq, nibAct_eq]
    exact globalOp_requests (releaseFor_notes ..) _ ls .store (.refl ..)

theorem checks_stN4_scratch (h : m4.sp = true) : Checks (.stN4 t m4 tr a b off) t [(a, .int, 1), (b, .int, 1)]
    (fun c rd s => scratchCheck c s (halves off c rd) 1 true)
    (fun c rd ls s s2 => Requests c s s2 false ls 1 (nibble off c rd) rd.p6 .store false false) := by
  refine checks_of _ _ (fun s => by change execStN4 t m4 tr a b off s = _; simp only [execStN4, h, if_true]; rfl) (fun c s rd e stop => ?_)
    (fun c s rd s1 ls hr pass sound => ⟨(), ?_, fun rd1 hr1 => ⟨_, rfl, ?_⟩⟩)
  · rw [offsets_eq, spOk_error (scratchCheck_error stop)]
  · obtain ⟨hc, rfl, rfl⟩ := scratchCheck_ok pass
    rw [offsets_eq, spOk_ok hc]
  · obtain ⟨-, rfl, rfl⟩ := scratchCheck_ok pass
    obtain rfl : rd1 = rd := Except.ok.inj (hr1.symm.trans hr)
    rw [offsets_eq, nibAct_eq]
    exact coreOp_requests (spRelease_notes ..) _ .store false false 0 (nomatch ·)

end

/-! ### ATOM and RED (R239) -/

section
variable (t : Tail) (md : AtomMod) (d : Dst) (a b : Src) (op : Nat) (red : Bool)

/-- The bytes of an atomic, and what it does in a lane. -/
abbrev atomSize : Nat := if md.w64 then 8 else 4

abbrev atomRegs : Nat := if op = 7 then (if md.w64 then 4 else 2) else if md.w64 then 2 else 1

abbrev atomAct (rd : Read) (l : Nat) : AccAct :=
  .rmw op (if op = 7 ∧ md.w64 = true then (rd.wide.getD 1 []).getD l 0 else ((rd.v.getD 1 []).getD l 0).setWidth 128)

/-- Whether an atomic is an acquire, and its operation: RED is neither and goes out as a store. -/
abbrev atomAcquires : Bool := !red && (md.kind == 1 || md.kind == 3)

abbrev atomKind (accs : List Acc) : OpKind :=
  if red then .store accs else .atom (goesTo d (if md.w64 then 2 else 1)) accs (atomAcquires md red)

theorem atomWords_eq : atomWords md op = atomRegs md op := by
  simp only [atomWords, beq_iff_eq]

theorem atomAct_eq (rd : Read) : (fun l => AccAct.rmw op (atomData md op rd l)) = atomAct md op rd := by
  funext l
  simp only [atomData, arg_eq, Bool.and_eq_true, beq_iff_eq]
  rfl

variable {t md d a b op red} {i : Instr}

theorem checks_atom_global (run : ∀ s, exec i s = atomOp op red t md d a b s) (h : md.sp = false) :
    Checks i t [(a, .int, 1), (b, .int, atomRegs md op)]
      (fun c rd s => c.globalLanes s (c.part s) md.treg (lanesAt c rd 0) (atomSize md) .write 2 true (decide (op ≠ 7)))
      (fun c rd ls s s2 => Requests c s s2 true ls (atomSize md) (atomAct md op rd) rd.p6 (atomKind md d red) (!red) (atomAcquires md red)) := by
  have dirty : (op != 7) = decide (op ≠ 7) := by simp [bne, beq_eq_decide]
  rw [← atomWords_eq]
  refine checks_of _ _ (fun s => by rw [run]; simp only [atomOp, h, Bool.false_eq_true, if_false]; rfl) (fun c s rd e stop => ?_)
    (fun c s rd s1 ls hr pass sound => ⟨(ls, []), ?_, fun rd1 hr1 => ⟨_, rfl, ?_⟩⟩)
  · simp only [offsets_eq, dirty, stop]
  · simp only [offsets_eq, dirty, pass, eccLanes_sound sound]
  · rw [atomAct_eq, ldest_eq]
    cases red
    · exact globalLoad_requests (releaseFor_notes ..) _ ls (atomKind md d false) _
    · exact globalOp_requests (releaseFor_notes ..) _ ls .store (.delay ..)

theorem checks_atom_scratch (run : ∀ s, exec i s = atomOp op red t md d a b s) (h : md.sp = true) :
    Checks i t [(a, .int, 1), (b, .int, atomRegs md op)]
      (fun c rd s => scratchCheck c s (lanesAt c rd 0) (atomSize md) true)
      (fun c rd ls s s2 => Requests c s s2 false ls (atomSize md) (atomAct md op rd) rd.p6 (atomKind md d red) (!red) (atomAcquires md red)) := by
  rw [← atomWords_eq]
  refine checks_of _ _ (fun s => by rw [run]; simp only [atomOp, h, if_true]; rfl) (fun c s rd e stop => ?_)
    (fun c s rd s1 ls hr pass sound => ⟨[], ?_, fun rd1 hr1 => ⟨_, rfl, ?_⟩⟩)
  · simp only [spAddrs_eq, scratchCheck_error stop]
  · obtain ⟨hc, rfl, rfl⟩ := scratchCheck_ok pass
    simp only [spAddrs_eq, hc, eccLanes_sound sound]
  · obtain ⟨-, rfl, rfl⟩ := scratchCheck_ok pass
    obtain rfl : rd1 = rd := Except.ok.inj (hr1.symm.trans hr)
    rw [atomAct_eq, ldest_eq, spAddrs_eq]
    cases red
    · exact coreOp_requests (spRelease_notes ..) _ (atomKind md d false) true _ _ fun _ => spLands_late _ _
    · exact coreOp_requests (spRelease_notes ..) _ .store false false 0 (nomatch ·)

end

/-- Settles O23: the body of each word is a check of its lanes and one operation with an access for each of them. -/
theorem accessesGoOut : Obligations.AccessesGoOut := by
  refine ⟨fun t md d tr a off => ⟨checks_ldg t md d tr a off, checks_ldp t md d a off⟩,
    fun t md m4 tr a b off => ⟨checks_stg t md tr a b off, checks_stp t md a b off, checks_stN4_global t m4 tr a b off,
      checks_stN4_scratch t m4 tr a b off⟩, fun t md d a b op => ?_⟩
  have words {i : Instr} {n : Nat} (run : ∀ s, exec i s = atomOp n false t md d a b s) :=
    And.intro (checks_atom_global run) (checks_atom_scratch run)
  have run := fun s => (rfl : exec (.red t md op a b) s = atomOp op.toNat true t md .discard a b s)
  exact ⟨words fun _ => rfl, words fun _ => rfl, words fun _ => rfl, words fun _ => rfl, words fun _ => rfl, words fun _ => rfl,
    words fun _ => rfl, words fun _ => rfl, checks_atom_global run, checks_atom_scratch run⟩

end Sys2Proof.AccessWords
end

-- Proof of the statement on streams and intersection (spec/05_memory_as_kernels_see_it.md)
section
/-! SUPPORT. Streams and intersections: what defines, starts and stops a stream, its fetches, and ISECT (R126, R281 to R284). -/

namespace Sys2Proof.StreamWords

open Sys2Proof Sys2Proof.Machine Sys2Proof.Says Sys2Proof.Laws Sys2Proof.LaneState Sys2Proof.SlotRequests

/-! ### SDEF, SSTART and SSTOP (R281, R282) -/

section
variable {t : Tail} {n : BitVec 2} {a b e : USrc} {d : Dst} {s : State} {c : Ctx}

theorem elog_eq (v : BitVec 64) : (v.extractLsb' 32 2).toNat = v.toNat / 2 ^ 32 % 4 := by
  rw [BitVec.extractLsb'_toNat, Nat.shiftRight_eq_div_pow]

/-- The count of SDEF is sound: nothing above the element's size and sign, and a size of 1, 2 or 4 bytes. -/
theorem sdef_reserved (v : BitVec 64) : (v.extractLsb' 35 29 != 0 || v.toNat / 2 ^ 32 % 4 == 3) = true ↔
    ¬ (v.toNat < 2 ^ 35 ∧ ¬ v.toNat / 2 ^ 32 % 4 = 3) := by
  have high : v.extractLsb' 35 29 = 0 ↔ v.toNat < 2 ^ 35 := by
    have := v.isLt
    rw [← BitVec.toNat_inj]
    simp only [BitVec.extractLsb'_toNat, Nat.shiftRight_eq_div_pow, BitVec.ofNat_eq_ofNat, BitVec.toNat_ofNat]
    omega
  rw [Bool.or_eq_true, bne_iff_ne, beq_iff_eq, Ne, high]
  omega

theorem exec_sdef (h : Acts s t c) :
    let ib := c.tk.uval a
    let db := c.tk.uval b
    let ct := c.tk.uval e
    let elog := ct.toNat / 2 ^ 32 % 4
    exec (.sdef t n a b e) s =
      if ¬ (ct.toNat < 2 ^ 35 ∧ elog ≠ 3) then trapped c s .qerr c.act 0 0
      else if ib.toNat % 4 ≠ 0 then trapped c s .align c.act ib.toNat 0
      else if db.toNat % 2 ^ elog ≠ 0 then trapped c s .align c.act db.toNat 0
      else if 2 ^ 48 ≤ ib.toNat then trapped c s .xlate c.act ib.toNat 0
      else if 2 ^ 48 ≤ db.toNat then trapped c s .xlate c.act db.toNat 0
      else retired t c (c.setStream (spent s) n (fun _ =>
        { bound := true, ibase := BitVec.ofNat 48 ib.toNat, dbase := BitVec.ofNat 48 db.toNat, elog := elog, sx := ct.getLsbD 34,
          count := ct.toNat % 2 ^ 32 })) false := by
  intro ib db ct elog
  change execSdef t n a b e s = _
  unfold execSdef
  rw [issueHeld_of h.toPasses]
  simp only [beq_false_of_ne h.act, Bool.false_eq_true, if_false, sdef_reserved, elog_eq, bne_iff_ne, ne_eq, high_bits_zero, not_not,
    low_bits_target, apply_ite (c.finish t (spent s))]
  simp only [BitVec.extractLsb'_toNat, Nat.shiftRight_zero]
  rfl

theorem exec_sstart_unbound (h : Acts s t c) (unbound : (c.tk.s.getD n.toNat {}).bound = false) :
    exec (.sstart t n a) s = trapped c s .qerr c.act 0 0 := by
  change execSstart t n a s = _
  unfold execSstart
  rw [issueHeld_of h.toPasses]
  simp only [beq_false_of_ne h.act, Bool.false_eq_true, if_false, unbound, Bool.not_false, if_true]
  rfl

theorem exec_sstart (h : Acts s t c) (bound : (c.tk.s.getD n.toNat {}).bound = true) :
    exec (.sstart t n a) s = retired t c (c.setStream (spent s) n (fun q =>
      { q with started := true, cursor := (c.tk.uval a).toNat % 2 ^ 32, next := (c.tk.uval a).toNat % 2 ^ 32, fifo := [],
               faulted := false, due := c.sl.homes.foldl (fun m e => max m e.2) (max (s.now + 1) (s.fifoAll (c.core / 8))) })) false := by
  change execSstart t n a s = _
  unfold execSstart
  rw [issueHeld_of h.toPasses]
  simp only [beq_false_of_ne h.act, Bool.false_eq_true, if_false, bound, Bool.not_true, BitVec.extractLsb'_toNat, Nat.shiftRight_zero]
  rfl

theorem exec_sstop_unbound (h : Acts s t c) (unbound : (c.tk.s.getD n.toNat {}).bound = false) :
    exec (.sstop t d n) s = trapped c s .qerr c.act 0 0 := by
  change execSstop t d n s = _
  unfold execSstop
  rw [issueHeld_of h.toPasses]
  simp only [beq_false_of_ne h.act, Bool.false_eq_true, if_false, unbound, Bool.not_false, if_true]
  rfl

theorem above_word (k : BitVec 32) (n : Nat) : (k ++ BitVec.ofNat 32 n).setWidth 128 = BitVec.ofNat 128 (n % 2 ^ 32 + 2 ^ 32 * k.toNat) := by
  apply BitVec.eq_of_toNat_eq
  have hn : n % 2 ^ 32 < 2 ^ 32 := Nat.mod_lt _ (by decide)
  rw [BitVec.toNat_setWidth, BitVec.toNat_append, BitVec.toNat_ofNat, BitVec.toNat_ofNat, ← Nat.shiftLeft_add_eq_or_of_lt hn,
    Nat.shiftLeft_eq]
  congr 1
  omega

/-- The status word of a stream as a number. -/
theorem status_eq (st : Stream) : st.status.setWidth 128 = BitVec.ofNat 128 (st.cursor % 2 ^ 32 + (if st.started then 2 ^ 32 else 0) +
    (if st.count ≤ st.cursor then 2 ^ 33 else 0) + (if st.faulted then 2 ^ 34 else 0)) := by
  unfold Stream.status
  rw [above_word]
  congr 1
  rw [Nat.add_assoc (st.cursor % 2 ^ 32 + _), Nat.add_assoc (st.cursor % 2 ^ 32)]
  congr 1
  by_cases h : st.count ≤ st.cursor <;> simp only [h, decide_true, decide_false, if_true, if_false] <;>
    cases st.started <;> cases st.faulted <;> rfl

theorem exec_sstop (h : Acts s t c) (bound : (c.tk.s.getD n.toNat {}).bound = true) :
    let stopped := c.setStream (spent s) n (fun q => { q with started := false, next := q.cursor, fifo := [], faulted := false })
    exec (.sstop t d n) s = retired t c (c.longOp stopped.delay.2 (1 + stopped.delay.1)
      (.values (goesTo d 2) (splat ((c.tk.s.getD n.toNat {}).status.setWidth 128)) none none)) true := by
  intro stopped
  change execSstop t d n s = _
  unfold execSstop
  rw [issueHeld_of h.toPasses]
  simp only [beq_false_of_ne h.act, Bool.false_eq_true, if_false, bound, Bool.not_true, AccessWords.ldest_eq]
  rfl

end

/-! ### Stream fetches (R126, R283) -/

/-- The fetch of an entry touches no gang. -/
theorem streamEntry_gangs (s : State) (core : Nat) (p : Partition) (tenant : Nat) (sup : Bool) (st : Stream) (rd : Reader) :
    (s.streamEntry core p tenant sup st rd).1.gangs = s.gangs := by
  unfold State.streamEntry
  generalize laneNums = ls
  generalize (Except.ok [] : Except (Walk × Nat) (Lanes 32)) = got
  induction ls generalizing s got with
  | nil => rfl
  | cons l ls ih =>
    rw [List.foldl_cons, ih]
    cases got with
    | error e => rfl
    | ok vs =>
      dsimp only
      split
      · rfl
      split
      · next s' a _ _ _ _ _ _ _ walk =>
        have h1 : s'.gangs = s.gangs := (congrArg (fun q => q.1.gangs) walk).symm.trans (translate_gangs ..)
        have h2 : (s'.eccGlobal p a 4 rd).s.gangs = s.gangs := (eccGlobal_gangs ..).trans h1
        split
        · exact h2
        split
        · next s'' b _ _ _ _ _ _ _ walk' =>
          have h3 : s''.gangs = s.gangs := ((congrArg (fun q => q.1.gangs) walk').symm.trans (translate_gangs ..)).trans h2
          split
          · exact (eccGlobal_gangs ..).trans h3
          · exact (eccGlobal_gangs ..).trans h3
        · next s'' w _ walk' => exact ((congrArg (fun q => q.1.gangs) walk').symm.trans (translate_gangs ..)).trans h2
      · next s' w _ walk => exact (congrArg (fun q => q.1.gangs) walk).symm.trans (translate_gangs ..)

section
variable {s : State} {g t n core : Nat} {x : Gang} {y : Tussock} {st : Stream} {p : Partition}

/-- A stream that may fetch: it runs, has not met a fault, and has room, entries left and its clock. -/
structure Fetches (s : State) (st : Stream) : Prop where
  started : st.started = true
  well    : st.faulted = false
  room    : st.fifo.length < 16
  more    : st.next < st.count
  due     : st.due ≤ s.now

theorem exec_streamFetch (hx : s.gang? g = some x) (hy : s.tk? g t = some y) (hst : y.s[n]? = some st) (hp : s.part? x.part = some p)
    (hc : x.core = some core) (f : Fetches s st) :
    let got := s.streamEntry core p x.tenant y.sup st (s.readerOf g)
    let put := fun (f : Stream → Stream) => got.1.delay.2.modTk g t (fun y => { y with s := y.s.modify n f })
    exec (.streamFetch g t n) s = match got.2 with
      | .error (.mchk _, _) => .next (got.1.abortDomain x.part x.tenant x.domain TrapCode.mchk.num 0)
      | .error _ => .next (put (fun q => { q with faulted := true }))
      | .ok vs => .next (put (fun q => { q with fifo := q.fifo ++ [vs], next := min (q.next + 32) q.count, due := s.now + 1 + got.1.delay.1 })) := by
  obtain ⟨started, well, room, more, due⟩ := f
  intro got put
  change execStreamFetch g t n s = _
  unfold execStreamFetch
  simp only [hx, hy, Option.bind_some, hst, hp, hc, started, well, Nat.not_le.2 room, Nat.not_le.2 more, Nat.not_lt.2 due,
    Bool.not_true, decide_false, Bool.or_false, Bool.false_eq_true, if_false, Option.map_some, Option.getD_some]
  rfl

/-- What a fetch changes that meets no lasting error: one stream of the tussock. -/
theorem put_stream {got : State} (hg : got.gangs = s.gangs) (hy : s.tk? g t = some y) (hst : y.s[n]? = some st) (f : Stream → Stream) :
    ∃ y', (got.delay.2.modTk g t (fun y => { y with s := y.s.modify n f })).tk? g t = some y' ∧ y'.n = y.n ∧ y'.g = y.g ∧
      (∀ k, k ≠ n → y'.s[k]? = y.s[k]?) ∧ y'.s[n]? = some (f st) := by
  have hy' : got.delay.2.tk? g t = some y := by rw [← hy, State.tk?, State.tk?, State.gang?, State.gang?, State.delay_gangs, hg]
  refine ⟨{ y with s := y.s.modify n f }, by rw [tk?_modTk, hy']; rfl, rfl, rfl, fun k hk => ?_, ?_⟩
  · simp [Ne.symm hk]
  · simp [hst]

end

/-! ### ISECT on two lists (R284) -/

theorem risingPrefix_prefix (l : List Nat) : risingPrefix l <+: l := by
  induction l using risingPrefix.induct with
  | case1 => exact List.prefix_rfl
  | case2 x => exact List.prefix_rfl
  | case3 x y rest h ih => rw [risingPrefix, if_pos h]; exact (List.prefix_cons_inj x).2 ih
  | case4 x y rest h => rw [risingPrefix, if_neg h]; exact List.prefix_append [x] _

theorem risingPrefix_ne_nil {l : List Nat} (h : l ≠ []) : risingPrefix l ≠ [] := by
  match l with
  | [x] => nofun
  | x :: y :: rest => rw [risingPrefix]; split <;> nofun

theorem risingPrefix_head (x : Nat) (l : List Nat) : (risingPrefix (x :: l)).head? = some x := by
  cases l with
  | nil => rfl
  | cons y rest => rw [risingPrefix]; split <;> rfl

theorem risingPrefix_sorted (l : List Nat) : (risingPrefix l).Pairwise (· < ·) := by
  induction l using risingPrefix.induct with
  | case1 => exact .nil
  | case2 x => exact List.pairwise_singleton ..
  | case3 x y rest h ih =>
    rw [risingPrefix, if_pos h, List.pairwise_cons]
    refine ⟨fun z hz => ?_, ih⟩
    obtain ⟨q, hq⟩ : ∃ q, risingPrefix (y :: rest) = y :: q := List.head?_eq_some_iff.1 (risingPrefix_head y rest)
    rw [hq] at hz ih
    rcases List.mem_cons.1 hz with rfl | hz
    · exact h
    · exact Nat.lt_trans h (List.rel_of_pairwise_cons ih hz)
  | case4 x y rest h => rw [risingPrefix, if_neg h]; exact List.pairwise_singleton ..

/-- The run stops where the next element is not above its last. -/
theorem risingPrefix_stops (l : List Nat) (h : (risingPrefix l).length < l.length) :
    l.getD (risingPrefix l).length 0 ≤ l.getD ((risingPrefix l).length - 1) 0 := by
  induction l using risingPrefix.induct with
  | case1 => exact absurd h (Nat.lt_irrefl _)
  | case2 x => exact absurd h (Nat.lt_irrefl _)
  | case3 x y rest hxy ih =>
    rw [risingPrefix, if_pos hxy] at h ⊢
    have := ih (by simpa using h)
    obtain ⟨q, hq⟩ := List.head?_eq_some_iff.1 (risingPrefix_head y rest)
    rw [hq] at this ⊢
    simpa using this
  | case4 x y rest hxy =>
    rw [risingPrefix, if_neg hxy]
    simpa using hxy

/-- Of a rising list the elements up to a bound come first. -/
theorem filter_le_prefix {l : List Nat} (h : l.Pairwise (· < ·)) (m : Nat) : l.filter (fun v => v ≤ m) <+: l := by
  induction l with
  | nil => exact List.prefix_rfl
  | cons x xs ih =>
    obtain ⟨hx, hxs⟩ := List.pairwise_cons.1 h
    by_cases hm : x ≤ m
    · rw [List.filter_cons_of_pos (by simpa using hm)]
      exact (List.prefix_cons_inj x).2 (ih hxs)
    · have none_left : (x :: xs).filter (fun v => v ≤ m) = [] := List.filter_eq_nil_iff.2 fun v hv => by
        rcases List.mem_cons.1 hv with rfl | hv
        · simpa using hm
        · have := hx v hv
          simp only [decide_eq_true_eq]
          omega
      rw [none_left]
      exact List.nil_prefix

theorem prefix_getD {l k : List Nat} (h : l <+: k) {i : Nat} (hi : i < l.length) : l.getD i 0 = k.getD i 0 := by
  rw [List.getD_eq_getElem _ _ hi, List.getD_eq_getElem _ _ (Nat.lt_of_lt_of_le hi h.length_le), h.getElem hi]

/-- The pairs of equal elements of two lists, by their positions. -/
abbrev equalPairs (pa pb : List Nat) : List (Nat × Nat) :=
  pa.zipIdx.flatMap (fun x => (pb.zipIdx.filter (fun y => y.1 == x.1)).map (fun y => (x.2, y.2)))

theorem mem_equalPairs (pa pb : List Nat) (i j : Nat) : (i, j) ∈ equalPairs pa pb ↔
    i < pa.length ∧ j < pb.length ∧ pa.getD i 0 = pb.getD j 0 := by
  have values : (i, j) ∈ equalPairs pa pb ↔ ∃ v, pa[i]? = some v ∧ pb[j]? = some v := by
    simp only [List.mem_flatMap, List.mem_map, List.mem_filter, Prod.exists, List.mem_zipIdx_iff_getElem?, beq_iff_eq, Prod.mk.injEq]
    constructor
    · rintro ⟨v, i', hi, w, j', ⟨hj, rfl⟩, rfl, rfl⟩
      exact ⟨w, hi, hj⟩
    · rintro ⟨v, hi, hj⟩
      exact ⟨v, i, hi, v, j, ⟨hj, rfl⟩, rfl, rfl⟩
  rw [values]
  constructor
  · rintro ⟨v, hi, hj⟩
    obtain ⟨li, hi⟩ := List.getElem?_eq_some_iff.1 hi
    obtain ⟨lj, hj⟩ := List.getElem?_eq_some_iff.1 hj
    exact ⟨li, lj, by rw [List.getD_eq_getElem _ _ li, List.getD_eq_getElem _ _ lj, hi, hj]⟩
  · rintro ⟨li, lj, h⟩
    rw [List.getD_eq_getElem _ _ li, List.getD_eq_getElem _ _ lj] at h
    exact ⟨pa[i], List.getElem?_eq_getElem li, h ▸ List.getElem?_eq_getElem lj⟩

theorem equalPairs_rise (pa : List Nat) {pb : List Nat} (h : pb.Pairwise (· < ·)) : (equalPairs pa pb).Pairwise (fun u v => u.1 < v.1) := by
  have index : pa.zipIdx.Pairwise (fun u v => u.2 < v.2) := by
    rw [← List.pairwise_map (R := (· < ·)) (f := Prod.snd), List.zipIdx_map_snd]
    exact List.pairwise_lt_range' ..
  have value : pb.zipIdx.Pairwise (fun u v => u.1 < v.1) := by
    rwa [← List.pairwise_map (R := (· < ·)) (f := Prod.fst), List.zipIdx_map_fst]
  refine List.pairwise_flatMap.2 ⟨fun x _ => ?_, index.imp fun hij u hu v hv => ?_⟩
  · rw [List.pairwise_map]
    refine (value.filter _).imp_of_mem fun hu hv huv => ?_
    have eu := beq_iff_eq.1 (List.mem_filter.1 hu).2
    have ev := beq_iff_eq.1 (List.mem_filter.1 hv).2
    omega
  · obtain ⟨u', -, rfl⟩ := List.mem_map.1 hu
    obtain ⟨v', -, rfl⟩ := List.mem_map.1 hv
    exact hij

/-- The elements of a list's rising run up to a bound. -/
abbrev upTo (m : Nat) (l : List Nat) : List Nat := (risingPrefix l).filter (fun v => v ≤ m)

/-- The last element of a list's rising run. -/
abbrev lastOf (l : List Nat) : Nat := l.getD ((risingPrefix l).length - 1) 0

theorem getLast?_risingPrefix {l : List Nat} (h : l ≠ []) : (risingPrefix l).getLast? = some (lastOf l) := by
  have pos : 0 < (risingPrefix l).length := List.length_pos_iff.2 (risingPrefix_ne_nil h)
  rw [List.getLast?_eq_getElem?, List.getElem?_eq_getElem (by omega), lastOf, ← prefix_getD (risingPrefix_prefix l) (by omega),
    List.getD_eq_getElem _ _ (by omega)]

theorem isect_eq {as bs : List Nat} (ha : as ≠ []) (hb : bs ≠ []) :
    let m := min (lastOf as) (lastOf bs)
    isect as bs = (equalPairs (upTo m as) (upTo m bs), (upTo m as).length, (upTo m bs).length,
      decide ((risingPrefix as).length < as.length) || decide ((risingPrefix bs).length < bs.length)) := by
  simp only [isect, getLast?_risingPrefix ha, getLast?_risingPrefix hb]

/-- The rising run that ISECT takes of a list. -/
theorem risingPrefix_rises {l : List Nat} (h : l ≠ []) :
    let n := (risingPrefix l).length
    n ≤ l.length ∧ (∀ i, i + 1 < n → l.getD i 0 < l.getD (i + 1) 0) ∧ (n < l.length → l.getD n 0 ≤ l.getD (n - 1) 0) ∧ 0 < n := by
  have pre := risingPrefix_prefix l
  refine ⟨pre.length_le, fun i hi => ?_, risingPrefix_stops l, List.length_pos_iff.2 (risingPrefix_ne_nil h)⟩
  rw [← prefix_getD pre (by omega), ← prefix_getD pre hi, List.getD_eq_getElem _ _ (by omega), List.getD_eq_getElem _ _ hi]
  exact List.pairwise_iff_getElem.1 (risingPrefix_sorted l) i (i + 1) (by omega) hi (by omega)

theorem upTo_getD (m : Nat) (l : List Nat) {i : Nat} (hi : i < (upTo m l).length) : (upTo m l).getD i 0 = l.getD i 0 :=
  prefix_getD ((filter_le_prefix (risingPrefix_sorted l) m).trans (risingPrefix_prefix l)) hi

theorem upTo_eq (m : Nat) (l : List Nat) : upTo m l = (l.take (risingPrefix l).length).filter (fun v => v ≤ m) := by
  rw [← List.prefix_iff_eq_take.1 (risingPrefix_prefix l)]

/-- What ISECT does with two lists. -/
theorem isect_spec {as bs : List Nat} (ha : as ≠ []) (hb : bs ≠ []) :
    let r := isect as bs
    let m := min (lastOf as) (lastOf bs)
    (r.2.2.2 = true ↔ (risingPrefix as).length < as.length ∨ (risingPrefix bs).length < bs.length) ∧
    (r.2.1 = ((as.take (risingPrefix as).length).filter (fun v => v ≤ m)).length ∧
      r.2.2.1 = ((bs.take (risingPrefix bs).length).filter (fun v => v ≤ m)).length) ∧
    (∀ i j, (i, j) ∈ r.1 ↔ i < r.2.1 ∧ j < r.2.2.1 ∧ as.getD i 0 = bs.getD j 0) ∧ r.1.Pairwise (fun u v => u.1 < v.1) := by
  intro r m
  have run : r = _ := isect_eq ha hb
  rw [run]
  refine ⟨by simp, ⟨congrArg _ (upTo_eq ..), congrArg _ (upTo_eq ..)⟩, fun i j => ?_, equalPairs_rise _ ((risingPrefix_sorted bs).filter _)⟩
  rw [mem_equalPairs]
  refine and_congr_right fun hi => and_congr_right fun hj => ?_
  rw [upTo_getD _ _ hi, upTo_getD _ _ hj]

/-! ### The word ISECT (R284) -/

/-- Values put at the places that a list names, each once. -/
theorem foldl_set_getD {w : Nat} (f : Nat → BitVec w) {ls : List (Nat × Nat)} (apart : ls.Pairwise (fun u v => u.1 ≠ v.1))
    (v : Lanes w) {e : Nat × Nat} (he : e ∈ ls) (hv : e.1 < v.length) :
    (ls.foldl (fun v e => v.set e.1 (f e.2)) v).getD e.1 0 = f e.2 := by
  have kept (ls : List (Nat × Nat)) (v : Lanes w) (h : ∀ u ∈ ls, u.1 ≠ e.1) :
      (ls.foldl (fun v e => v.set e.1 (f e.2)) v).getD e.1 0 = v.getD e.1 0 := by
    induction ls generalizing v with
    | nil => rfl
    | cons u ls ih =>
      rw [List.foldl_cons, ih _ fun q hq => h q (by simp [hq])]
      simp [List.getD_eq_getElem?_getD, List.getElem?_set_ne (h u (by simp))]
  induction ls generalizing v with
  | nil => cases he
  | cons u ls ih =>
    obtain ⟨hu, hls⟩ := List.pairwise_cons.1 apart
    rcases List.mem_cons.1 he with rfl | he
    · rw [List.foldl_cons, kept ls _ fun q hq => (hu q hq).symm]
      simp [List.getD_eq_getElem?_getD, hv]
    · exact ih hls _ he (by simpa using hv)

/-- What the lane of rank m takes: the m-th pair, or all ones past the last. -/
def pairWord (pairs : List (Nat × Nat)) (m : Nat) : BitVec 128 :=
  match pairs[m]? with
  | some (i, j) => BitVec.ofNat 128 (j * 2 ^ 16 + i)
  | none => 0xFFFFFFFF

section
variable (t : Tail) (tr : Bool) (d : Dst) (a b : Src) (g : BitVec 6)

/-- The keys of the active lanes, and what ISECT makes of them. -/
abbrev keys (c : Ctx) (rd : Read) (k : Nat) : List Nat :=
  ((List.range 32).filter (fun l => c.act.getLsbD l)).map (fun l => ((rd.v.getD k []).getD l 0).toNat % 2 ^ 32)

abbrev isectOf (c : Ctx) (rd : Read) : List (Nat × Nat) × Nat × Nat × Bool := isect (keys c rd 0) (keys c rd 1)

theorem keys_eq (c : Ctx) (rd : Read) (k : Nat) : (lanesOf c.act).map (fun l => (arg32 rd.v k l).toNat) = keys c rd k := by
  refine List.map_congr_left fun l _ => ?_
  rw [arg32, AccessWords.arg_eq, BitVec.extractLsb'_toNat, Nat.shiftRight_zero]

theorem checks_isect : Checks (.isect t tr d a b g) t [(a, .int, 1), (b, .int, 1)]
    (fun c rd s => if tr = true ∧ (isectOf c rd).2.2.2 = true then .error (c.trap .sort) else .ok (s, ()))
    (fun c rd _ s s2 => SameData s s2 ∧ ∃ vals,
      let r := isectOf c rd
      let st := BitVec.ofNat 64 ((if r.2.2.2 then 2 ^ 24 else 0) + r.2.2.1 * 2 ^ 16 + r.2.1 * 2 ^ 8 + r.1.length)
      s2.ops = s.ops ++ [opOf c s (some c.core) (c.clk + 12) rd.p6 (.values (goesTo d 1) vals none (some (g.toNat, st)))] ∧
      ∀ (m l : Nat), ((List.range 32).filter (fun l => c.act.getLsbD l))[m]? = some l → vals.getD l 0 = pairWord r.1 m) := by
  refine checks_of _ _ (fun s => by change execIsect t tr d a b g s = _; dsimp only [execIsect]) (fun c s rd e stop => ?_)
    (fun c s rd s1 _ hr pass sound => ⟨(), ?_, fun rd1 hr1 => ⟨_, rfl, ?_⟩⟩)
  · simp only [keys_eq, Bool.and_eq_true]
    exact stop
  · simp only [keys_eq, Bool.and_eq_true]
    exact pass
  · simp only [keys_eq, AccessWords.ldest_eq]
    refine ⟨⟨rfl, rfl, rfl, rfl, rfl, rfl, rfl⟩, _, rfl, fun m l hl => ?_⟩
    have lanes : (lanesOf c.act).zipIdx.Pairwise (fun u v => u.1 ≠ v.1) := by
      rw [← List.pairwise_map (R := (· ≠ ·)) (f := Prod.fst), List.zipIdx_map_fst]
      exact (TagTables.lanesOf_sorted c.act).imp Nat.ne_of_lt
    have here : (l, m) ∈ (lanesOf c.act).zipIdx := List.mem_zipIdx_iff_getElem?.2 hl
    have small : l < (splat (0 : BitVec 128)).length := by
      rw [splat, List.length_replicate]
      exact List.mem_range.1 (List.mem_filter.1 (List.mem_of_getElem? hl)).1
    have value := foldl_set_getD (fun i => match (isectOf c rd1).1[i]? with
      | some p => BitVec.ofNat 128 (p.2 * 65536 + p.1)
      | none => 0xFFFFFFFF) lanes (splat 0) here small
    refine value.trans ?_
    unfold pairWord
    cases (isectOf c rd1).1[m]? <;> rfl

end

/-- Settles O37: the words of streams set one stream register; a fetch touches no gang but through its stream; ISECT takes the longest
rising prefixes. -/
theorem streamsAndIntersection : Obligations.StreamsAndIntersection := by
  refine ⟨fun t n a b e d s c h => ?_, fun s g t n core x y st p hx hy hst hp hc started well room more due => ?_,
    fun as bs len ha => ?_, fun t tr d a b g => checks_isect t tr d a b g⟩
  · have run := exec_sdef (n := n) (a := a) (b := b) (e := e) h
    refine ⟨fun bad => ?_, fun fine odd => ?_, fun fine even odd => ?_, fun fine even even' far => ?_, fun fine even even' near far => ?_,
      fun fine even even' near near' => ?_, fun unbound => ⟨exec_sstart_unbound h unbound, exec_sstop_unbound h unbound⟩, fun bound =>
      ⟨exec_sstart h bound, ?_⟩⟩
    · rw [run, if_pos bad]
    · rw [run, if_neg (not_not.2 fine), if_pos odd]
    · rw [run, if_neg (not_not.2 fine), if_neg (not_not.2 even), if_pos odd]
    · rw [run, if_neg (not_not.2 fine), if_neg (not_not.2 even), if_neg (not_not.2 even'), if_pos far]
    · rw [run, if_neg (not_not.2 fine), if_neg (not_not.2 even), if_neg (not_not.2 even'), if_neg (Nat.not_le.2 near), if_pos far]
    · rw [run, if_neg (not_not.2 fine), if_neg (not_not.2 even), if_neg (not_not.2 even'), if_neg (Nat.not_le.2 near),
        if_neg (Nat.not_le.2 near')]
      rfl
    · have run := exec_sstop (d := d) h bound
      rw [status_eq] at run
      exact ⟨_, _, run, ⟨rfl, rfl, rfl, rfl, rfl, rfl, rfl⟩, Nat.lt_add_of_pos_right (Nat.add_pos_left Nat.one_pos _), rfl⟩
  · have run := exec_streamFetch hx hy hst hp hc ⟨started, well, room, more, due⟩
    have hg := streamEntry_gangs s core p x.tenant y.sup st (s.readerOf g)
    dsimp only at run ⊢
    generalize s.streamEntry core p x.tenant y.sup st (s.readerOf g) = got at run hg ⊢
    obtain ⟨u, out⟩ := got
    refine ⟨fun a l lost => by rw [run, lost], fun sound => ?_⟩
    cases out with
    | error e =>
      obtain ⟨y', hy', hn, hgr, other, this⟩ := put_stream hg hy hst (fun q => { q with faulted := true })
      refine ⟨_, y', ?_, ?_, hy', hn, hgr, other, fun _ _ => this, nofun⟩
      · obtain ⟨w, l⟩ := e
        rw [run]
        cases w with
        | mchk a => exact absurd rfl (sound a l)
        | _ => rfl
      · rfl
    | ok vs =>
      obtain ⟨y', hy', hn, hgr, other, this⟩ := put_stream hg hy hst (fun q =>
        { q with fifo := q.fifo ++ [vs], next := min (q.next + 32) q.count, due := s.now + 1 + u.delay.1 })
      refine ⟨_, y', run, ?_, hy', hn, hgr, other, nofun, fun vs' e => ?_⟩
      · rfl
      · obtain rfl : vs = vs' := Except.ok.inj e
        exact ⟨s.now + 1 + u.delay.1, by omega, this⟩
  · have hb : bs ≠ [] := fun h => ha (List.length_eq_zero_iff.1 (len.trans (congrArg List.length h)))
    exact ⟨_, _, risingPrefix_rises ha, risingPrefix_rises hb, isect_spec ha hb⟩

end Sys2Proof.StreamWords
end

-- Proof of the statement on engine commands (spec/05_memory_as_kernels_see_it.md)
section
/-! SUPPORT. Engine commands and the region table: the checks of a command's barrier, and what goes to a free engine (R104, R105, R111,
R112, R114, R285 to R290). -/

namespace Sys2Proof.EngineWords

open Sys2Proof Sys2Proof.Machine Sys2Proof.Says Sys2Proof.Laws Sys2Proof.LaneState Sys2Proof.SlotRequests

/-! ### The issuing slot -/

theorem ctx_gang {s : State} {t : Tail} {c : Ctx} (h : s.ctx? t = some c) : s.gang? c.g = some c.x := by
  unfold State.ctx? at h
  repeat' (split at h)
  all_goals first
    | (injection h with h; rw [← h]; assumption)
    | cases h

theorem ctx_tk {s : State} {t : Tail} {c : Ctx} (h : s.ctx? t = some c) : s.tk? c.g c.t = some c.tk := by
  rw [State.tk?, ctx_gang h]
  unfold State.ctx? at h
  repeat' (split at h)
  all_goals first
    | (injection h with h; rw [← h]; assumption)
    | cases h

/-! ### A command's barrier (R111, R171) -/

section
variable (c : Ctx)

/-- A barrier lies in the gang's allocation. -/
def Inside (bar : Option Nat) : Prop := ∀ x, bar = some x → x < c.x.foot.sp

/-- A barrier lies in the gang's allocation at a multiple of 16. -/
def Sound (bar : Option Nat) : Prop := ∀ x, bar = some x → x < c.x.foot.sp ∧ x % 16 = 0

theorem objFault_word {b : Nat} (hb : b < 2 ^ 32) (size : Nat) : c.objFault (BitVec.ofNat 64 b) size =
    if c.x.foot.sp ≤ b then some (c.trap .prot b) else if b % size ≠ 0 then some (c.trap .align b) else none := by
  have low : (BitVec.ofNat 64 b).toNat = b := by rw [BitVec.toNat_ofNat]; omega
  have high : ((BitVec.ofNat 64 b).extractLsb' 32 32 != 0) = false := by
    rw [bne_eq_false_iff_eq, ← BitVec.toNat_inj, BitVec.extractLsb'_toNat, low, Nat.shiftRight_eq_div_pow, Nat.div_eq_of_lt hb]
    rfl
  have word : ((BitVec.ofNat 64 b).extractLsb' 0 32).toNat = b := by
    rw [BitVec.extractLsb'_toNat, low, Nat.shiftRight_zero, Nat.mod_eq_of_lt hb]
  unfold Ctx.objFault
  simp only [high, word, low, Bool.false_or, decide_eq_true_eq, bne_iff_ne]

theorem absBar_eq (e : EFields) (n : Nat) : c.absBar e n =
    if e.abs = 0 then none else some ((c.tk.g.getD (e.p.toNat + n - 1 + e.abs.toNat) 0).toNat % 2 ^ 32) := by
  simp only [Ctx.absBar, beq_iff_eq, BitVec.extractLsb'_toNat, Nat.shiftRight_zero]
  rfl

/-- The number of a barrier is a word. -/
def IsWord (bar : Option Nat) : Prop := ∀ x, bar = some x → x < 2 ^ 32

theorem isWord_absBar (e : EFields) (n : Nat) : IsWord (c.absBar e n) := by
  intro x hx
  rw [absBar_eq] at hx
  split at hx
  · cases hx
  · obtain rfl := Option.some.inj hx
    exact Nat.mod_lt _ (by decide)

variable {c} {bar : Option Nat}

theorem barFault_sound (word : IsWord bar) (h : Sound c bar) : c.barFault bar = none := by
  cases bar with
  | none => rfl
  | some b =>
    obtain ⟨inside, even⟩ := h b rfl
    rw [Ctx.barFault, Option.bind_some, objFault_word c (word b rfl), if_neg (Nat.not_le.2 inside), if_neg (not_not.2 even)]

theorem barFault_outside (word : IsWord bar) (h : ¬ Inside c bar) : ∃ b, bar = some b ∧ c.x.foot.sp ≤ b ∧ c.barFault bar = some (c.trap .prot b) := by
  simp only [Inside, not_forall, Nat.not_lt] at h
  obtain ⟨b, rfl, out⟩ := h
  exact ⟨b, rfl, out, by rw [Ctx.barFault, Option.bind_some, objFault_word c (word b rfl), if_pos out]⟩

theorem barFault_misaligned (word : IsWord bar) (inside : Inside c bar) (h : ¬ Sound c bar) : ∃ b, c.barFault bar = some (c.trap .align b) := by
  simp only [Sound, not_forall, not_and] at h
  obtain ⟨b, rfl, odd⟩ := h
  have within := inside b rfl
  exact ⟨b, by rw [Ctx.barFault, Option.bind_some, objFault_word c (word b rfl), if_neg (Nat.not_le.2 within), if_pos (odd within)]⟩

end

/-! ### A command that goes to its engine (R106, R112, R114, R273, R288) -/

/-- What a command finds that goes out at once: no window, a core, room at its engine and for its range locks, and held tokens. -/
structure Ready (c : Ctx) (s : State) (eng : Engine) (n tokens : Nat) : Prop where
  windows : ∀ w ∈ c.x.windows, w = none
  core    : c.core < s.cores.length
  room    : (s.ops.filter (fun o => o.core == some c.core && o.engine == some eng)).length < 16
  locks   : (s.core c.core).locks.length + n ≤ 32
  lockOp  : c.sl.phase.lockOp = none
  granted : c.sl.phase.granted = false
  tokens  : tokens ≤ c.tk.tokens

theorem Ready.of {c : Ctx} {s : State} {eng : Engine} {n tokens : Nat} (h : (∀ w ∈ c.x.windows, w = none) ∧ c.core < s.cores.length ∧
    (s.ops.filter (fun o => o.core == some c.core && o.engine == some eng)).length < 16 ∧ (s.core c.core).locks.length + n ≤ 32 ∧
    c.sl.phase.lockOp = none ∧ c.sl.phase.granted = false ∧ tokens ≤ c.tk.tokens) : Ready c s eng n tokens := by
  obtain ⟨windows, core, room, locks, lockOp, granted, enough⟩ := h
  exact ⟨windows, core, room, locks, lockOp, granted, enough⟩

theorem Ready.spent {c : Ctx} {s : State} {eng : Engine} {n tokens : Nat} (h : Ready c s eng n tokens) : Ready c (spent s) eng n tokens := by
  obtain ⟨windows, core, room, locks, lockOp, granted, enough⟩ := h
  exact ⟨windows, core, room, locks, lockOp, granted, enough⟩

section
variable {c : Ctx} {s : State} {t : Tail} {eng : Engine} {tokens : Nat} {rs : List (Bool × Nat × Nat × Bool)}

/-- A range lock of a command of the issuing slot. -/
abbrev lockOf (c : Ctx) (s : State) (r : Bool × Nat × Nat × Bool) : Lock :=
  { op := s.nextOp, gang := c.g, glob := r.1, part := c.x.part, tenant := c.x.tenant, lo := r.2.1, hi := r.2.2.1, isDst := r.2.2.2 }

theorem heldByWindow_none (h : ∀ w ∈ c.x.windows, w = none) (sp : List (Nat × Nat)) : c.heldByWindow s sp = none := by
  unfold Ctx.heldByWindow
  rw [LaneAccess.touched_none h]
  rfl

/-- A need that a tussock's held tokens cover is drawn from them. -/
theorem leaveFor_held {y : Tussock} (hy : s.tk? c.g c.t = some y) (h : c.sl.phase.granted = false) (enough : tokens ≤ y.tokens) :
    c.leaveFor s tokens = .ok (s.modTk c.g c.t (fun y => { y with tokens := y.tokens - tokens })) := by
  have drawn : s.drawHeld c.g [c.t] tokens = (s.modTk c.g c.t (fun y => { y with tokens := y.tokens - tokens }), 0) := by
    simp only [State.drawHeld, hy, Option.map_some, Option.getD_some, Nat.min_eq_right enough, Nat.sub_self]
  unfold Ctx.leaveFor State.seekLeave
  simp only [h, drawn, Bool.false_eq_true, if_false, beq_self_eq_true, if_true]

/-- What a command leaves that goes to its engine. -/
structure Sent (c : Ctx) (s s2 : State) (rs : List (Bool × Nat × Nat × Bool)) (tokens : Nat) (kind : OpKind) : Prop where
  mem   : s2.mem = s.mem
  ops   : s2.ops = s.ops ++ [opOf c s (some c.core) (c.clk + 20) none kind]
  locks : (s2.core c.core).locks = (s.core c.core).locks ++ rs.map (lockOf c s)
  tk    : ∃ y, s2.tk? c.g c.t = some y ∧ y.tokens = c.tk.tokens - tokens ∧ y.n = c.tk.n ∧ y.g = c.tk.g ∧ y.p = c.tk.p

theorem launch_goes (hy : s.tk? c.g c.t = some c.tk) (h : Ready c s eng rs.length tokens) (sp : List (Nat × Nat)) (kind : Nat → OpKind) :
    ∃ s2, c.launch s eng sp rs tokens (fun _ id => kind id) = .next s2 true ∧ Sent c s s2 rs tokens (kind s.nextOp) := by
  obtain ⟨windows, core, room, locks, lockOp, granted, enough⟩ := h
  let s1 := (c.lock { s with nextOp := s.nextOp + 1 } s.nextOp rs).modSlot c.g c.t c.k
    (fun x => { x with phase := { x.phase with lockOp := some s.nextOp } })
  have reserved : c.reserveLocks s rs = .ok (s1, s.nextOp) := by
    unfold Ctx.reserveLocks
    simp only [lockOp, State.lockRoom, show ¬ 32 - (s.core c.core).locks.length < rs.length by omega, if_false]
    rfl
  obtain ⟨y, hy1, same, hn, hg, hp⟩ : ∃ y, s1.tk? c.g c.t = some y ∧ y.tokens = c.tk.tokens ∧ y.n = c.tk.n ∧ y.g = c.tk.g ∧ y.p = c.tk.p :=
    ⟨_, (tk?_modTk ..).trans (congrArg (Option.map _) hy), rfl, rfl, rfl, rfl⟩
  refine ⟨c.command (s1.modTk c.g c.t (fun y => { y with tokens := y.tokens - tokens })) s.nextOp (kind s.nextOp), ?_, ?_⟩
  · unfold Ctx.launch State.engineFull
    simp only [heldByWindow_none windows, Nat.not_le.2 room, decide_false, Bool.false_eq_true, if_false, reserved,
      leaveFor_held hy1 granted (same.symm ▸ enough)]
  · refine ⟨rfl, rfl, ?_, { y with tokens := y.tokens - tokens }, ?_, congrArg (· - tokens) same, hn, hg, hp⟩
    · change (List.getD (s.cores.modify c.core _) c.core {}).locks = _
      rw [List.getD_eq_getElem?_getD, List.getElem?_modify_eq, State.core, List.getD_eq_getElem?_getD, List.getElem?_eq_getElem core]
      rfl
    · change (s1.modTk c.g c.t _).tk? c.g c.t = _
      rw [tk?_modTk, hy1]
      rfl

end

/-! ### CPYT (R285) -/

section
variable {c : Ctx} {s : State} {t : Tail} {e : EFields} {ds : BitVec 512}

theorem descriptor_held (h : c.sl.phase.desc = some ds) (va : BitVec 64) (bar : Option Nat) : c.descriptor s va bar = .ok (s, ds) := by
  unfold Ctx.descriptor
  rw [h]

theorem descriptor_misaligned {va : BitVec 64} {bar : Option Nat} (h : c.sl.phase.desc = none) (clear : c.barFault bar = none)
    (odd : va.toNat % 8 ≠ 0) : c.descriptor s va bar = .error (c.trap .align va.toNat) := by
  unfold Ctx.descriptor
  simp only [h, bne_iff_ne, if_pos odd, clear, Option.getD_none]

theorem cpyt_misaligned (h : Acts s t c) (hd : c.sl.phase.desc = none) (sound : Sound c (c.absBar e 1))
    (odd : (c.tk.greg e.p.toNat).toNat % 8 ≠ 0) : exec (.cpyt t e) s = trapped c s .align c.act (c.tk.greg e.p.toNat).toNat 0 := by
  change execCpyt t e s = _
  unfold execCpyt
  rw [TileWords.tileIssue_of h]
  simp only [descriptor_misaligned hd (barFault_sound (isWord_absBar _ _ _) sound) odd]
  rfl

theorem cpyt_refused (h : Acts s t c) (hd : c.sl.phase.desc = some ds) (bad : descOk ds c.x.foot.sp = false) :
    exec (.cpyt t e) s = trapped c s .qerr c.act 0 0 := by
  change execCpyt t e s = _
  unfold execCpyt
  rw [TileWords.tileIssue_of h]
  simp only [descriptor_held hd, bad, Bool.not_false, if_true]
  rfl

/-- The command of a CPYT whose descriptor has been read and is sound. -/
theorem cpyt_launches (h : Acts s t c) (hd : c.sl.phase.desc = some ds) (ok : descOk ds c.x.foot.sp = true)
    (sound : Sound c (c.absBar e 1)) : exec (.cpyt t e) s =
      c.finish t (spent s) (c.launch (spent s) .copy (descSpRanges ds) (descLocks ds) (descTokens ds)
        (fun _ _ => .copy { desc := ds, bar := c.absBar e 1, sup := c.sup, pc := c.sl.pc })) := by
  change execCpyt t e s = _
  unfold execCpyt
  rw [TileWords.tileIssue_of h]
  simp only [descriptor_held hd, ok, Bool.not_true, Bool.false_eq_true, if_false, barFault_sound (isWord_absBar _ _ _) sound]

/-- A command that finds its engine full stalls. -/
theorem launch_full {eng : Engine} {sp : List (Nat × Nat)} {rs : List (Bool × Nat × Nat × Bool)} {tokens : Nat} {kind : State → Nat → OpKind}
    (windows : ∀ w ∈ c.x.windows, w = none)
    (full : 16 ≤ (s.ops.filter (fun o => o.core == some c.core && o.engine == some eng)).length) :
    c.launch s eng sp rs tokens kind = .stall s (.engineFull eng) := by
  unfold Ctx.launch State.engineFull
  simp only [heldByWindow_none windows, full, decide_true, if_true]

/-- A command that finds too few free entries for its range locks stalls. -/
theorem launch_unlocked {eng : Engine} {sp : List (Nat × Nat)} {rs : List (Bool × Nat × Nat × Bool)} {tokens : Nat} {kind : State → Nat → OpKind}
    (windows : ∀ w ∈ c.x.windows, w = none)
    (room : ¬ 16 ≤ (s.ops.filter (fun o => o.core == some c.core && o.engine == some eng)).length) (lockOp : c.sl.phase.lockOp = none)
    (few : s.lockRoom c.core < rs.length) : c.launch s eng sp rs tokens kind = .stall s (.locks rs.length) := by
  unfold Ctx.launch State.engineFull Ctx.reserveLocks
  simp only [heldByWindow_none windows, room, decide_false, Bool.false_eq_true, if_false, lockOp, few, if_true]

theorem descLocks_length (d : BitVec 512) : (descLocks d).length = 2 := by
  unfold descLocks
  split <;> rfl

theorem descLocks_eq (d : BitVec 512) : descLocks d =
    if descDir d = 0 then [(true, (descRange d).1, (descRange d).2, false), (false, descSp d, descSp d + descBytes d, true)]
    else if descDir d = 1 then [(false, descSp d, descSp d + descBytes d, false), (true, (descRange d).1, (descRange d).2, true)]
    else [(false, (descRange d).1, (descRange d).2, false), (false, descSp d, descSp d + descBytes d, true)] := by
  unfold descLocks
  split
  · next h => rw [if_pos h]
  · next h => rw [h, if_neg (by decide), if_pos rfl]
  · next h0 h1 => rw [if_neg h0, if_neg h1]

/-- A word whose body launches a command that finds all it needs. -/
theorem word_launches {i : Instr} {eng : Engine} {rs : List (Bool × Nat × Nat × Bool)} {tokens : Nat} {sp : List (Nat × Nat)}
    {kind : Nat → OpKind} (h : Acts s t c) (ready : Ready c s eng rs.length tokens)
    (run : exec i s = c.finish t (spent s) (c.launch (spent s) eng sp rs tokens (fun _ id => kind id))) :
    ∃ s2, exec i s = retired t c s2 true ∧ Sent c s s2 rs tokens (kind s.nextOp) := by
  obtain ⟨s2, goes, mem, ops, locks, tk⟩ := launch_goes (s := spent s) (ctx_tk (s := s) h.ctx) ready.spent sp kind
  exact ⟨s2, run.trans (congrArg (c.finish t (spent s)) goes), mem, ops, locks, tk⟩

/-- A CPYT that goes out at once. -/
theorem cpyt_goes (h : Acts s t c) (hd : c.sl.phase.desc = some ds) (ok : descOk ds c.x.foot.sp = true)
    (sound : Sound c (c.absBar e 1)) (ready : Ready c s .copy 2 (descTokens ds)) : ∃ s2, exec (.cpyt t e) s = retired t c s2 true ∧
      Sent c s s2 (descLocks ds) (descTokens ds) (.copy { desc := ds, bar := c.absBar e 1, sup := c.tk.sup, pc := c.sl.pc }) :=
  word_launches h ((descLocks_length ds).symm ▸ ready) (cpyt_launches h hd ok sound)

end

/-! ### SHUF (R286) -/

theorem field_eq (v : BitVec 64) (lo len : Nat) : (v.extractLsb' lo len).toNat = v.toNat / 2 ^ lo % 2 ^ len := by
  rw [BitVec.extractLsb'_toNat, Nat.shiftRight_eq_div_pow]

/-- The parameters of a shuffle: source, destination and table in scratchpad, and the number and size of its elements. -/
structure Shuffle where
  src  : Nat
  dst  : Nat
  tab  : Nat
  n    : Nat
  elog : Nat

namespace Shuffle

/-- The parameters in two registers. -/
def ofRegs (a w : Nat) : Shuffle :=
  { src := a % 2 ^ 32, dst := a / 2 ^ 32, tab := w % 2 ^ 32, n := w / 2 ^ 32 % 2 ^ 16, elog := w / 2 ^ 48 % 8 }

variable (p : Shuffle)

def len : Nat := p.n * 2 ^ p.elog

/-- The ranges lie in an allocation. -/
def Within (sp : Nat) : Prop := p.src + p.len ≤ sp ∧ p.dst + p.len ≤ sp ∧ p.tab + 2 * p.n ≤ sp

/-- The ranges are aligned. -/
def Even : Prop := p.src % 2 ^ p.elog = 0 ∧ p.dst % 2 ^ p.elog = 0 ∧ p.tab % 2 = 0

def ranges : List (Nat × Nat) := [(p.src, p.src + p.len), (p.dst, p.dst + p.len), (p.tab, p.tab + 2 * p.n)]

/-- The ranges that leave an allocation, and the addresses that are misaligned. -/
def out (sp : Nat) : List (Nat × Nat) := p.ranges.filter (fun r => sp < r.2)

def odd : List Nat := [p.src, p.dst].filter (fun x => x % 2 ^ p.elog != 0) ++ [p.tab].filter (fun x => x % 2 != 0)

theorem out_eq_nil (sp : Nat) : p.out sp = [] ↔ p.Within sp := by
  simp [out, ranges, Within]

theorem odd_eq_nil : p.odd = [] ↔ p.Even := by
  simp [odd, Even, and_assoc]

end Shuffle

/-- Whether a barrier lies outside the allocation, as the bodies of the words ask it. -/
theorem barOut_eq (c : Ctx) (bar : Option Nat) : (bar.map (fun x => decide (c.x.foot.sp ≤ x))).getD false = true ↔ ¬ Inside c bar := by
  cases bar <;> simp [Inside]

section
variable {c : Ctx} {s : State} {t : Tail} {e : EFields}

/-- The parameters that a SHUF reads. -/
abbrev shufOf (c : Ctx) (e : EFields) : Shuffle := .ofRegs (c.tk.greg e.p.toNat).toNat (c.tk.greg (e.p.toNat + 1)).toNat

/-- The register of a shuffle's table, number and size is sound. -/
abbrev shufFine (c : Ctx) (e : EFields) : Prop :=
  (c.tk.greg (e.p.toNat + 1)).toNat < 2 ^ 51 ∧ (shufOf c e).n ≠ 0 ∧ (shufOf c e).elog ≤ 4

theorem shuf_reserved_iff (c : Ctx) (e : EFields) : ((c.tk.greg (e.p.toNat + 1)).extractLsb' 51 13 != 0 || (shufOf c e).n == 0 ||
    decide (4 < (shufOf c e).elog)) = true ↔ ¬ shufFine c e := by
  have high : (c.tk.greg (e.p.toNat + 1)).extractLsb' 51 13 = 0 ↔ (c.tk.greg (e.p.toNat + 1)).toNat < 2 ^ 51 := by
    have := (c.tk.greg (e.p.toNat + 1)).isLt
    rw [← BitVec.toNat_inj, field_eq]
    simp only [BitVec.ofNat_eq_ofNat, BitVec.toNat_ofNat]
    omega
  simp only [Bool.or_eq_true, bne_iff_ne, beq_iff_eq, decide_eq_true_eq, Ne, high]
  omega

/-- What a SHUF of given parameters comes to. -/
def shufRes (c : Ctx) (s : State) (p : Shuffle) (bar : Option Nat) (bad : Bool) : Res :=
  if bad then c.trap .qerr
  else if !(p.out c.x.foot.sp).isEmpty then c.trap .prot (((p.out c.x.foot.sp).map (·.1)).headD 0)
  else if (bar.map (fun x => decide (c.x.foot.sp ≤ x))).getD false then (c.barFault bar).getD (c.trap .prot)
  else if !p.odd.isEmpty then c.trap .align (p.odd.headD 0)
  else match c.barFault bar with
  | some r => r
  | none => c.launch s .shuffle p.ranges [(false, p.src, p.src + p.len, false), (false, p.dst, p.dst + p.len, true)]
      ((p.len + 8191) / 8192) (fun _ _ => .shuf { src := p.src, dst := p.dst, table := p.tab, n := p.n, elog := p.elog, bar := bar })

theorem shufOf_eq (c : Ctx) (e : EFields) :
    let a := c.tk.greg e.p.toNat
    let b := c.tk.greg (e.p.toNat + 1)
    shufOf c e = { src := (a.extractLsb' 0 32).toNat, dst := (a.extractLsb' 32 32).toNat, tab := (b.extractLsb' 0 32).toNat,
                   n := (b.extractLsb' 32 16).toNat, elog := (b.extractLsb' 48 3).toNat } := by
  intro a b
  have ha := a.isLt
  simp only [field_eq, Nat.pow_zero, Nat.div_one]
  rw [show a.toNat / 2 ^ 32 % 2 ^ 32 = a.toNat / 2 ^ 32 by omega]
  rfl

theorem exec_shuf (h : Acts s t c) : exec (.shuf t e) s = c.finish t (spent s) (shufRes c (spent s) (shufOf c e) (c.absBar e 2)
    ((c.tk.greg (e.p.toNat + 1)).extractLsb' 51 13 != 0 || (shufOf c e).n == 0 || decide (4 < (shufOf c e).elog))) := by
  change execShuf t e s = _
  unfold execShuf
  rw [TileWords.tileIssue_of h, shufOf_eq]
  rfl

variable {p : Shuffle} {bar : Option Nat}

theorem shufRes_outside (word : IsWord bar) (h : ¬ (p.Within c.x.foot.sp ∧ Inside c bar)) : ∃ v, shufRes c s p bar false = c.trap .prot v := by
  unfold shufRes
  by_cases within : p.Within c.x.foot.sp
  · obtain ⟨b, -, -, fault⟩ := barFault_outside word fun inside => h ⟨within, inside⟩
    have out := (barOut_eq c bar).2 fun inside => h ⟨within, inside⟩
    rw [(p.out_eq_nil _).2 within, fault]
    simp only [out, List.isEmpty_nil, Bool.not_true, Bool.false_eq_true, if_false, if_true, Option.getD_some]
    exact ⟨b, rfl⟩
  · have out : (p.out c.x.foot.sp).isEmpty = false := by simpa [List.isEmpty_iff] using mt (p.out_eq_nil _).1 within
    simp only [out, Bool.not_false, Bool.false_eq_true, if_false, if_true]
    exact ⟨_, rfl⟩

theorem barOut_inside (inside : Inside c bar) : (bar.map (fun x => decide (c.x.foot.sp ≤ x))).getD false = false := by
  rw [← Bool.not_eq_true, barOut_eq, not_not]
  exact inside

theorem Sound.inside (sound : Sound c bar) : Inside c bar := fun x hx => (sound x hx).1

theorem shufRes_misaligned (word : IsWord bar) (within : p.Within c.x.foot.sp) (inside : Inside c bar) (h : ¬ (p.Even ∧ Sound c bar)) :
    ∃ v, shufRes c s p bar false = c.trap .align v := by
  have out := barOut_inside inside
  unfold shufRes
  simp only [(p.out_eq_nil _).2 within, out, List.isEmpty_nil, Bool.not_true, Bool.false_eq_true, if_false]
  by_cases even : p.Even
  · obtain ⟨b, fault⟩ := barFault_misaligned word inside fun sound => h ⟨even, sound⟩
    simp only [p.odd_eq_nil.2 even, fault, List.isEmpty_nil, Bool.not_true, Bool.false_eq_true, if_false]
    exact ⟨b, rfl⟩
  · have odd : p.odd.isEmpty = false := by simpa [List.isEmpty_iff] using mt p.odd_eq_nil.1 even
    simp only [odd, Bool.not_false, if_true]
    exact ⟨_, rfl⟩

theorem shufRes_launches (word : IsWord bar) (within : p.Within c.x.foot.sp) (even : p.Even) (sound : Sound c bar) :
    shufRes c s p bar false = c.launch s .shuffle p.ranges [(false, p.src, p.src + p.len, false), (false, p.dst, p.dst + p.len, true)]
      ((p.len + 8191) / 8192) (fun _ _ => .shuf { src := p.src, dst := p.dst, table := p.tab, n := p.n, elog := p.elog, bar := bar }) := by
  have out := barOut_inside sound.inside
  unfold shufRes
  simp only [(p.out_eq_nil _).2 within, p.odd_eq_nil.2 even, out, barFault_sound word sound, List.isEmpty_nil, Bool.not_true,
    Bool.false_eq_true, if_false]

end

/-! ### MRGK (R287) -/

section
variable {c : Ctx} {s : State} {t : Tail} {e : EFields} {s32 : Bool}

/-- The merge that a MRGK asks for. -/
def mergeOf (c : Ctx) (e : EFields) (s32 : Bool) : Merge :=
  let g := fun (k : Nat) => (c.tk.g.getD (e.p.toNat + k) 0).toNat
  { tk := c.t, slot := c.k, tag := c.tag, sup := c.tk.sup, pc := c.sl.pc, s32 := s32, a := g 0, b := g 1, o := g 2, na := g 3 % 2 ^ 32,
    nb := g 3 / 2 ^ 32, st := g 4, bar := c.absBar e 5 }

/-- The lists, the output and the record of a merge are aligned, and their addresses have 48 bits. -/
def MergeEven (m : Merge) : Prop := m.a % 8 = 0 ∧ m.b % 8 = 0 ∧ m.o % 8 = 0 ∧ m.st % 16 = 0

def MergeLow (m : Merge) : Prop := m.a < 2 ^ 48 ∧ m.b < 2 ^ 48 ∧ m.o < 2 ^ 48 ∧ m.st < 2 ^ 48

def mergeOdd (m : Merge) : List Nat := [m.a, m.b, m.o].filter (fun x => x % 8 != 0) ++ [m.st].filter (fun x => x % 16 != 0)

def mergeHigh (m : Merge) : List Nat := [m.a, m.b, m.o, m.st].filter (fun x => 2 ^ 48 ≤ x)

theorem mergeOdd_eq_nil (m : Merge) : mergeOdd m = [] ↔ MergeEven m := by
  simp [mergeOdd, MergeEven, and_assoc]

theorem mergeHigh_eq_nil (m : Merge) : mergeHigh m = [] ↔ MergeLow m := by
  simp [mergeHigh, MergeLow]

/-- What a MRGK comes to that asks for a merge. -/
def mrgkRes (c : Ctx) (s : State) (m : Merge) (capped : Bool) : Res :=
  if (m.bar.map (fun x => decide (c.x.foot.sp ≤ x))).getD false then (c.barFault m.bar).getD (c.trap .prot)
  else if !(mergeOdd m).isEmpty then c.trap .align ((mergeOdd m).headD 0)
  else match c.barFault m.bar with
  | some r => r
  | none =>
    if !(mergeHigh m).isEmpty then c.trap .xlate ((mergeHigh m).headD 0)
    else c.launch s .merge [] m.ranges m.tokens (fun _ id => .merge { m with id := id, left := true, asked := true, capped := capped })

theorem exec_mrgk (h : Acts s t c) : exec (.mrgk t e s32) s = c.finish t (spent s) (mrgkRes c (spent s) (mergeOf c e s32)
    (decide (tokenCap < (mergeOf c e s32).tokens - (if c.sl.phase.granted then c.sl.phase.paid else s.heldBy c.g [c.t])))) := by
  have halves (v : BitVec 64) : (v.extractLsb' 0 32).toNat = v.toNat % 2 ^ 32 ∧ (v.extractLsb' 32 32).toNat = v.toNat / 2 ^ 32 := by
    have := v.isLt
    rw [field_eq, field_eq, Nat.pow_zero, Nat.div_one]
    exact ⟨rfl, by omega⟩
  change execMrgk t e s32 s = _
  unfold execMrgk
  rw [TileWords.tileIssue_of h]
  simp only [halves]
  rfl

variable {m : Merge}

theorem mrgkRes_outside (word : IsWord m.bar) (h : ¬ Inside c m.bar) (capped : Bool) : ∃ v, mrgkRes c s m capped = c.trap .prot v := by
  obtain ⟨b, -, -, fault⟩ := barFault_outside word h
  unfold mrgkRes
  simp only [(barOut_eq c m.bar).2 h, fault, if_true, Option.getD_some]
  exact ⟨b, rfl⟩

theorem mrgkRes_misaligned (word : IsWord m.bar) (inside : Inside c m.bar) (h : ¬ (MergeEven m ∧ Sound c m.bar)) (capped : Bool) :
    ∃ v, mrgkRes c s m capped = c.trap .align v := by
  unfold mrgkRes
  simp only [barOut_inside inside, Bool.false_eq_true, if_false]
  by_cases even : MergeEven m
  · obtain ⟨b, fault⟩ := barFault_misaligned word inside fun sound => h ⟨even, sound⟩
    simp only [(mergeOdd_eq_nil m).2 even, fault, List.isEmpty_nil, Bool.not_true, Bool.false_eq_true, if_false]
    exact ⟨b, rfl⟩
  · have odd : (mergeOdd m).isEmpty = false := by simpa [List.isEmpty_iff] using mt (mergeOdd_eq_nil m).1 even
    simp only [odd, Bool.not_false, if_true]
    exact ⟨_, rfl⟩

theorem mrgkRes_high (word : IsWord m.bar) (even : MergeEven m) (sound : Sound c m.bar) (h : ¬ MergeLow m) (capped : Bool) :
    ∃ v, mrgkRes c s m capped = c.trap .xlate v := by
  have high : (mergeHigh m).isEmpty = false := by simpa [List.isEmpty_iff] using mt (mergeHigh_eq_nil m).1 h
  unfold mrgkRes
  simp only [barOut_inside sound.inside, (mergeOdd_eq_nil m).2 even, barFault_sound word sound, high, List.isEmpty_nil, Bool.not_true,
    Bool.not_false, Bool.false_eq_true, if_false, if_true]
  exact ⟨_, rfl⟩

theorem mrgkRes_launches (word : IsWord m.bar) (even : MergeEven m) (sound : Sound c m.bar) (low : MergeLow m) (capped : Bool) :
    mrgkRes c s m capped = c.launch s .merge [] m.ranges m.tokens
      (fun _ id => .merge { m with id := id, left := true, asked := true, capped := capped }) := by
  unfold mrgkRes
  simp only [barOut_inside sound.inside, (mergeOdd_eq_nil m).2 even, barFault_sound word sound, (mergeHigh_eq_nil m).2 low,
    List.isEmpty_nil, Bool.not_true, Bool.false_eq_true, if_false]

/-- A MRGK that goes out at once: held tokens cover it, so it is not capped. -/
theorem mrgk_goes (h : Acts s t c) (even : MergeEven (mergeOf c e s32)) (sound : Sound c (c.absBar e 5)) (low : MergeLow (mergeOf c e s32))
    (ready : Ready c s .merge 4 (mergeOf c e s32).tokens) : ∃ s2, exec (.mrgk t e s32) s = retired t c s2 true ∧
      Sent c s s2 (mergeOf c e s32).ranges (mergeOf c e s32).tokens
        (.merge { mergeOf c e s32 with id := s.nextOp, left := true, asked := true }) := by
  have run := exec_mrgk (e := e) (s32 := s32) h
  have covered : decide (tokenCap < (mergeOf c e s32).tokens - (if c.sl.phase.granted then c.sl.phase.paid else s.heldBy c.g [c.t])) = false := by
    have held : s.heldBy c.g [c.t] = c.tk.tokens := by simp [State.heldBy, ctx_tk h.ctx]
    have := ready.tokens
    simp only [ready.granted, Bool.false_eq_true, if_false, held, decide_eq_false_iff_not]
    omega
  rw [covered, mrgkRes_launches (isWord_absBar _ _ _) even sound low] at run
  exact word_launches (rs := (mergeOf c e s32).ranges) h ready run

end

/-! ### The region table (R104, R105, R290) -/

section
variable {c : Ctx} {s : State} {t : Tail} {k : BitVec 4} {a b : USrc} {d : Dst} {ds : BitVec 512}

/-- The window that a word names is being filled. -/
def Filling (c : Ctx) (k : BitVec 4) : Prop := ∃ w, c.x.window? k.toNat = some w ∧ w.state = .filling

theorem filling_iff (c : Ctx) (k : BitVec 4) : (c.x.window? k.toNat).any (fun w => w.state == .filling) = true ↔ Filling c k := by
  unfold Filling
  cases c.x.window? k.toNat <;> simp

theorem not_filling {c : Ctx} {k : BitVec 4} (h : ¬ Filling c k) : (c.x.window? k.toNat).any (fun w => w.state == .filling) = false := by
  rw [← Bool.not_eq_true, filling_iff]
  exact h

/-- Another window overlaps that of a descriptor. -/
def Clash (c : Ctx) (k : BitVec 4) (ds : BitVec 512) : Prop := ∃ j w, j ≠ k.toNat ∧ c.x.windows[j]? = some (some w) ∧
  descSp w.desc < descSp ds + descBytes ds ∧ descSp ds < descSp w.desc + descBytes w.desc

theorem clash_iff (c : Ctx) (k : BitVec 4) (w : Window) : c.x.windows.zipIdx.any (fun e => e.2 != k.toNat &&
    e.1.any (fun v => overlap v.range w.range)) = true ↔ Clash c k w.desc := by
  simp only [List.any_eq_true, Prod.exists, List.mem_zipIdx_iff_getElem?, Bool.and_eq_true, bne_iff_ne, Option.any_eq_true, overlap,
    Window.range, Clash]
  constructor
  · rintro ⟨_, j, hj, ne, v, rfl, lo, hi⟩
    exact ⟨j, v, ne, hj, of_decide_eq_true lo, of_decide_eq_true hi⟩
  · rintro ⟨j, v, ne, hj, lo, hi⟩
    exact ⟨some v, j, hj, ne, v, rfl, decide_eq_true lo, decide_eq_true hi⟩

theorem rtset_filling (h : Acts s t c) (filling : Filling c k) : exec (.rtset t k a b) s = trapped c s .qerr c.act 0 0 := by
  change execRtset t k a b s = _
  unfold execRtset
  rw [TileWords.tileIssue_of h]
  simp only [(filling_iff c k).2 filling, if_true]
  rfl

theorem rtdrop_filling (h : Acts s t c) (filling : Filling c k) : exec (.rtdrop t k) s = trapped c s .qerr c.act 0 0 := by
  change execRtdrop t k s = _
  unfold execRtdrop
  rw [TileWords.tileIssue_of h]
  simp only [(filling_iff c k).2 filling, if_true]
  rfl

/-- The window's entry of the issuing gang is set. -/
abbrev putWindow (c : Ctx) (s : State) (k : BitVec 4) (w : Option Window) : State :=
  (spent s).modGang c.g (fun y => { y with windows := y.windows.set k.toNat w })

theorem exec_rtdrop (h : Acts s t c) (idle : ¬ Filling c k) : exec (.rtdrop t k) s = retired t c (putWindow c s k none) false := by
  change execRtdrop t k s = _
  unfold execRtdrop
  rw [TileWords.tileIssue_of h]
  simp only [not_filling idle, Bool.false_eq_true, if_false]
  rfl

theorem exec_rtstate (h : Acts s t c) :
    exec (.rtstate t k d) s = retired t c (inFlight c (spent s) 2 (.rtstate (goesTo d 1) k.toNat)) true := by
  change execRtstate t k d s = _
  unfold execRtstate
  rw [TileWords.tileIssue_of h, AccessWords.ldest_eq]
  rfl

/-- The number of the barrier that RTSET names. -/
abbrev rtBar (c : Ctx) (b : USrc) : Nat := (c.tk.uval b).toNat % 2 ^ 32

theorem isWord_rtBar (c : Ctx) (b : USrc) : IsWord (some (rtBar c b)) := by
  rintro x ⟨⟩
  exact Nat.mod_lt _ (by decide)

theorem rtBar_eq (c : Ctx) (b : USrc) : ((c.tk.uval b).extractLsb' 0 32).toNat = rtBar c b := by
  rw [field_eq, Nat.pow_zero, Nat.div_one]

theorem rtset_misaligned (h : Acts s t c) (idle : ¬ Filling c k) (hd : c.sl.phase.desc = none) (sound : Sound c (some (rtBar c b)))
    (odd : (c.tk.uval a).toNat % 8 ≠ 0) : exec (.rtset t k a b) s = trapped c s .align c.act (c.tk.uval a).toNat 0 := by
  change execRtset t k a b s = _
  unfold execRtset
  rw [TileWords.tileIssue_of h]
  simp only [not_filling idle, Bool.false_eq_true, if_false, rtBar_eq,
    descriptor_misaligned hd (barFault_sound (isWord_rtBar c b) sound) odd]
  rfl

theorem rtset_refused (h : Acts s t c) (idle : ¬ Filling c k) (hd : c.sl.phase.desc = some ds)
    (bad : descOk ds c.x.foot.sp = false ∨ descDir ds ≠ 0 ∨ Clash c k ds) : exec (.rtset t k a b) s = trapped c s .qerr c.act 0 0 := by
  have refuses : (!descOk ds c.x.foot.sp || descDir ds != 0 || c.x.windows.zipIdx.any (fun e => e.2 != k.toNat &&
      e.1.any (fun v => overlap v.range ({ desc := ds, state := .absent, bar := rtBar c b } : Window).range))) = true := by
    rw [Bool.or_eq_true, Bool.or_eq_true, clash_iff]
    rcases bad with bad | bad | bad
    · exact .inl (.inl (by simp [bad]))
    · exact .inl (.inr (by simpa using bad))
    · exact .inr bad
  change execRtset t k a b s = _
  unfold execRtset
  rw [TileWords.tileIssue_of h]
  simp only [not_filling idle, Bool.false_eq_true, if_false, rtBar_eq, descriptor_held hd, refuses, if_true]
  rfl

theorem exec_rtset (h : Acts s t c) (idle : ¬ Filling c k) (hd : c.sl.phase.desc = some ds) (ok : descOk ds c.x.foot.sp = true)
    (dir : descDir ds = 0) (apart : ¬ Clash c k ds) (sound : Sound c (some (rtBar c b))) :
    exec (.rtset t k a b) s = retired t c (putWindow c s k (some { desc := ds, state := .absent, bar := rtBar c b })) false := by
  have takes : (!descOk ds c.x.foot.sp || descDir ds != 0 || c.x.windows.zipIdx.any (fun e => e.2 != k.toNat &&
      e.1.any (fun v => overlap v.range ({ desc := ds, state := .absent, bar := rtBar c b } : Window).range))) = false := by
    rw [← Bool.not_eq_true, Bool.or_eq_true, Bool.or_eq_true, clash_iff]
    simp [ok, dir, apart]
  change execRtset t k a b s = _
  unfold execRtset
  rw [TileWords.tileIssue_of h]
  simp only [not_filling idle, Bool.false_eq_true, if_false, rtBar_eq, descriptor_held hd, takes, barFault_sound (isWord_rtBar c b) sound]
  rfl

end

/-! ### The descriptor that a slot waits for (R285, R290) -/

theorem foldl_or_getLsbD {α : Type} {w : Nat} (f : α → BitVec w) (l : List α) (d : BitVec w) (i : Nat) :
    (l.foldl (fun d e => d ||| f e) d).getLsbD i = (d.getLsbD i || l.any (fun e => (f e).getLsbD i)) := by
  induction l generalizing d with
  | nil => simp
  | cons e l ih => rw [List.foldl_cons, ih, BitVec.getLsbD_or, List.any_cons, Bool.or_assoc]

/-- A word of a descriptor is what its access read. -/
theorem descOf_word {accs : List Acc} (few : accs.length = 8) (word : ∀ a ∈ accs, a.val.toNat < 2 ^ 64) {j : Nat} {a : Acc}
    (h : accs[j]? = some a) : (descOf accs).extractLsb' (64 * j) 64 = a.val.setWidth 64 := by
  have hj : j < 8 := few ▸ (List.getElem?_eq_some_iff.1 h).1
  refine BitVec.eq_of_getLsbD_eq fun b hb => ?_
  have bit (e : Acc) (he : e ∈ accs) (k : Nat) : (e.val.setWidth 512 <<< (64 * k)).getLsbD (64 * j + b) = (decide (k = j) && e.val.getLsbD b) := by
    rw [BitVec.getLsbD_shiftLeft, BitVec.getLsbD_setWidth]
    rcases Nat.lt_trichotomy k j with hk | rfl | hk
    · have above : e.val.getLsbD (64 * j + b - 64 * k) = false :=
        Nat.testBit_lt_two_pow (Nat.lt_of_lt_of_le (word e he) (Nat.pow_le_pow_right (by decide) (by omega)))
      simp [above, Nat.ne_of_lt hk]
    · simp [show 64 * k + b < 512 by omega, show b < 512 by omega]
    · simp [show 64 * j + b < 64 * k by omega, Nat.ne_of_gt hk]
  rw [BitVec.getLsbD_extractLsb', BitVec.getLsbD_setWidth, descOf, foldl_or_getLsbD]
  have zero : (0 : BitVec 512).getLsbD (64 * j + b) = false := BitVec.getLsbD_zero
  rw [zero, Bool.false_or, decide_eq_true hb, Bool.true_and, Bool.true_and, Bool.eq_iff_iff, List.any_eq_true]
  constructor
  · rintro ⟨⟨e, k⟩, he, hbit⟩
    rw [List.mem_zipIdx_iff_getElem?] at he
    rw [bit e (List.mem_of_getElem? he), Bool.and_eq_true, decide_eq_true_eq] at hbit
    obtain ⟨rfl, hbit⟩ := hbit
    obtain rfl : e = a := Option.some.inj (he.symm.trans h)
    exact hbit
  · intro hbit
    exact ⟨(a, j), List.mem_zipIdx_iff_getElem?.2 h, by rw [bit a (List.mem_of_getElem? h), hbit]; simp⟩

theorem exec_desc {id : Nat} {o : Op} {accs : List Acc} {z : Slot} {s : State} (ho : s.op? id = some o) (hk : o.kind = .desc accs)
    (due : s.opDue o = true) (done : ∀ a ∈ accs, a.done = true) (hz : s.slot? o.gang o.tk o.slot = some z) (mine : z.phase.descOp = some id) :
    ∃ u, exec (.longLatencyCompletion id) s = .next u ∧ u.mem = s.mem ∧ u.op? id = none ∧
      u.slot? o.gang o.tk o.slot = some { z with phase := { z.phase with desc := some (descOf accs) } } := by
  have hid : o.id = id := GangFrames.op?_id ho
  have all : allDone accs = true := List.all_eq_true.2 done
  let put (y : Slot) : Slot := if y.phase.descOp == some o.id then { y with phase := { y.phase with desc := some (descOf accs) } } else y
  refine ⟨(s.modSlot o.gang o.tk o.slot put).dropOp o.id, ?_, State.dropOp_mem .., hid ▸ GangFrames.op?_dropOp .., ?_⟩
  · change execLongLatencyCompletion id s = _
    unfold execLongLatencyCompletion State.longDone
    simp only [ho, due, hk, all, if_true, Bool.not_true, Bool.false_eq_true, if_false, Option.getD_some]
    rfl
  · rw [slot?_congr (State.dropOp_gangs ..), slot?_modSlot, hz, Option.map_some]
    simp only [put, mine, hid, beq_self_eq_true, if_true]

/-! ### The statement -/

/-- What the statement says of a command that goes out. -/
theorem sent_says {i : Instr} {t : Tail} {c : Ctx} {s : State} {rs : List (Bool × Nat × Nat × Bool)} {tokens : Nat} {kind : OpKind}
    (h : ∃ s2, exec i s = retired t c s2 true ∧ Sent c s s2 rs tokens kind) :
    ∃ s2 y, exec i s = retired t c s2 true ∧ s2.mem = s.mem ∧ s2.ops = s.ops ++ [opOf c s (some c.core) (c.clk + 20) none kind] ∧
      (s2.core c.core).locks = (s.core c.core).locks ++ rs.map (lockOf c s) ∧ s2.tk? c.g c.t = some y ∧
      y.tokens = c.tk.tokens - tokens ∧ y.n = c.tk.n ∧ y.g = c.tk.g ∧ y.p = c.tk.p := by
  obtain ⟨s2, run, mem, ops, locks, y, tk, ys⟩ := h
  exact ⟨s2, y, run, mem, ops, locks, tk, ys⟩

theorem trap_says {i : Instr} {t : Tail} {c : Ctx} {s : State} {r : Res} {code : TrapCode} (run : exec i s = c.finish t (spent s) r)
    (h : ∃ v, r = c.trap code v) : ∃ v, exec i s = trapped c s code c.act v 0 := by
  obtain ⟨v, rfl⟩ := h
  exact ⟨v, run⟩

/-- Settles O38: each word's checks come in the order of R227, and a command that passes them goes through `launch`. -/
theorem engineCommands : Obligations.EngineCommands := by
  refine ⟨fun t e s32 k a b d s c h => ?_, fun s id o accs z ho hk due read few hz mine => ?_⟩
  · refine ⟨?_, ?_, ?_, ?_, ?_, ?_⟩
    · rintro v i (⟨rfl, rfl, sound⟩ | ⟨rfl, rfl, sound, idle⟩) hd odd
      · exact cpyt_misaligned h hd (by rw [absBar_eq]; exact sound) odd
      · exact rtset_misaligned h (fun ⟨w, hw, hf⟩ => idle w hw hf) hd sound odd
    · intro ds hd
      refine ⟨cpyt_refused h hd, fun ok sound ready => sent_says ?_⟩
      have goes := cpyt_goes h hd ok (by rw [absBar_eq]; exact sound)
        (Ready.of ready)
      rw [absBar_eq, descLocks_eq] at goes
      exact goes
    · have run := exec_shuf (e := e) h
      have word := isWord_absBar c e 2
      rw [absBar_eq] at run word
      have sane (fine : shufFine c e) := Bool.eq_false_iff.2 (mt (shuf_reserved_iff c e).1 (not_not.2 fine))
      refine ⟨fun bad => ?_, fun fine no => ?_, fun fine within inside no => ?_, fun fine within even sound ready => sent_says ?_⟩
      · rw [run, (shuf_reserved_iff c e).2 bad]
        rfl
      · rw [sane fine] at run
        exact trap_says run (shufRes_outside word no)
      · rw [sane fine] at run
        exact trap_says run (shufRes_misaligned word within inside no)
      · rw [sane fine, shufRes_launches (p := shufOf c e) word within even sound] at run
        exact word_launches (rs := [_, _]) h (Ready.of ready) run
    · have run := exec_mrgk (e := e) (s32 := s32) h
      have word := isWord_absBar c e 5
      have goes := mrgk_goes (e := e) (s32 := s32) h
      have bar := absBar_eq c e 5
      rw [absBar_eq] at goes
      have merge : (mergeOf c e s32).bar = _ := bar
      refine ⟨fun out => ?_, fun inside no => ?_, fun even sound no => ?_, fun even sound low ready => sent_says ?_⟩
      · exact trap_says run (mrgkRes_outside word (by rw [merge]; exact out) _)
      · exact trap_says run (mrgkRes_misaligned word (by rw [merge]; exact inside) (by rw [merge]; exact no) _)
      · exact trap_says run (mrgkRes_high (m := mergeOf c e s32) word even (by rw [merge]; exact sound) no _)
      · have := goes even sound low (Ready.of ready)
        unfold mergeOf at this
        rw [bar] at this
        exact this
    · intro _ _ ds hd ok sound windows
      have run := cpyt_launches h hd ok (by rw [absBar_eq]; exact sound)
      refine ⟨fun full => ?_, fun room lockOp few => ?_⟩
      · rw [run, launch_full (s := spent s) windows full]
        rfl
      · have lack : (spent s).lockRoom c.core < (descLocks ds).length := by
          have : (spent s).lockRoom c.core = 32 - (s.core c.core).locks.length := rfl
          rw [descLocks_length]
          omega
        rw [run, launch_unlocked (s := spent s) windows room lockOp lack, descLocks_length]
        rfl
    · refine ⟨fun filling => ⟨rtset_filling h filling, rtdrop_filling h filling⟩, exec_rtdrop h, fun ds idle hd =>
        ⟨rtset_refused h idle hd, fun ok dir apart sound => exec_rtset h idle hd ok dir apart sound⟩, exec_rtstate h⟩
  · obtain ⟨u, run, mem, gone, slot⟩ := exec_desc ho hk due (fun a ha => (read a ha).1) hz mine
    exact ⟨u, _, _, run, mem, gone, slot, rfl, rfl, fun j a ha => descOf_word few (fun a ha => (read a ha).2) ha⟩

end Sys2Proof.EngineWords
end

-- Bytes, reads without errors and walks of an engine (spec/05_memory_as_kernels_see_it.md)
section
/-! SUPPORT. Lists of bytes and memory, reads that meet no error, and what a walk of an engine leaves of memory (R10, R393, R435). -/

namespace Sys2Proof.EngineReads

open Sys2Proof Sys2Proof.Machine Sys2Proof.Says Sys2Proof.Laws Sys2Proof.LaneState Sys2Proof.GangFrames

/-! ### Bytes -/

@[simp] theorem bytesOfNat_length (n v : Nat) : (bytesOfNat n v).length = n := by
  induction n generalizing v with
  | zero => rfl
  | succ n ih => simp [bytesOfNat, ih]

@[simp] theorem bytes_length (m : Memory) (a n : Nat) : (m.bytes a n).length = n := by
  induction n generalizing a with
  | zero => rfl
  | succ n ih => simp [Memory.bytes, ih]

theorem bytesOfNat_natOfBytes (bs : List Byte) : bytesOfNat bs.length (natOfBytes bs) = bs := by
  induction bs with
  | nil => rfl
  | cons b bs ih =>
    have low : BitVec.ofNat 8 (b.toNat + 256 * natOfBytes bs) = b := by
      apply BitVec.eq_of_toNat_eq
      rw [BitVec.toNat_ofNat]
      have := b.isLt
      omega
    have high : (b.toNat + 256 * natOfBytes bs) / 256 = natOfBytes bs := by
      have := b.isLt
      omega
    simp [bytesOfNat, natOfBytes, low, high, ih]

theorem natOfBytes_bytes (m : Memory) (a n : Nat) : natOfBytes (m.bytes a n) = m.read a n := by
  induction n generalizing a with
  | zero => rfl
  | succ n ih => simp [natOfBytes, Memory.bytes, Memory.read, ih]

theorem bytesOfNat_read (m : Memory) (a n : Nat) : bytesOfNat n (m.read a n) = m.bytes a n := by
  have := bytesOfNat_natOfBytes (m.bytes a n)
  rwa [bytes_length, natOfBytes_bytes] at this

theorem bytes_getD (m : Memory) {a n j : Nat} (h : j < n) : (m.bytes a n).getD j 0 = m.get (a + j) := by
  induction n generalizing a j with
  | zero => exact absurd h (Nat.not_lt_zero j)
  | succ n ih =>
    cases j with
    | zero => rfl
    | succ j =>
      rw [Memory.bytes, List.getD_cons_succ, ih (by omega)]
      congr 1
      omega

theorem write_eq_put (m : Memory) (a n v : Nat) : m.write a n v = m.put a (bytesOfNat n v) := by
  induction n generalizing m a v with
  | zero => rfl
  | succ n ih => exact ih _ _ _

theorem put_append (m : Memory) (a : Nat) (bs cs : List Byte) : m.put a (bs ++ cs) = (m.put a bs).put (a + bs.length) cs := by
  induction bs generalizing m a with
  | nil => rfl
  | cons b bs ih => rw [List.cons_append, Memory.put, ih, Memory.put, List.length_cons, Nat.add_assoc, Nat.add_comm 1]

/-! ### Reads that meet no error -/

/-- Nothing is armed, so that no read meets an error of storage. -/
theorem eccSpan_clean {s : State} (h : s.dev.injs = []) (array home addr n p : Nat) (r : Reader) :
    s.eccSpan array home addr n p r = (s, none, 0) := by
  simp [State.eccSpan, State.hitWords, h]

theorem engineSp_clean {s : State} (h : s.dev.injs = []) (core : Nat) (x : Gang) (a n : Nat) :
    s.engineSp core x a n = (s, false, x.arr.bytes a n) := by
  simp [State.engineSp, eccSpan_clean h, natOfBytes_bytes, bytesOfNat_read]

theorem eccGlobal_clean {s : State} (h : s.dev.injs = []) (up : s.dev.cxlUp = BitVec.allOnes _) (p : Partition) (pa n : Nat) (r : Reader) :
    s.eccGlobal p pa n r = { s := s } := by
  have port : s.dev.cxlUp.getLsbD (pa / 2 ^ 48 % 16) = true := by
    rw [up, BitVec.getLsbD_allOnes]
    simp only [decide_eq_true_eq]
    exact Nat.mod_lt _ (by decide)
  unfold State.eccGlobal State.eccRead
  rw [port, eccSpan_clean h]
  simp

theorem sound_of {s : State} (h : s.dev.injs = []) (up : s.dev.cxlUp = BitVec.allOnes _) : s.sound = true := by
  simp [State.sound, h, up]

/-- What requests at the channels leave alone: all but the demand and its counters. -/
structure Demanded (s u : State) : Prop where
  rest : u = { s with dev := u.dev }
  injs : u.dev.injs = s.dev.injs
  up   : u.dev.cxlUp = s.dev.cxlUp

theorem Demanded.refl (s : State) : Demanded s s := ⟨rfl, rfl, rfl⟩

theorem Demanded.trans {s u v : State} (h : Demanded s u) (h' : Demanded u v) : Demanded s v := by
  refine ⟨?_, h'.injs.trans h.injs, h'.up.trans h.up⟩
  rw [h'.rest, h.rest]

theorem startAt_injs (d : Device) (ch part job : Nat) (active : List (Nat × Nat)) (w : Nat) :
    (d.startAt ch part job active w).injs = d.injs ∧ (d.startAt ch part job active w).cxlUp = d.cxlUp := by
  unfold Device.startAt
  split
  · exact ⟨rfl, rfl⟩
  · exact ⟨rfl, rfl⟩

theorem demandOf_demanded (s : State) (g pa n : Nat) (heavy : Bool) : Demanded s (s.demandOf g pa n heavy) := by
  unfold State.demandOf
  split
  · unfold State.demandAt
    dsimp only
    split
    · exact .refl s
    · refine ⟨rfl, ?_, ?_⟩
      all_goals
        dsimp only
        split <;> simp [startAt_injs]
  · exact .refl s

theorem foldl_demandOf (g : Nat) (rs : List (Nat × Nat)) (s : State) :
    Demanded s (rs.foldl (fun s r => s.demandOf g r.1 r.2 false) s) := by
  induction rs generalizing s with
  | nil => exact .refl s
  | cons r rs ih => exact (demandOf_demanded ..).trans (ih _)

/-- Reads one after another that change nothing and meet no error: their bytes one after another. -/
theorem foldl_reads {α : Type} {u : State} {f : State × Bool × List Byte → α → State × Bool × List Byte} {g : α → List Byte}
    (reads : ∀ bs a, f (u, false, bs) a = (u, false, bs ++ g a)) (l : List α) (bs : List Byte) :
    l.foldl f (u, false, bs) = (u, false, bs ++ l.flatMap g) := by
  induction l generalizing bs with
  | nil => simp
  | cons a l ih => rw [List.foldl_cons, reads, ih, List.flatMap_cons, List.append_assoc]

/-- An engine's read of global memory where no error lies: the bytes of its chunks. -/
theorem engineGlobal_clean {s : State} (h : s.dev.injs = []) (up : s.dev.cxlUp = BitVec.allOnes _) (p : Partition) (x : Gang)
    (cs : List (Nat × Nat × Nat)) :
    ∃ u, Demanded s u ∧ s.engineGlobal p x cs = (u, false, cs.flatMap (fun ch => s.mem.bytes ch.2.1 ch.2.2)) := by
  have asked := foldl_demandOf x.id (joinSpans (cs.map (·.2))) s
  refine ⟨_, asked, ?_⟩
  unfold State.engineGlobal
  dsimp only
  generalize (joinSpans (cs.map (·.2))).foldl (fun s r => s.demandOf x.id r.1 r.2 false) s = u at asked ⊢
  have mem : u.mem = s.mem := by rw [asked.rest]
  rw [foldl_reads (g := fun ch => s.mem.bytes ch.2.1 ch.2.2) fun bs ch => ?_, List.nil_append]
  rw [eccGlobal_clean (asked.injs.trans h) (asked.up.trans up), mem]
  simp [EccRes.lasting, bytesOfNat_read]

/-! ### Walks -/

/-- What translation and the first write to a page leave alone: all but TLBs and, in memory, bits A and D of a leaf (R393). -/
structure Marked (s u : State) : Prop where
  rest : u = { s with mem := u.mem, cores := u.cores }
  wf   : s.mem.wf = true → u.mem.wf = true
  bits : s.mem.wf = true → ∀ b, u.mem.get b ||| 0xC0 = s.mem.get b ||| 0xC0

theorem Marked.refl (s : State) : Marked s s := ⟨rfl, id, fun _ _ => rfl⟩

theorem Marked.trans {s u v : State} (h : Marked s u) (h' : Marked u v) : Marked s v := by
  refine ⟨?_, fun wf => h'.wf (h.wf wf), fun wf b => (h'.bits (h.wf wf) b).trans (h.bits wf b)⟩
  rw [h'.rest, h.rest]

theorem Marked.dev {s u : State} (h : Marked s u) : u.dev = s.dev := by rw [h.rest]
theorem Marked.gangs {s u : State} (h : Marked s u) : u.gangs = s.gangs := by rw [h.rest]
theorem Marked.ops {s u : State} (h : Marked s u) : u.ops = s.ops := by rw [h.rest]
theorem Marked.parts {s u : State} (h : Marked s u) : u.parts = s.parts := by rw [h.rest]

theorem Marked.sound {s u : State} (h : Marked s u) : u.sound = s.sound := by rw [State.sound, h.dev]; rfl

theorem Marked.orLeaf (s : State) (entry : Nat) {bits : Byte} (h : bits ||| 0xC0 = 0xC0) : Marked s (s.orLeaf entry bits) := by
  refine ⟨rfl, fun wf => Memory.set_wf _ _ _ wf, fun wf b => ?_⟩
  rw [State.orLeaf, Memory.get_set _ _ _ _ wf]
  split
  · next at_ => rw [at_, BitVec.or_assoc, h]
  · rfl

theorem Marked.modCore (s : State) (core : Nat) (f : Core → Core) : Marked s (s.modCore core f) := ⟨rfl, id, fun _ _ => rfl⟩

theorem translate_marked {s : State} (h : s.sound = true) (core : Nat) (p : Partition) (tenant va : Nat) (acc : Access) (sup : Bool)
    (r : Reader) : Marked s (s.translate core p tenant va acc sup r).1 := by
  unfold State.translate
  split
  · exact .refl s
  split
  · exact .refl s
  · rw [State.walkRead, if_pos h]
    dsimp only
    split
    · exact (Marked.orLeaf s _ (by decide)).trans (.modCore ..)
    · exact .refl s

theorem setDirty_marked (s : State) (p : Partition) (tenant va : Nat) : Marked s (s.setDirty p tenant va) := by
  unfold State.setDirty
  split
  · split
    · exact .refl s
    · exact .orLeaf s _ (by decide)
  · exact .refl s

theorem foldl_setDirty (p : Partition) (tenant : Nat) (ls : List (Nat × Nat × Nat)) (s : State) :
    Marked s (ls.foldl (fun s ch => s.setDirty p tenant ch.1) s) := by
  induction ls generalizing s with
  | nil => exact .refl s
  | cons c ls ih => exact (setDirty_marked ..).trans (ih _)

/-- A walk of chunks one after another, from what was walked before. -/
def walkOn (core : Nat) (p : Partition) (tenant : Nat) (sup : Bool) (acc : Access) (rd : Reader)
    (a : State × Except (Walk × Nat) (List (Nat × Nat × Nat))) (ch : Int × Nat) : State × Except (Walk × Nat) (List (Nat × Nat × Nat)) :=
  match a.2 with
  | .error e => (a.1, .error e)
  | .ok ls =>
    if ch.1 < 0 then (a.1, .error (.xlate, (ch.1 % 2 ^ 64).toNat))
    else
      let r := a.1.translate core p tenant ch.1.toNat acc sup rd
      match r.2 with
      | .pa x .. => (r.1, .ok (ls ++ [(ch.1.toNat, x, ch.2)]))
      | w => (r.1, .error (w, ch.1.toNat))

theorem engineWalk_eq (s : State) (core : Nat) (p : Partition) (tenant : Nat) (sup : Bool) (acc : Access) (cs : List (Int × Nat))
    (rd : Reader) : s.engineWalk core p tenant sup acc cs rd = cs.foldl (walkOn core p tenant sup acc rd) (s, .ok []) := rfl

theorem walkOn_marked {core : Nat} {p : Partition} {tenant : Nat} {sup : Bool} {acc : Access} {rd : Reader}
    {a : State × Except (Walk × Nat) (List (Nat × Nat × Nat))} {ch : Int × Nat} (h : a.1.sound = true) :
    Marked a.1 (walkOn core p tenant sup acc rd a ch).1 := by
  unfold walkOn
  split
  · exact .refl _
  split
  · exact .refl _
  · dsimp only
    split <;> exact translate_marked h ..

/-- A step of a walk that succeeds adds its chunk. -/
theorem walkOn_ok {core : Nat} {p : Partition} {tenant : Nat} {sup : Bool} {acc : Access} {rd : Reader}
    {a : State × Except (Walk × Nat) (List (Nat × Nat × Nat))} {ch : Int × Nat} {ls : List (Nat × Nat × Nat)}
    (h : (walkOn core p tenant sup acc rd a ch).2 = .ok ls) :
    ∃ ks va pa, a.2 = .ok ks ∧ ls = ks ++ [(va, pa, ch.2)] := by
  unfold walkOn at h
  split at h
  · exact absurd h (by simp)
  · next ks hks =>
    split at h
    · exact absurd h (by simp)
    · dsimp only at h
      split at h
      · simp only [Except.ok.injEq] at h
        exact ⟨ks, _, _, hks, h.symm⟩
      · exact absurd h (by simp)

theorem engineWalk_marked {s : State} (h : s.sound = true) (core : Nat) (p : Partition) (tenant : Nat) (sup : Bool) (acc : Access)
    (cs : List (Int × Nat)) (rd : Reader) : Marked s (s.engineWalk core p tenant sup acc cs rd).1 := by
  rw [engineWalk_eq]
  suffices hs : ∀ (a : State × Except (Walk × Nat) (List (Nat × Nat × Nat))), Marked s a.1 →
      Marked s (cs.foldl (walkOn core p tenant sup acc rd) a).1 from hs _ (.refl s)
  induction cs with
  | nil => exact fun a ha => ha
  | cons c cs ih => exact fun a ha => ih _ (ha.trans (walkOn_marked (ha.sound.trans h)))

/-- A walk that succeeds has the chunks' lengths. -/
theorem engineWalk_lengths {s : State} {core : Nat} {p : Partition} {tenant : Nat} {sup : Bool} {acc : Access} {cs : List (Int × Nat)}
    {rd : Reader} {ls : List (Nat × Nat × Nat)} (h : (s.engineWalk core p tenant sup acc cs rd).2 = .ok ls) :
    ls.map (·.2.2) = cs.map (·.2) := by
  rw [engineWalk_eq] at h
  induction cs using List.reverseRecOn generalizing ls with
  | nil =>
    simp only [List.foldl_nil, Except.ok.injEq] at h
    simp [← h]
  | append_singleton cs c ih =>
    rw [List.foldl_append] at h
    obtain ⟨ks, va, pa, hks, rfl⟩ := walkOn_ok h
    simp [ih hks]

end Sys2Proof.EngineReads
end

-- Writes of an engine at the homes (spec/05_memory_as_kernels_see_it.md)
section
/-! SUPPORT. Lists of bytes put into memory one after another, and what a write at the homes leaves alone where nothing is armed
(R97, R397, R404, R429). -/

namespace Sys2Proof.EngineWrites

open Sys2Proof Sys2Proof.Machine Sys2Proof.Says Sys2Proof.Laws Sys2Proof.LaneState Sys2Proof.GangFrames Sys2Proof.EngineReads

/-! ### Lists of writes -/

/-- Lists of bytes put into memory one after another. -/
def puts (es : List (Nat × List Byte)) (m : Memory) : Memory := es.foldl (fun m e => m.put e.1 e.2) m

theorem puts_cons (e : Nat × List Byte) (es : List (Nat × List Byte)) (m : Memory) : puts (e :: es) m = puts es (m.put e.1 e.2) := rfl

theorem get_puts_outside {es : List (Nat × List Byte)} {m : Memory} {b : Nat} (h : m.wf = true)
    (out : ∀ e ∈ es, b < e.1 ∨ e.1 + e.2.length ≤ b) : (puts es m).get b = m.get b := by
  induction es generalizing m with
  | nil => rfl
  | cons e es ih =>
    rw [puts_cons, ih (Memory.put_wf _ _ _ h) fun q hq => out q (by simp [hq])]
    exact get_put_outside _ _ _ _ h (out e (by simp))

/-- A byte reads as the last write over it gave it. -/
theorem get_puts_last {es : List (Nat × List Byte)} {m : Memory} {k i : Nat} {e : Nat × List Byte} (h : m.wf = true) (hk : es[k]? = some e)
    (hi : i < e.2.length) (last : ∀ k' e', k < k' → es[k']? = some e' → ¬ (e'.1 ≤ e.1 + i ∧ e.1 + i < e'.1 + e'.2.length)) :
    (puts es m).get (e.1 + i) = e.2.getD i 0 := by
  induction es generalizing m k with
  | nil => simp at hk
  | cons q es ih =>
    rw [puts_cons]
    cases k with
    | zero =>
      obtain rfl : q = e := by simpa using hk
      rw [get_puts_outside (Memory.put_wf _ _ _ h), get_put_inside _ _ _ _ h hi]
      intro e' he'
      obtain ⟨n, hn⟩ := List.mem_iff_getElem?.1 he'
      have := last (n + 1) e' (by omega) (by simpa using hn)
      omega
    | succ k =>
      refine ih (Memory.put_wf _ _ _ h) (by simpa using hk) fun k' e' hlt he' => ?_
      exact last (k' + 1) e' (by omega) (by simpa using he')

/-- Runs that were joined write what they wrote apart. -/
theorem puts_joinRuns (es : List (Nat × List Byte)) (m : Memory) : puts (joinRuns es) m = puts es m := by
  induction es generalizing m with
  | nil => rfl
  | cons e es ih =>
    rw [puts_cons, ← ih, joinRuns]
    cases joinRuns es with
    | nil => rfl
    | cons f more =>
      dsimp only
      split
      · next meets =>
        rw [puts_cons, puts_cons, ← eq_of_beq meets, put_append]
      · rfl

theorem cutBytes_getElem? (ns : List Nat) (bs : List Byte) (k : Nat) :
    (cutBytes ns bs)[k]? = ns[k]?.map (fun n => (bs.drop (ns.take k).sum).take n) := by
  induction ns generalizing bs k with
  | nil => simp [cutBytes]
  | cons n ns ih =>
    cases k with
    | zero => simp [cutBytes]
    | succ k => simp [cutBytes, ih, List.drop_drop]

/-- The writes of walked chunks: each its own part of the bytes. -/
def chunkWrites (ls : List (Nat × Nat × Nat)) (bs : List Byte) : List (Nat × List Byte) :=
  (ls.map (·.2.1)).zip (cutBytes (ls.map (·.2.2)) bs)

theorem chunkWrites_getElem? (ls : List (Nat × Nat × Nat)) (bs : List Byte) (k : Nat) :
    (chunkWrites ls bs)[k]? =
      ls[k]?.map (fun ch => (ch.2.1, (bs.drop ((ls.take k).map (·.2.2)).sum).take ch.2.2)) := by
  rw [chunkWrites, List.zip, List.getElem?_zipWith, List.getElem?_map, cutBytes_getElem?, List.getElem?_map, List.map_take]
  cases ls[k]? <;> rfl

/-- The bytes before a chunk and its own are among those of all. -/
theorem sum_before {ls : List (Nat × Nat × Nat)} {k : Nat} {ch : Nat × Nat × Nat} (h : ls[k]? = some ch) :
    ((ls.take k).map (·.2.2)).sum + ch.2.2 ≤ (ls.map (·.2.2)).sum := by
  induction ls generalizing k with
  | nil => simp at h
  | cons c ls ih =>
    cases k with
    | zero =>
      obtain rfl : c = ch := by simpa using h
      simp
    | succ k =>
      have := ih (k := k) (by simpa using h)
      simp only [List.take_succ_cons, List.map_cons, List.sum_cons]
      omega

/-- A chunk's write, where the bytes are as many as the chunks take. -/
theorem chunkWrites_at {ls : List (Nat × Nat × Nat)} {bs : List Byte} {k : Nat} {ch : Nat × Nat × Nat}
    (sum : (ls.map (·.2.2)).sum = bs.length) (h : ls[k]? = some ch) :
    ∃ cs, (chunkWrites ls bs)[k]? = some (ch.2.1, cs) ∧ cs.length = ch.2.2 ∧
      ∀ i, i < ch.2.2 → cs.getD i 0 = bs.getD (((ls.take k).map (·.2.2)).sum + i) 0 := by
  have within := sum_before h
  refine ⟨_, by rw [chunkWrites_getElem?, h]; rfl, ?_, fun i hi => ?_⟩
  · rw [List.length_take, List.length_drop]
    omega
  · rw [List.getD_eq_getElem?_getD, List.getElem?_take_of_lt hi, List.getElem?_drop, ← List.getD_eq_getElem?_getD]

/-- Every write is that of a chunk. -/
theorem chunk_of_write {ls : List (Nat × Nat × Nat)} {bs : List Byte} {k : Nat} {e : Nat × List Byte}
    (sum : (ls.map (·.2.2)).sum = bs.length) (h : (chunkWrites ls bs)[k]? = some e) :
    ∃ ch, ls[k]? = some ch ∧ e.1 = ch.2.1 ∧ e.2.length = ch.2.2 := by
  have he := h
  rw [chunkWrites_getElem?] at h
  obtain ⟨ch, hch, -⟩ := Option.map_eq_some_iff.1 h
  obtain ⟨cs, hcs, len, -⟩ := chunkWrites_at sum hch
  rw [he] at hcs
  obtain rfl := Option.some.inj hcs
  exact ⟨ch, hch, rfl, len⟩

/-! ### Gangs and operations that last -/

theorem find?_map_keeping {α : Type} (key : α → Nat) (f : α → α) (keeps : ∀ a, key (f a) = key a) (l : List α) (k : Nat) :
    (l.map f).find? (fun a => key a == k) = (l.find? (fun a => key a == k)).map f := by
  induction l with
  | nil => rfl
  | cons a l ih =>
    rw [List.map_cons, List.find?_cons, List.find?_cons, keeps, ih]
    cases key a == k <;> rfl

/-- Every gang lasts with its scratchpad, every operation lasts, and what is armed is as before. -/
structure Lasts (s u : State) : Prop where
  injs : u.dev.injs = s.dev.injs
  gang : ∀ g x, s.gang? g = some x → ∃ x', u.gang? g = some x' ∧ x'.sp = x.sp
  op   : ∀ id, (s.op? id).isSome → (u.op? id).isSome

theorem Lasts.refl (s : State) : Lasts s s := ⟨rfl, fun _ x h => ⟨x, h, rfl⟩, fun _ h => h⟩

theorem Lasts.trans {s u v : State} (h : Lasts s u) (h' : Lasts u v) : Lasts s v := by
  refine ⟨h'.injs.trans h.injs, fun g x hx => ?_, fun id hid => h'.op id (h.op id hid)⟩
  obtain ⟨y, hy, same⟩ := h.gang g x hx
  obtain ⟨z, hz, same'⟩ := h'.gang g y hy
  exact ⟨z, hz, same'.trans same⟩

/-- A change of what is neither gangs, nor operations, nor armed. -/
theorem Lasts.of_eq {s u : State} (dev : u.dev.injs = s.dev.injs) (gangs : u.gangs = s.gangs) (ops : u.ops = s.ops) : Lasts s u :=
  ⟨dev, fun g x hx => ⟨x, by rw [State.gang?, gangs]; exact hx, rfl⟩, fun id h => by rw [State.op?, ops]; exact h⟩

/-- A change within every gang and every operation. -/
theorem Lasts.of_map {s u : State} (f : Gang → Gang) (fo : Op → Op) (dev : u.dev.injs = s.dev.injs) (gangs : u.gangs = s.gangs.map f)
    (ops : u.ops = s.ops.map fo) (id : ∀ x, (f x).id = x.id) (sp : ∀ x, (f x).sp = x.sp) (opId : ∀ o, (fo o).id = o.id) : Lasts s u := by
  refine ⟨dev, fun g x hx => ⟨f x, ?_, sp x⟩, fun k hk => ?_⟩
  · rw [State.gang?, gangs, find?_map_keeping Gang.id f id]
    exact congrArg (Option.map f) hx
  · rw [State.op?, ops, find?_map_keeping Op.id fo opId, Option.isSome_map]
    exact hk

theorem foldl_lasts {α : Type} {f : State → α → State} (P : State → Prop) (step : ∀ s a, P s → Lasts s (f s a) ∧ P (f s a)) (l : List α)
    (s : State) (h : P s) : Lasts s (l.foldl f s) ∧ P (l.foldl f s) := by
  induction l generalizing s with
  | nil => exact ⟨.refl s, h⟩
  | cons a l ih =>
    obtain ⟨lasts, hp⟩ := step s a h
    obtain ⟨lasts', hp'⟩ := ih _ hp
    exact ⟨lasts.trans lasts', hp'⟩

/-! ### Writes at the homes -/

/-- Memory is given and nothing is armed. -/
def Calm (m : Memory) (s : State) : Prop := s.mem = m ∧ s.dev.injs = []

theorem sendPush_lasts (s : State) (x : Subscriber) (loc : Nat) (v : BitVec 64) : Lasts s (s.sendPush x loc v) := by
  refine ⟨rfl, fun g y hy => ⟨y, hy, rfl⟩, fun id h => ?_⟩
  change ((s.ops ++ _).find? _).isSome
  rw [List.find?_append]
  exact Option.isSome_or.trans (by rw [show (List.find? (fun o => o.id == id) s.ops).isSome = true from h, Bool.true_or])

theorem tableRead_calm {s : State} (h : s.dev.injs = []) (e : SubEntry) : s.tableRead e = s := by simp [State.tableRead, h]

theorem pushes_calm {m : Memory} {s : State} (h : Calm m s) (loc : Nat) : Lasts s (s.pushes loc) ∧ Calm m (s.pushes loc) := by
  have reads : (s.subsAt loc).foldl (fun s e => s.tableRead e) s = s := by
    induction s.subsAt loc with
    | nil => rfl
    | cons e es ih => rw [List.foldl_cons, tableRead_calm h.2, ih]
  unfold State.pushes
  rw [reads]
  refine foldl_lasts (Calm m) (fun s x hs => ?_) _ s h
  split
  · exact ⟨sendPush_lasts .., hs⟩
  · exact ⟨.of_eq rfl rfl rfl, hs⟩

theorem wakeMoving_lasts (s : State) (entry : Nat) : Lasts s (s.wakeMoving entry) := by
  refine .of_map (fun g => { g with
      merges := g.merges.map fun m => if (m.paused == some (.moving entry)) then { m with paused := none } else m
      tks := g.tks.map fun t => { t with slots := t.slots.map fun k => if (k.park == some (.moving entry)) then { k with park := none } else k } })
    _ rfl rfl rfl (fun _ => rfl) (fun _ => rfl) (fun _ => rfl)

theorem entryWritten_calm {m : Memory} {s : State} (h : Calm m s) (entry old new : Nat) :
    Lasts s (s.entryWritten entry old new) ∧ Calm m (s.entryWritten entry old new) := by
  unfold State.entryWritten
  dsimp only
  split
  · exact ⟨.refl s, h⟩
  split
  · exact ⟨(wakeMoving_lasts s entry).trans (.of_eq rfl rfl rfl), h⟩
  · exact ⟨wakeMoving_lasts s entry, h⟩

theorem shootdown_lasts (s : State) (line : Nat) : Lasts s (s.shootdown line).1 := by
  refine .of_map (fun g => { g with tks := g.tks.map (fun t =>
    { t with t := t.t.map (fun r => if r.bound && r.lines.contains line then { r with retrans := true } else r) }) }) id
    rfl rfl (List.map_id _).symm (fun _ => rfl) (fun _ => rfl) (fun _ => rfl)

theorem homeWrite_calm {s : State} (h : s.dev.injs = []) (pa n v : Nat) :
    Lasts s (s.homeWrite pa n v).1 ∧ Calm (s.mem.write pa n v) (s.homeWrite pa n v).1 := by
  unfold State.homeWrite
  dsimp only
  have shot : Lasts s (({ s with mem := s.mem.write pa n v } : State).shootdown (pa / 128)).1 :=
    Lasts.trans (u := { s with mem := s.mem.write pa n v }) (.of_eq rfl rfl rfl) (shootdown_lasts _ _)
  obtain ⟨written, calm⟩ := foldl_lasts (Calm (s.mem.write pa n v))
    (fun s (wb : Nat × Nat) hs => entryWritten_calm hs wb.1 wb.2 (s.mem.read wb.1 8)) _
    (({ s with mem := s.mem.write pa n v } : State).shootdown (pa / 128)).1 ⟨rfl, h⟩
  obtain ⟨pushed, calm'⟩ := foldl_lasts (Calm (s.mem.write pa n v)) (fun s w hs => pushes_calm hs w) _ _ calm
  exact ⟨(shot.trans written).trans pushed, calm'⟩

theorem homePut_calm {s : State} (h : s.dev.injs = []) (pa : Nat) (bs : List Byte) (fuel : Nat) (enough : bs.length < fuel) :
    Lasts s (s.homePut pa bs fuel).1 ∧ Calm (s.mem.put pa bs) (s.homePut pa bs fuel).1 := by
  induction fuel generalizing s pa bs with
  | zero => exact absurd enough (Nat.not_lt_zero _)
  | succ fuel ih =>
    cases bs with
    | nil => exact ⟨.refl s, rfl, h⟩
    | cons b bs =>
      unfold State.homePut
      dsimp only
      generalize hn : min (b :: bs).length (8 - pa % 8) = n
      have some_ : 0 < n := by rw [← hn, List.length_cons]; omega
      have within : n ≤ (b :: bs).length := hn ▸ Nat.min_le_left ..
      obtain ⟨lasts, mem, injs⟩ := homeWrite_calm h pa n (natOfBytes ((b :: bs).take n))
      obtain ⟨lasts', mem', injs'⟩ := ih injs (pa + n) ((b :: bs).drop n) (by rw [List.length_drop]; omega)
      refine ⟨lasts.trans lasts', ?_, injs'⟩
      have len : ((b :: bs).take n).length = n := List.length_take_of_le within
      have bytes := bytesOfNat_natOfBytes ((b :: bs).take n)
      rw [len] at bytes
      rw [mem', mem, write_eq_put, bytes]
      conv_rhs => rw [← List.take_append_drop n (b :: bs), put_append, len]

/-- The writes of a piece, each with its demand, and what their completions wait for. -/
def homePuts (g : Nat) (runs : List (Nat × List Byte)) (s : State) (ws : List Nat) : State × List Nat :=
  runs.foldl (fun (a : State × List Nat) run =>
    let q := (a.1.demandOf g run.1 run.2.length false).homePut run.1 run.2 (run.2.length + 1)
    (q.1, a.2 ++ q.2)) (s, ws)

theorem homePuts_calm (g : Nat) (runs : List (Nat × List Byte)) (s : State) (ws : List Nat) (h : s.dev.injs = []) :
    Lasts s (homePuts g runs s ws).1 ∧ Calm (puts runs s.mem) (homePuts g runs s ws).1 := by
  induction runs generalizing s ws with
  | nil => exact ⟨.refl s, rfl, h⟩
  | cons r rs ih =>
    have asked := demandOf_demanded s g r.1 r.2.length false
    have kept : Lasts s (s.demandOf g r.1 r.2.length false) :=
      .of_eq asked.injs (by rw [asked.rest]) (by rw [asked.rest])
    obtain ⟨lasts, mem, injs⟩ := homePut_calm (asked.injs.trans h) r.1 r.2 (r.2.length + 1) (Nat.lt_succ_self _)
    obtain ⟨lasts', mem', injs'⟩ := ih ((s.demandOf g r.1 r.2.length false).homePut r.1 r.2 (r.2.length + 1)).1
      (ws ++ ((s.demandOf g r.1 r.2.length false).homePut r.1 r.2 (r.2.length + 1)).2) injs
    refine ⟨(kept.trans lasts).trans lasts', mem'.trans ?_, injs'⟩
    rw [mem, puts_cons, asked.rest]

end Sys2Proof.EngineWrites
end

-- Credits of a copy (spec/05_memory_as_kernels_see_it.md)
section
/-! SUPPORT. What a credit does to a gang's barrier, and how a piece of a copy, or its last, leaves the command (R110, R112, R285). -/

namespace Sys2Proof.EngineCredits

open Sys2Proof Sys2Proof.Machine Sys2Proof.Says Sys2Proof.Laws Sys2Proof.LaneState Sys2Proof.GangFrames Sys2Proof.EngineReads
  Sys2Proof.EngineWrites

/-! ### Operations -/

theorem op?_modOp (s : State) (id k : Nat) (f : Op → Op) (keeps : ∀ q, (f q).id = q.id) :
    (s.modOp id f).op? k = (s.op? k).map (fun q => if q.id == id then f q else q) := by
  refine find?_map_keeping Op.id _ (fun q => ?_) s.ops k
  split
  · exact keeps q
  · rfl

/-- The operation that was changed. -/
theorem op?_modOp_self {s : State} {id : Nat} {o : Op} (f : Op → Op) (keeps : ∀ q, (f q).id = q.id) (ho : s.op? id = some o) :
    (s.modOp id f).op? id = some (f o) := by
  rw [op?_modOp s id id f keeps, ho, Option.map_some, op?_id ho, beq_self_eq_true, if_pos rfl]

theorem op?_modOp_none {s : State} {id k : Nat} (f : Op → Op) (keeps : ∀ q, (f q).id = q.id) (ho : s.op? k = none) :
    (s.modOp id f).op? k = none := by
  rw [op?_modOp s id k f keeps, ho, Option.map_none]

/-! ### Arrivals -/

/-- What the count of a task does not touch. -/
structure Counted (s u : State) : Prop where
  mem   : u.mem = s.mem
  gangs : u.gangs = s.gangs
  ops   : u.ops = s.ops

theorem decTask_counted (s : State) (t : Nat) : Counted s (s.decTask t) := by
  unfold State.decTask
  split
  · exact ⟨rfl, rfl, rfl⟩
  split
  · exact ⟨rfl, rfl, rfl⟩
  split
  · exact ⟨rfl, rfl, rfl⟩
  split <;> exact ⟨rfl, rfl, rfl⟩

theorem decHandle_counted (s : State) (p tenant h : Nat) : Counted s (s.decHandle p tenant h) := by
  unfold State.decHandle
  split
  · split
    · exact decTask_counted ..
    · exact ⟨rfl, rfl, rfl⟩
  · exact ⟨rfl, rfl, rfl⟩

@[simp] theorem arrPut_sp (x : Gang) (a : Nat) (bs : List Byte) : (x.arrPut a bs).sp = Memory.put x.sp a bs := rfl

/-- A barrier that was put. -/
theorem barrier_arrPut {x : Gang} (h : Memory.wf x.sp = true) (a : Nat) (v : BitVec 128) :
    (x.arrPut a (bytesOfNat 16 v.toNat)).barrier a = v := by
  rw [Gang.barrier, arrPut_sp, ← write_eq_put, Memory.read_write _ _ _ _ h, Nat.mod_eq_of_lt (by simpa using v.isLt), BitVec.ofNat_toNat, BitVec.setWidth_eq]

/-- A barrier reads the bytes at its place alone. -/
theorem barrier_congr {x x' : Gang} {a : Nat} (h : ∀ b, a ≤ b → b < a + 16 → Memory.get x'.sp b = Memory.get x.sp b) :
    x'.barrier a = x.barrier a := by
  have read : ∀ n b, a ≤ b → b + n ≤ a + 16 → Memory.read x'.sp b n = Memory.read x.sp b n := by
    intro n
    induction n with
    | zero => intros; rfl
    | succ n ih =>
      intro b lo hi
      rw [Memory.read, Memory.read, h b lo (by omega), ih (b + 1) (by omega) (by omega)]
  rw [Gang.barrier, Gang.barrier, read 16 a le_rfl le_rfl]

/-- A gang after a step that writes in 16 bytes of its scratchpad: memory and every operation last. -/
structure Arrived (s u : State) (g a : Nat) (x x' : Gang) : Prop where
  mem     : u.mem = s.mem
  gang    : u.gang? g = some x'
  windows : x'.windows = x.windows
  sp      : Memory.wf x.sp = true → ∀ b, b < a ∨ a + 16 ≤ b → Memory.get x'.sp b = Memory.get x.sp b
  op      : ∀ id, (s.op? id).isSome → (u.op? id).isSome

theorem Arrived.counted {s u v : State} {g a : Nat} {x x' : Gang} (h : Arrived s u g a x x') (c : Counted u v) : Arrived s v g a x x' :=
  ⟨c.mem.trans h.mem, by rw [State.gang?, c.gangs]; exact h.gang, h.windows, h.sp, fun id hid => by rw [State.op?, c.ops]; exact h.op id hid⟩

theorem arrPut_arrived {s u : State} {g a : Nat} {x : Gang} (hx : s.gang? g = some x) (bs : List Byte)
    (len : bs.length = 16) (mem : u.mem = s.mem) (gangs : u.gangs = s.gangs) (op : ∀ id, (s.op? id).isSome → (u.op? id).isSome) :
    Arrived s (u.modGang g (fun y => y.arrPut a bs)) g a x (x.arrPut a bs) := by
  refine ⟨mem, ?_, rfl, fun wf b hb => get_put_outside _ _ _ _ wf (by rwa [len]), op⟩
  rw [gang?_modGang _ _ _ (by intro y; rfl), State.gang?, gangs]
  exact congrArg (Option.map _) hx

/-- A race leaves free values in the barrier. -/
theorem spoilBarrier_arrived {s : State} {g a : Nat} {x : Gang} (hx : s.gang? g = some x) :
    ∃ x', Arrived s (s.spoilBarrier g a) g a x x' := by
  unfold State.spoilBarrier
  generalize BitVec.append (Config.freeValue s.seed) (Config.freeValue (s.seed + 1)) = v
  refine ⟨_, arrPut_arrived hx _ (bytesOfNat_length ..) rfl rfl fun id h => ?_⟩
  rw [State.op?, find?_map_keeping Op.id, Option.isSome_map]
  · exact h
  · intro q
    split <;> rfl

/-- An arrival at a barrier of a gang (R110, R111). -/
theorem arrive_arrived {s : State} {g : Nat} {x : Gang} (hx : s.gang? g = some x) (a : Nat)
    (n e : BitVec 32) (who : Option (Nat × Nat)) :
    ∃ x', Arrived s (s.arrive g a n e who) g a x x' ∧
      (Memory.wf x.sp = true → s.storeRaces g a who = false → x'.barrier a = (arriveVal (x.barrier a) n e).1) := by
  have settle : ∀ (u : State) (x' : Gang) (c : Bool) (h : Nat), Arrived s u g a x x' →
      Arrived s (if c then u.decHandle x.part x.tenant h else u) g a x x' := by
    intro u x' c h hu
    split
    · exact hu.counted (decHandle_counted ..)
    · exact hu
  unfold State.arrive
  rw [hx]
  dsimp only
  cases races : s.storeRaces g a who with
  | false =>
    exact ⟨_, settle _ _ _ _ (arrPut_arrived hx _ (bytesOfNat_length ..) rfl rfl fun _ h => h), fun wf _ => barrier_arrPut wf a _⟩
  | true =>
    obtain ⟨x', spoiled⟩ := spoilBarrier_arrived (a := a) hx
    exact ⟨x', settle _ _ _ _ spoiled, fun _ h => absurd h (by simp)⟩

/-! ### Credits of a copy -/

/-- A gang after a step that writes at most at the barrier of a copy. -/
structure Spared (s u : State) (g : Nat) (bar : Option Nat) (x x' : Gang) : Prop where
  mem     : u.mem = s.mem
  gang    : u.gang? g = some x'
  windows : x'.windows = x.windows
  sp      : ∀ b, (∀ k, bar = some k → b < k ∨ k + 16 ≤ b) → Memory.get x'.sp b = Memory.get x.sp b

theorem Spared.congr {s u v : State} {g : Nat} {bar : Option Nat} {x x' : Gang} (h : Spared s u g bar x x') (mem : v.mem = u.mem)
    (gangs : v.gangs = u.gangs) : Spared s v g bar x x' :=
  ⟨mem.trans h.mem, by rw [State.gang?, gangs]; exact h.gang, h.windows, h.sp⟩

theorem Spared.refl {s : State} {g : Nat} (bar : Option Nat) {x : Gang} (hx : s.gang? g = some x) : Spared s s g bar x x :=
  ⟨rfl, hx, rfl, fun _ _ => rfl⟩

/-- The bytes of a copy arrive at its barrier, where it has one. -/
def arrives (s : State) (g : Nat) (bar : Option Nat) (n : BitVec 32) : State :=
  match bar with
  | some b => s.arrive g b n 0 none
  | none => s

theorem arrives_spared {s : State} {g : Nat} {x : Gang} (hx : s.gang? g = some x) (wf : Memory.wf x.sp = true) (bar : Option Nat)
    (n : BitVec 32) :
    ∃ x', Spared s (arrives s g bar n) g bar x x' ∧ (∀ id, (s.op? id).isSome → ((arrives s g bar n).op? id).isSome) ∧
      (∀ k, bar = some k → s.storeRaces g k none = false → x'.barrier k = (arriveVal (x.barrier k) n 0).1) := by
  cases bar with
  | none => exact ⟨x, .refl _ hx, fun _ h => h, fun k h => by simp at h⟩
  | some b =>
    obtain ⟨x', arrived, value⟩ := arrive_arrived hx b n 0 none
    refine ⟨x', ⟨arrived.mem, arrived.gang, arrived.windows, fun c hc => arrived.sp wf c (hc b rfl)⟩, arrived.op, ?_⟩
    rintro k ⟨⟩
    exact value wf

/-- A command's locks fall and it ends: its gang changes in its tussocks at most. -/
theorem ends_spared {s u : State} {o : Op} {bar : Option Nat} {x x' : Gang} (h : Spared s u o.gang bar x x') (kept : o.unwritten = false) :
    ∃ tks, Spared s ((u.unlock o.id).finishOp o) o.gang bar x { x' with tks := tks } := by
  have ended := TksOnly.finishOp (u.unlock o.id) o kept
  obtain ⟨tks, hg⟩ := ended.gang x' h.gang
  exact ⟨tks, ended.mem.trans h.mem, hg, h.windows, h.sp⟩

/-- A credit of n bytes; the command ends where they were its last. -/
theorem copyCredit_spared {s : State} {o : Op} {x : Gang} (cp : Copy) (n : Nat) (hx : s.gang? o.gang = some x) (wf : Memory.wf x.sp = true)
    (ho : (s.op? o.id).isSome) (kept : o.unwritten = false) :
    ∃ x', Spared s (s.copyCredit o cp n) o.gang cp.bar x x' ∧
      (cp.done < copyPieces cp.desc → ∃ o', (s.copyCredit o cp n).op? o.id = some o' ∧ o'.kind = .copy { cp with owed := 0 }) ∧
      (copyPieces cp.desc ≤ cp.done → (s.copyCredit o cp n).op? o.id = none) ∧
      (∀ k, cp.bar = some k → s.storeRaces o.gang k none = false → x'.barrier k = (arriveVal (x.barrier k) (BitVec.ofNat 32 n) 0).1) := by
  obtain ⟨x', spared, op, value⟩ := arrives_spared hx wf cp.bar (BitVec.ofNat 32 n)
  have unfold_ : s.copyCredit o cp n = if copyPieces cp.desc ≤ cp.done then
      ((arrives s o.gang cp.bar (BitVec.ofNat 32 n)).unlock o.id).finishOp o
    else (arrives s o.gang cp.bar (BitVec.ofNat 32 n)).modOp o.id (fun q => { q with kind := .copy { cp with owed := 0 } }) := rfl
  rw [unfold_]
  by_cases last : copyPieces cp.desc ≤ cp.done
  · rw [if_pos last]
    obtain ⟨tks, gone⟩ := ends_spared spared kept
    exact ⟨_, gone, fun h => absurd last (by omega), fun _ => op?_finishOp _ o kept, value⟩
  · rw [if_neg last]
    refine ⟨x', spared.congr rfl rfl, fun _ => ?_, fun h => absurd h last, value⟩
    obtain ⟨o', ho'⟩ := Option.isSome_iff_exists.1 (op _ ho)
    exact ⟨_, op?_modOp_self _ (by intro q; rfl) ho', rfl⟩

theorem sourceLat_rest (s : State) (d : BitVec 512) : ∃ seed, (s.sourceLat d).2 = { s with seed := seed } := by
  unfold State.sourceLat
  split
  · exact ⟨_, rfl⟩
  · exact ⟨s.seed, rfl⟩

/-- A piece that has been performed (R285, R397): what the command is then, and what the barrier holds. -/
structure Performed (s u : State) (o : Op) (cp : Copy) (n : Nat) (x x' : Gang) : Prop where
  spared : Spared s u o.gang cp.bar x x'
  goesOn : cp.window ≠ none ∨ cp.done + 1 < copyPieces cp.desc →
    ∃ o' c', u.op? o.id = some o' ∧ o'.kind = .copy c' ∧ c'.done = cp.done + 1 ∧ c'.desc = cp.desc ∧ c'.bar = cp.bar

/-- A piece of which nothing is waited for is credited at once; after the last the command is gone. -/
structure Credited (s u : State) (o : Op) (cp : Copy) (n : Nat) (x x' : Gang) : Prop extends Performed s u o cp n x x' where
  ended : cp.window = none → copyPieces cp.desc ≤ cp.done + 1 → u.op? o.id = none
  value : ∀ k, cp.window = none → cp.bar = some k → s.storeRaces o.gang k none = false →
    x'.barrier k = (arriveVal (x.barrier k) (BitVec.ofNat 32 n) 0).1

theorem pieceDone_credited {s : State} {o : Op} {x : Gang} (cp : Copy) (n : Nat) (hx : s.gang? o.gang = some x)
    (wf : Memory.wf x.sp = true) (ho : (s.op? o.id).isSome) (kept : o.unwritten = false) :
    ∃ x', Credited s (s.pieceDone o cp n []) o cp n x x' := by
  obtain ⟨seed, hlat⟩ := sourceLat_rest s cp.desc
  obtain ⟨o', ho'⟩ := Option.isSome_iff_exists.1 ho
  unfold State.pieceDone
  dsimp only
  rw [hlat]
  by_cases fill : cp.window = none
  · rw [if_neg (by simp [fill]), if_pos List.isEmpty_nil]
    obtain ⟨x', spared, on, gone, value⟩ := copyCredit_spared (s := { s with seed := seed }) { cp with done := cp.done + 1 } n hx wf ho kept
    refine ⟨x', ⟨⟨spared.mem, spared.gang, spared.windows, spared.sp⟩, fun more => ?_⟩, fun _ last => ?_, fun k _ bar races => value k bar races⟩
    · obtain ⟨q, hq, kind⟩ := on (more.resolve_left (by simp [fill]))
      exact ⟨_, _, op?_modOp_self _ (by intro q; rfl) hq, kind, rfl, rfl, rfl⟩
    · exact op?_modOp_none _ (by intro q; rfl) (gone last)
  · rw [if_pos (Option.isSome_iff_ne_none.2 fill)]
    refine ⟨x, ⟨(Spared.refl _ hx).congr rfl rfl, fun _ => ?_⟩, fun h => absurd h fill, fun k h => absurd h fill⟩
    exact ⟨_, _, op?_modOp_self (s := { s with seed := seed }) _ (by intro q; rfl) ho', rfl, rfl, rfl, rfl⟩

theorem pieceDone_performed {s : State} {o : Op} {x : Gang} (cp : Copy) (n : Nat) (ws : List Nat) (hx : s.gang? o.gang = some x)
    (wf : Memory.wf x.sp = true) (ho : (s.op? o.id).isSome) (kept : o.unwritten = false) :
    ∃ x', Performed s (s.pieceDone o cp n ws) o cp n x x' := by
  cases ws with
  | nil =>
    obtain ⟨x', done⟩ := pieceDone_credited cp n hx wf ho kept
    exact ⟨x', done.toPerformed⟩
  | cons w ws =>
    obtain ⟨seed, hlat⟩ := sourceLat_rest s cp.desc
    obtain ⟨o', ho'⟩ := Option.isSome_iff_exists.1 ho
    unfold State.pieceDone
    dsimp only
    rw [hlat]
    split
    · refine ⟨x, (Spared.refl _ hx).congr rfl rfl, fun _ => ?_⟩
      exact ⟨_, _, op?_modOp_self (s := { s with seed := seed }) _ (by intro q; rfl) ho', rfl, rfl, rfl, rfl⟩
    · refine ⟨x, (Spared.refl _ hx).congr rfl rfl, fun _ => ?_⟩
      exact ⟨_, _, op?_modOp_self (s := { s with seed := seed }) _ (by intro q; rfl) ho', rfl, rfl, rfl, rfl⟩

end Sys2Proof.EngineCredits
end

-- The pieces of a tensor copy (spec/05_memory_as_kernels_see_it.md)
section
/-! SUPPORT. The bytes of a piece of a tensor copy, and what the command and its gang are after it, in each direction
(R112, R113, R285). -/

namespace Sys2Proof.EnginePieces

open Sys2Proof Sys2Proof.Machine Sys2Proof.Says Sys2Proof.Laws Sys2Proof.LaneState Sys2Proof.GangFrames Sys2Proof.EngineReads
  Sys2Proof.EngineWrites Sys2Proof.EngineCredits

/-! ### The bytes of a piece -/

/-- The size of a command's next piece. -/
def size (cp : Copy) : Nat := min 128 (descBytes cp.desc - 128 * cp.done)

/-- Where the piece begins on the dense side. -/
def dense (cp : Copy) : Nat := descSp cp.desc + 128 * cp.done

/-- Element i of the piece on the strided side. -/
def elem (cp : Copy) (i : Nat) : Int :=
  (if descDir cp.desc = 2 then (descSrc cp.desc : Int) else (descG cp.desc : Int)) +
    descOffset cp.desc (128 * cp.done / 2 ^ descElog cp.desc + i)

/-- The chunks of the piece on the strided side. -/
def chunks (cp : Copy) : List (Int × Nat) :=
  ((List.range (size cp / 2 ^ descElog cp.desc)).map (elem cp)).flatMap (fun a => chunksOf a (2 ^ descElog cp.desc))

theorem pieceElems_eq (cp : Copy) :
    pieceElems cp.desc cp.done = (List.range (size cp / 2 ^ descElog cp.desc)).map (elem cp) := by
  unfold pieceElems elem
  simp only [beq_iff_eq]
  rfl

/-- A piece holds whole elements. -/
theorem elem_dvd_size (cp : Copy) : 2 ^ descElog cp.desc ∣ size cp := by
  have small : descElog cp.desc ≤ 7 := Nat.le_of_lt_succ (BitVec.isLt _)
  have line : 2 ^ descElog cp.desc ∣ 128 := pow_dvd_pow 2 small
  have all : 2 ^ descElog cp.desc ∣ descBytes cp.desc - 128 * cp.done :=
    Nat.dvd_sub (Dvd.intro_left _ rfl) (line.mul_right _)
  unfold size
  rcases min_choice 128 (descBytes cp.desc - 128 * cp.done) with h | h
  · rwa [h]
  · rwa [h]

theorem chunksOf_sum (va : Int) (n : Nat) : ((chunksOf va n).map (·.2)).sum = n := by
  unfold chunksOf
  dsimp only
  split
  · simp only [List.map_cons, List.map_nil, List.sum_cons, List.sum_nil]
    omega
  · simp

theorem chunks_sum (cp : Copy) : ((chunks cp).map (·.2)).sum = size cp := by
  have sum : ∀ l : List Int, ((l.flatMap (fun a => chunksOf a (2 ^ descElog cp.desc))).map (·.2)).sum =
      l.length * 2 ^ descElog cp.desc := by
    intro l
    induction l with
    | nil => simp
    | cons a l ih => rw [List.flatMap_cons, List.map_append, List.sum_append, chunksOf_sum, ih, List.length_cons]; ring
  rw [chunks, sum, List.length_map, List.length_range]
  exact Nat.div_mul_cancel (elem_dvd_size cp)

/-- The bytes of walked chunks. -/
theorem walked_length (m : Memory) (ls : List (Nat × Nat × Nat)) :
    (ls.flatMap (fun ch => m.bytes ch.2.1 ch.2.2)).length = (ls.map (·.2.2)).sum := by
  simp [List.length_flatMap]

/-- A byte of blocks of one length after one another. -/
theorem getD_flatMap {α : Type} (l : List α) (g : α → List Byte) {e : Nat} (len : ∀ a, (g a).length = e) {j : Nat}
    (h : j < l.length * e) (d : α) : (l.flatMap g).getD j 0 = (g (l.getD (j / e) d)).getD (j % e) 0 := by
  have pos : 0 < e := Nat.pos_of_mul_pos_left (Nat.zero_lt_of_lt h)
  induction l generalizing j with
  | nil => simp at h
  | cons a l ih =>
    rw [List.flatMap_cons]
    by_cases first : j < e
    · rw [List.getD_append _ _ _ _ (by rwa [len]), Nat.div_eq_of_lt first, Nat.mod_eq_of_lt first]
      rfl
    · rw [List.getD_append_right _ _ _ _ (by rw [len]; omega), len, ih (by rw [List.length_cons, Nat.succ_mul] at h; omega),
        show j / e = (j - e) / e + 1 by rw [Nat.div_eq_sub_div pos (by omega)], List.getD_cons_succ, ← Nat.mod_eq_sub_mod (by omega)]

/-- The bytes of the elements of a copy within scratchpad. -/
theorem elems_getD (cp : Copy) (arr : Memory) {j : Nat} (h : j < size cp) :
    ((pieceElems cp.desc cp.done).flatMap (fun a => arr.bytes a.toNat (2 ^ descElog cp.desc))).getD j 0 =
      arr.get ((elem cp (j / 2 ^ descElog cp.desc)).toNat + j % 2 ^ descElog cp.desc) := by
  have pos : 0 < 2 ^ descElog cp.desc := Nat.two_pow_pos _
  have count := Nat.div_mul_cancel (elem_dvd_size cp)
  rw [pieceElems_eq, getD_flatMap _ _ (fun a => bytes_length ..) (by rwa [List.length_map, List.length_range, count]) 0,
    bytes_getD _ (Nat.mod_lt _ pos)]
  have within : j / 2 ^ descElog cp.desc < size cp / 2 ^ descElog cp.desc :=
    Nat.div_lt_div_of_lt_of_dvd (elem_dvd_size cp) h
  simp [List.getD_eq_getElem?_getD, within]

theorem elems_length (cp : Copy) (arr : Memory) :
    ((pieceElems cp.desc cp.done).flatMap (fun a => arr.bytes a.toNat (2 ^ descElog cp.desc))).length = size cp := by
  have count := Nat.div_mul_cancel (elem_dvd_size cp)
  simp [pieceElems_eq, List.length_flatMap, Function.comp_def, count]

/-- Free values in place of some bytes leave the others (R113). -/
theorem freeWhere_keeps (s : State) (a : Nat) (bs : List Byte) (test : Nat → Bool) :
    ∃ seed cs, s.freeWhere a bs test = ({ s with seed := seed }, cs) ∧ cs.length = bs.length ∧
      ∀ j, j < bs.length → test (a + j) = false → cs.getD j 0 = bs.getD j 0 := by
  unfold State.freeWhere
  split
  · exact ⟨s.seed, bs, rfl, rfl, fun _ _ _ => rfl⟩
  · refine ⟨_, _, rfl, by simp, fun j hj ht => ?_⟩
    simp [List.getD_eq_getElem?_getD, hj, ht]

/-! ### What a piece leaves -/

/-- Byte b lies beside the barrier of a copy. -/
def Beside (cp : Copy) (b : Nat) : Prop := ∀ k, cp.bar = some k → b < k ∨ k + 16 ≤ b

/-- What the statement says of the command and of its barrier after a piece. -/
def Credits (s : State) (o : Op) (cp : Copy) (x : Gang) (u : State) (x' : Gang) : Prop :=
  (cp.window ≠ none ∨ cp.done + 1 < copyPieces cp.desc → ∃ o' c', u.op? o.id = some o' ∧ o'.kind = .copy c' ∧ c'.done = cp.done + 1 ∧
    c'.desc = cp.desc ∧ c'.bar = cp.bar) ∧
  (cp.window = none → copyPieces cp.desc ≤ cp.done + 1 → descDir cp.desc ≠ 1 → u.op? o.id = none) ∧
  (∀ k, cp.window = none → cp.bar = some k → (k + 16 ≤ dense cp ∨ dense cp + size cp ≤ k) → descDir cp.desc ≠ 1 →
    s.storeRaces o.gang k none = false → x'.barrier k = (arriveVal (x.barrier k) (BitVec.ofNat 32 (size cp)) 0).1)

/-- Bytes that a piece brings into scratchpad, and its credit. -/
theorem broughtIn {s v : State} {o : Op} {cp : Copy} {x : Gang} {bs : List Byte} (ho : s.op? o.id = some o) (hk : o.kind = .copy cp)
    (hx : s.gang? o.gang = some x) (wf : Memory.wf x.sp = true) (len : bs.length = size cp) (gangs : v.gangs = s.gangs)
    (ops : v.ops = s.ops) :
    ∃ x', ((v.modGang o.gang (fun y => y.arrPut (dense cp) bs)).pieceDone o cp (size cp) []).gang? o.gang = some x' ∧
      ((v.modGang o.gang (fun y => y.arrPut (dense cp) bs)).pieceDone o cp (size cp) []).mem = v.mem ∧
      Credits s o cp x ((v.modGang o.gang (fun y => y.arrPut (dense cp) bs)).pieceDone o cp (size cp) []) x' ∧
      (∀ j, j < size cp → Beside cp (dense cp + j) → Memory.get x'.sp (dense cp + j) = bs.getD j 0) ∧
      (∀ b, (b < dense cp ∨ dense cp + size cp ≤ b) ∧ Beside cp b → Memory.get x'.sp b = Memory.get x.sp b) := by
  have put : (v.modGang o.gang (fun y => y.arrPut (dense cp) bs)).gang? o.gang = some (x.arrPut (dense cp) bs) := by
    rw [gang?_modGang _ _ _ (by intro y; rfl), State.gang?, gangs]
    exact congrArg (Option.map _) hx
  have there : ((v.modGang o.gang (fun y => y.arrPut (dense cp) bs)).op? o.id).isSome := by
    rw [State.op?, State.modGang_ops, ops]
    exact Option.isSome_iff_exists.2 ⟨o, ho⟩
  have races : ∀ k, (v.modGang o.gang (fun y => y.arrPut (dense cp) bs)).storeRaces o.gang k none = s.storeRaces o.gang k none := by
    intro k
    rw [State.storeRaces, State.modGang_ops, ops]
    rfl
  obtain ⟨x', done⟩ := pieceDone_credited cp (size cp) put (Memory.put_wf _ _ _ wf) there (by simp [Op.unwritten, hk])
  refine ⟨x', done.spared.gang, done.spared.mem, ⟨done.goesOn, fun w last _ => done.ended w last, fun k w bar apart _ free => ?_⟩,
    fun j hj beside => ?_, fun b ⟨out, beside⟩ => ?_⟩
  · rw [done.value k w bar ((races k).trans free), barrier_congr fun b lo hi => ?_]
    exact get_put_outside _ _ _ _ wf (by rw [len]; omega)
  · rw [done.spared.sp _ beside]
    exact get_put_inside _ _ _ _ wf (by rwa [len])
  · rw [done.spared.sp b beside]
    exact get_put_outside _ _ _ _ wf (by rwa [len])

/-! ### A piece that is due -/

/-- The next piece of a copy can be performed, no storage error lies in its way, and memories are canonical. -/
structure Ready (s : State) (core : Nat) (o : Op) (cp : Copy) (x : Gang) (p : Partition) : Prop where
  op      : s.op? o.id = some o
  kind    : o.kind = .copy cp
  gang    : s.gang? o.gang = some x
  at_core : o.core = some core
  part    : s.part? x.part = some p
  started : cp.started = true
  paused  : cp.paused = none
  owed    : cp.owed = 0
  waits   : ∀ w ∈ o.waits, s.settled w = true
  more    : cp.done < copyPieces cp.desc
  due     : o.at_ ≤ s.clk core
  injs    : s.dev.injs = []
  up      : s.dev.cxlUp = BitVec.allOnes _
  mem     : s.mem.wf = true
  sp      : Memory.wf x.sp = true

theorem Ready.exec {s : State} {core : Nat} {o : Op} {cp : Copy} {x : Gang} {p : Partition} (r : Ready s core o cp x p) :
    exec (.enginePieceCredit o.id) s = .next (s.copyPiece o cp x p core) := by
  change execEnginePieceCredit o.id s = _
  unfold execEnginePieceCredit
  have free : (!cp.started || cp.paused.isSome || o.waits.any (fun w => !s.settled w)) = false := by
    simpa [r.started, r.paused] using r.waits
  have going : (decide (copyPieces cp.desc ≤ cp.done) || decide (s.clk core < o.at_)) = false := by
    simpa using ⟨r.more, r.due⟩
  simp only [r.op, r.kind, r.gang, r.at_core, r.part, free, going, r.owed]
  rfl

/-- The walk of a piece's chunks. -/
def pieceWalk (s : State) (core : Nat) (p : Partition) (x : Gang) (cp : Copy) : State × Except (Walk × Nat) (List (Nat × Nat × Nat)) :=
  s.engineWalk core p x.tenant cp.sup (if descDir cp.desc = 1 then .write else .read) (chunks cp) (s.readerOf x.id)

theorem Ready.marked {s : State} {core : Nat} {o : Op} {cp : Copy} {x : Gang} {p : Partition} (r : Ready s core o cp x p) :
    Marked s (pieceWalk s core p x cp).1 := engineWalk_marked (sound_of r.injs r.up) ..

theorem walked_sum {s : State} {core : Nat} {cp : Copy} {x : Gang} {p : Partition} {ls : List (Nat × Nat × Nat)}
    (h : (pieceWalk s core p x cp).2 = .ok ls) : (ls.map (·.2.2)).sum = size cp := by
  rw [engineWalk_lengths h, chunks_sum]

/-- A piece from global memory into scratchpad. -/
theorem copyPiece_in {s : State} {core : Nat} {o : Op} {cp : Copy} {x : Gang} {p : Partition} (r : Ready s core o cp x p)
    (dir : descDir cp.desc = 0) {ls : List (Nat × Nat × Nat)} (h : (pieceWalk s core p x cp).2 = .ok ls) :
    ∃ v : State, v.mem = (pieceWalk s core p x cp).1.mem ∧ v.gangs = s.gangs ∧ v.ops = s.ops ∧
      s.copyPiece o cp x p core = (v.modGang o.gang (fun y => y.arrPut (dense cp)
        (ls.flatMap (fun ch => (pieceWalk s core p x cp).1.mem.bytes ch.2.1 ch.2.2)))).pieceDone o cp (size cp) [] := by
  have marked := r.marked
  obtain ⟨v, asked, read⟩ := engineGlobal_clean (s := (pieceWalk s core p x cp).1) (marked.dev ▸ r.injs) (marked.dev ▸ r.up) p x ls
  refine ⟨v, by rw [asked.rest], by rw [asked.rest]; exact marked.gangs, by rw [asked.rest]; exact marked.ops, ?_⟩
  have walk : s.engineWalk core p x.tenant cp.sup .read ((pieceElems cp.desc cp.done).flatMap (fun a => chunksOf a (2 ^ descElog cp.desc)))
      (s.readerOf x.id) = pieceWalk s core p x cp := by
    rw [pieceElems_eq, pieceWalk, dir]
    rfl
  unfold State.copyPiece
  simp only [dir, walk, h, read]
  rfl

/-- A piece within scratchpad. -/
theorem copyPiece_within {s : State} {core : Nat} {o : Op} {cp : Copy} {x : Gang} {p : Partition} (r : Ready s core o cp x p)
    (dir : descDir cp.desc = 2) :
    ∃ (v : State) (bs : List Byte), v.mem = s.mem ∧ v.gangs = s.gangs ∧ v.ops = s.ops ∧ bs.length = size cp ∧
      (∀ j, j < size cp → descReadsByte cp.desc (dense cp + j) = false → bs.getD j 0 =
        Memory.get x.arr ((elem cp (j / 2 ^ descElog cp.desc)).toNat + j % 2 ^ descElog cp.desc)) ∧
      s.copyPiece o cp x p core = (v.modGang o.gang (fun y => y.arrPut (dense cp) bs)).pieceDone o cp (size cp) [] := by
  have reads := foldl_reads (u := s) (f := fun (a : State × Bool × List Byte) (e : Int) =>
      let q := a.1.engineSp core x e.toNat (2 ^ descElog cp.desc)
      (q.1, a.2.1 || q.2.1, a.2.2 ++ q.2.2))
    (g := fun a => x.arr.bytes a.toNat (2 ^ descElog cp.desc))
    (fun bs a => by simp [engineSp_clean r.injs]) (pieceElems cp.desc cp.done) []
  rw [List.nil_append] at reads
  obtain ⟨seed, cs, free, len, same⟩ := freeWhere_keeps s (dense cp)
    ((pieceElems cp.desc cp.done).flatMap (fun a => x.arr.bytes a.toNat (2 ^ descElog cp.desc))) (descReadsByte cp.desc)
  rw [elems_length] at len same
  refine ⟨{ s with seed := seed }, cs, rfl, rfl, rfl, len, fun j hj ht => (same j hj ht).trans (elems_getD cp _ hj), ?_⟩
  unfold State.copyPiece
  simp only [dir]
  dsimp only at reads
  rw [reads]
  change s.freeWhere (descSp cp.desc + (pieceSpan cp.desc cp.done).1) _ _ = _ at free
  simp only [Bool.false_eq_true, if_false, free]
  rfl

/-- A piece from scratchpad to global memory: D is set, then every chunk is written with its part of the bytes. -/
theorem copyPiece_out {s : State} {core : Nat} {o : Op} {cp : Copy} {x : Gang} {p : Partition} (r : Ready s core o cp x p)
    (dir : descDir cp.desc = 1) {ls : List (Nat × Nat × Nat)} (h : (pieceWalk s core p x cp).2 = .ok ls) :
    ∃ (t v : State) (ws : List Nat), Marked s t ∧ Lasts s v ∧
      v.mem = puts (chunkWrites ls (x.arr.bytes (dense cp) (size cp))) t.mem ∧
      s.copyPiece o cp x p core = v.pieceDone o cp (size cp) ws := by
  have marked := r.marked.trans (foldl_setDirty p x.tenant ls (pieceWalk s core p x cp).1)
  have walk : s.engineWalk core p x.tenant cp.sup .write ((pieceElems cp.desc cp.done).flatMap (fun a => chunksOf a (2 ^ descElog cp.desc)))
      (s.readerOf x.id) = pieceWalk s core p x cp := by
    rw [pieceElems_eq, pieceWalk, dir]
    rfl
  have read := engineSp_clean (s := (pieceWalk s core p x cp).1) (r.marked.dev ▸ r.injs) core x (dense cp) (size cp)
  obtain ⟨lasts, mem, -⟩ := homePuts_calm x.id (joinRuns (chunkWrites ls (x.arr.bytes (dense cp) (size cp)))) _ [] (marked.dev ▸ r.injs)
  refine ⟨_, _, (homePuts x.id (joinRuns (chunkWrites ls (x.arr.bytes (dense cp) (size cp))))
    (ls.foldl (fun s ch => s.setDirty p x.tenant ch.1) (pieceWalk s core p x cp).1) []).2, marked, Lasts.trans (.of_eq (by rw [marked.dev]) marked.gangs marked.ops) lasts, mem.trans (puts_joinRuns _ _), ?_⟩
  unfold State.copyPiece
  change (pieceWalk s core p x cp).1.engineSp core x (descSp cp.desc + (pieceSpan cp.desc cp.done).1) (pieceSpan cp.desc cp.done).2 = _ at read
  simp only [dir, walk, h, read]
  rfl

/-- What a piece to global memory leaves (R112, R285, R393). -/
theorem sentOut {s : State} {core : Nat} {o : Op} {cp : Copy} {x : Gang} {p : Partition} (r : Ready s core o cp x p)
    (dir : descDir cp.desc = 1) {ls : List (Nat × Nat × Nat)} (h : (pieceWalk s core p x cp).2 = .ok ls) :
    ∃ x', (s.copyPiece o cp x p core).gang? o.gang = some x' ∧ Credits s o cp x (s.copyPiece o cp x p core) x' ∧
      (∀ b, Beside cp b → Memory.get x'.sp b = Memory.get x.sp b) ∧
      (∀ k ch i, ls[k]? = some ch → i < ch.2.2 →
        (∀ k' ch', k < k' → ls[k']? = some ch' → ¬ (ch'.2.1 ≤ ch.2.1 + i ∧ ch.2.1 + i < ch'.2.1 + ch'.2.2)) →
        (s.copyPiece o cp x p core).mem.get (ch.2.1 + i) =
          Memory.get x.arr (dense cp + ((ls.take k).map (fun q => q.2.2)).sum + i)) ∧
      (∀ b, (∀ ch ∈ ls, b < ch.2.1 ∨ ch.2.1 + ch.2.2 ≤ b) →
        (s.copyPiece o cp x p core).mem.get b ||| 0xC0 = s.mem.get b ||| 0xC0) := by
  obtain ⟨t, v, ws, marked, lasts, mem, run⟩ := copyPiece_out r dir h
  obtain ⟨y, hy, same⟩ := lasts.gang _ _ r.gang
  obtain ⟨x', done⟩ := pieceDone_performed cp (size cp) ws hy (same ▸ r.sp) (lasts.op _ (Option.isSome_iff_exists.2 ⟨o, r.op⟩))
    (by simp [Op.unwritten, r.kind])
  have written : (s.copyPiece o cp x p core).mem = puts (chunkWrites ls (x.arr.bytes (dense cp) (size cp))) t.mem := by
    rw [run, done.spared.mem, mem]
  have sum : (ls.map (·.2.2)).sum = (x.arr.bytes (dense cp) (size cp)).length := by rw [walked_sum h, bytes_length]
  refine ⟨x', by rw [run]; exact done.spared.gang, ⟨by rw [run]; exact done.goesOn, fun _ _ ne => absurd dir ne, fun _ _ _ _ ne => absurd dir ne⟩,
    fun b hb => by rw [done.spared.sp b hb, same], fun k ch i hch hi last => ?_, fun b out => ?_⟩
  · obtain ⟨cs, hcs, len, value⟩ := chunkWrites_at sum hch
    have within := sum_before hch
    rw [sum, bytes_length] at within
    rw [written, get_puts_last (marked.wf r.mem) hcs (by rwa [len]), value i hi, bytes_getD _ (by omega), Nat.add_assoc]
    intro k' e' hlt he'
    obtain ⟨ch', hch', at_, len'⟩ := chunk_of_write sum he'
    rw [at_, len']
    exact last k' ch' hlt hch'
  · rw [written, get_puts_outside (marked.wf r.mem), marked.bits r.mem]
    intro e he
    obtain ⟨k, hk⟩ := List.mem_iff_getElem?.1 he
    obtain ⟨ch, hch, at_, len⟩ := chunk_of_write sum hk
    rw [at_, len]
    exact out ch (List.mem_of_getElem? hch)

end Sys2Proof.EnginePieces
end

-- Proof of the statement on engine starts, pieces of copies, window fills and leave (spec/05_memory_as_kernels_see_it.md)
section
/-! SUPPORT. The start of an engine command, the faults of a copy's piece, the end of a window fill, and the leave that the pool grants
(R105, R113, R273, R285, R401, R402, R428). -/

namespace Sys2Proof.EngineCopies

open Sys2Proof Sys2Proof.Machine Sys2Proof.Says Sys2Proof.Laws Sys2Proof.LaneState Sys2Proof.GangFrames Sys2Proof.EngineReads
  Sys2Proof.EngineWrites Sys2Proof.EngineCredits Sys2Proof.EnginePieces

/-! ### Starts -/

/-- A command has started: its kind is the given one, it goes on later than now, and memory, gangs and tasks are as before. -/
def Starts (s : State) (o : Op) (k : OpKind) : Prop :=
  ∃ u o', exec (.engineStart o.id) s = .next u ∧ u.op? o.id = some o' ∧ o'.kind = k ∧
    s.opClk o < o'.at_ ∧ u.mem = s.mem ∧ u.gangs = s.gangs ∧ u.tasks = s.tasks

/-- A command that gets its kind and a later clock, where free values may have been taken. -/
theorem starts_of {s : State} {o : Op} {k : OpKind} (ho : s.op? o.id = some o) (seed at_ : Nat) (later : s.opClk o < at_)
    (run : exec (.engineStart o.id) s = .next (({ s with seed := seed } : State).modOp o.id (fun q => { q with at_ := at_, kind := k }))) :
    Starts s o k :=
  ⟨_, _, run, op?_modOp_self (s := { s with seed := seed }) _ (by intro q; rfl) ho, rfl, later, rfl, rfl, rfl⟩

theorem engineStart_runs {s : State} {o : Op} (ho : s.op? o.id = some o) (can : s.engineCanStart o = true) :
    exec (.engineStart o.id) s = match o.kind with
      | .copy c =>
        let lat := s.sourceLat c.desc
        let c := { c with started := true, startAt := s.opClk o }
        .next (lat.2.modOp o.id (fun q => { q with at_ := pieceDue c lat.1, kind := .copy c }))
      | .shuf f => .next (s.delay.2.modOp o.id (fun q => { q with at_ := s.opClk o + 1 + s.delay.1, kind := .shuf { f with started := true } }))
      | .merge m =>
        if m.resumed then .next (s.mergeGo o m)
        else .next (s.modOp o.id (fun q => { q with at_ := s.opClk o + 1, kind := .merge { m with started := true } }))
      | .loop l => .next (s.loopGo o l)
      | _ => .next s := by
  change execEngineStart o.id s = _
  unfold execEngineStart
  simp only [ho, can]
  rfl

theorem copy_starts {s : State} {o : Op} {c : Copy} (ho : s.op? o.id = some o) (due : o.at_ ≤ s.opClk o) (hk : o.kind = .copy c)
    (new : c.started = false) : Starts s o (.copy { c with started := true, startAt := s.opClk o }) := by
  obtain ⟨seed, hlat⟩ := sourceLat_rest s c.desc
  refine starts_of ho seed (pieceDue { c with started := true, startAt := s.opClk o } (s.sourceLat c.desc).1) ?_ ?_
  · simp only [pieceDue]
    omega
  · rw [engineStart_runs ho (by simp [State.engineCanStart, hk, new, due]), hk]
    dsimp only
    rw [hlat]

theorem shuf_starts {s : State} {o : Op} {f : Shuffle} (ho : s.op? o.id = some o) (due : o.at_ ≤ s.opClk o) (hk : o.kind = .shuf f)
    (new : f.started = false) : Starts s o (.shuf { f with started := true }) := by
  refine starts_of ho (s.seed + 1) (s.opClk o + 1 + s.delay.1) (by omega) ?_
  rw [engineStart_runs ho (by simp [State.engineCanStart, hk, new, due]), hk]
  rfl

theorem merge_starts {s : State} {o : Op} {m : Merge} (ho : s.op? o.id = some o) (due : o.at_ ≤ s.opClk o) (hk : o.kind = .merge m)
    (new : m.started = false) (fresh : m.resumed = false) : Starts s o (.merge { m with started := true }) := by
  refine starts_of ho s.seed (s.opClk o + 1) (by omega) ?_
  rw [engineStart_runs ho (by simp [State.engineCanStart, hk, new, fresh, due]), hk]
  simp only [fresh]
  rfl

/-! ### Faults -/

theorem event_rest (s : State) (p op : Nat) (a0 a1 a2 : BitVec 64) :
    (s.event p op a0 a1 a2).mem = s.mem ∧ (s.event p op a0 a1 a2).ops = s.ops := by
  have emitted : (s.emit p op a0 a1 a2).mem = s.mem ∧ (s.emit p op a0 a1 a2).ops = s.ops := by
    unfold State.emit
    split <;> exact ⟨rfl, rfl⟩
  unfold State.event
  split
  · exact ⟨rfl, rfl⟩
  dsimp only
  split
  · exact emitted
  · exact ⟨rfl, rfl⟩

/-- A partition's fault buffer takes a record: 32 bytes of its 128 KiB are written (R402). -/
theorem enterRecord_rest {s : State} {k : Nat} {p : Partition} (hp : s.part? k = some p) (wf : s.mem.wf = true) (id : Nat) (r : BitVec 256) :
    (s.enterRecord k id r).ops = s.ops ∧
    ∀ b, b < p.t0 + 0x120000 ∨ p.t0 + 0x140000 ≤ b → (s.enterRecord k id r).mem.get b = s.mem.get b := by
  unfold State.enterRecord
  rw [hp]
  dsimp only
  have slot := Nat.mod_lt (p.bufferHead + p.records.length) (show 0 < 4096 by decide)
  generalize (p.bufferHead + p.records.length) % 4096 = n at slot
  have outside : ∀ b, b < p.t0 + 0x120000 ∨ p.t0 + 0x140000 ≤ b →
      (s.mem.write (p.t0 + 0x120000 + 32 * n) 32 r.toNat).get b = s.mem.get b :=
    fun b hb => Memory.get_write_outside _ _ _ _ _ wf (by omega)
  generalize s.mem.write (p.t0 + 0x120000 + 32 * n) 32 r.toNat = m at outside
  split
  · obtain ⟨mem, ops⟩ := event_rest (({ s with mem := m } : State).modPart k
      (fun y => { y with records := y.records ++ [(id, r)] })) k 0x85 1 0 0
    exact ⟨ops, fun b hb => by rw [mem]; exact outside b hb⟩
  · exact ⟨rfl, outside⟩

theorem part?_modPart {s : State} {k : Nat} {p : Partition} (hp : s.part? k = some p) (f : Partition → Partition)
    (keeps : ∀ q, (f q).num = q.num) : (s.modPart k f).part? k = some (f p) := by
  have num : p.num = k := by simpa using List.find?_some hp
  refine (find?_map_keeping Partition.num _ (fun q => ?_) s.parts k).trans ?_
  · split
    · exact keeps q
    · rfl
  · rw [show s.parts.find? (fun q => q.num == k) = some p from hp, Option.map_some, num, beq_self_eq_true, if_pos rfl]

theorem faultRecord_rest {s : State} {k : Nat} {p : Partition} (hp : s.part? k = some p) (wf : s.mem.wf = true)
    (mk : BitVec 32 → BitVec 256) :
    (s.faultRecord k mk).1.ops = s.ops ∧
    ∀ b, b < p.t0 + 0x120000 ∨ p.t0 + 0x140000 ≤ b → (s.faultRecord k mk).1.mem.get b = s.mem.get b := by
  unfold State.faultRecord
  rw [hp]
  dsimp only
  split
  · exact enterRecord_rest (s := s.modPart k (fun y => { y with nextFault := y.nextFault + 1 }))
      (part?_modPart hp _ (by intro q; rfl)) wf _ _
  · exact ⟨rfl, fun _ _ => rfl⟩

/-- The KIND of the record of a fault at a piece (R403). -/
def faultKind (cp : Copy) : Nat := if descDir cp.desc = 1 then 6 else 5

/-- A walk that fails makes a fault of the piece, which is not a fill's. -/
theorem copyPiece_fault {s : State} {core : Nat} {o : Op} {cp : Copy} {x : Gang} {p : Partition} (dir : descDir cp.desc ≤ 1)
    (plain : cp.window = none) {q : Walk × Nat} (h : (pieceWalk s core p x cp).2 = .error q) :
    s.copyPiece o cp x p core =
      match (pieceWalk s core p x cp).1.engineFault o x core cp.sup cp.pc (faultKind cp) q.1 q.2 with
      | (u, some k) => u.modOp o.id (fun r => { r with kind := .copy { cp with paused := some k } })
      | (u, none) => u := by
  have walk : s.engineWalk core p x.tenant cp.sup (if descDir cp.desc = 1 then .write else .read)
      ((pieceElems cp.desc cp.done).flatMap (fun a => chunksOf a (2 ^ descElog cp.desc))) (s.readerOf x.id) = pieceWalk s core p x cp := by
    rw [pieceElems_eq]
    rfl
  have open_ : ¬ cp.window.isSome = true := by simp [plain]
  unfold State.copyPiece faultKind
  rcases Nat.le_one_iff_eq_zero_or_eq_one.1 dir with zero | one
  · rw [zero] at walk
    simp only [zero]
    rw [if_neg (by decide)] at walk
    rw [walk]
    simp only [h, if_neg open_]
    rfl
  · rw [one] at walk
    simp only [one]
    rw [if_pos rfl] at walk
    rw [walk]
    simp only [h, if_neg open_]
    rfl

theorem supervisorFault {s : State} {core : Nat} {o : Op} {cp : Copy} {x : Gang} {p : Partition} (dir : descDir cp.desc ≤ 1)
    (plain : cp.window = none) (sup : cp.sup = true) {q : Walk × Nat} (h : (pieceWalk s core p x cp).2 = .error q) :
    s.copyPiece o cp x p core =
      (pieceWalk s core p x cp).1.abortDomain x.part x.tenant x.domain q.1.code.num (cp.pc.setWidth 64) := by
  rw [copyPiece_fault dir plain h, sup]
  rfl

/-- A user command whose page is absent, or touched first, is recorded and pauses (R395, R401, R403). -/
theorem recordedFault {s : State} {core : Nat} {o : Op} {cp : Copy} {x : Gang} {p : Partition} (r : Ready s core o cp x p)
    (dir : descDir cp.desc ≤ 1) (plain : cp.window = none) (user : cp.sup = false) {q : Walk × Nat}
    (h : (pieceWalk s core p x cp).2 = .error q) (lv : Nat) (kind : q.1 = .absent lv ∨ ∃ sw, q.1 = .first lv sw) :
    ∃ o' c' f, (∀ b, b < p.t0 + 0x120000 ∨ p.t0 + 0x140000 ≤ b →
        (s.copyPiece o cp x p core).mem.get b = (pieceWalk s core p x cp).1.mem.get b) ∧
      (s.copyPiece o cp x p core).op? o.id = some o' ∧ o'.kind = .copy c' ∧ c' = { cp with paused := some (.fault f) } := by
  have marked := r.marked
  have part : (pieceWalk s core p x cp).1.part? x.part = some p := by rw [State.part?, marked.parts]; exact r.part
  generalize hmk : (fun id => mkRecord id (BitVec.ofNat 48 q.2) cp.pc (faultKind cp) lv o.slot x.tenant core (x.id % 2 ^ 24) 0) = mk
  have record : (pieceWalk s core p x cp).1.engineFault o x core cp.sup cp.pc (faultKind cp) q.1 q.2 =
      (((pieceWalk s core p x cp).1.faultRecord x.part mk).1, some (.fault ((pieceWalk s core p x cp).1.faultRecord x.part mk).2)) := by
    rw [user, ← hmk]
    rcases kind with absent | ⟨sw, first⟩
    · rw [absent]
      rfl
    · rw [first]
      rfl
  obtain ⟨ops, mem⟩ := faultRecord_rest part (marked.wf r.mem) mk
  have there : ((pieceWalk s core p x cp).1.faultRecord x.part mk).1.op? o.id = some o := by
    rw [State.op?, ops, marked.ops]; exact r.op
  rw [copyPiece_fault dir plain h, record]
  exact ⟨_, _, _, mem, op?_modOp_self _ (by intro q; rfl) there, rfl, rfl⟩

/-! ### The end of a window fill -/

/-- The window that a fill has made present (R105). -/
def fills (k : Nat) (y : Gang) : Gang :=
  { y with windows := y.windows.modify k (fun w => w.map (fun w => { w with state := .present })) }

theorem windowFillDone_runs {s : State} {o : Op} {cp : Copy} {k : Nat} (ho : s.op? o.id = some o) (hk : o.kind = .copy cp)
    (window : cp.window = some k) (started : cp.started = true) (all : copyPieces cp.desc ≤ cp.done) :
    exec (.windowFillDone o.id) s =
      .next ((arrives (s.modGang o.gang (fills k)) o.gang cp.bar (BitVec.ofNat 32 (descBytes cp.desc))).dropOp o.id) := by
  have ended : (!cp.started || decide (cp.done < copyPieces cp.desc)) = false := by simp [started, all]
  change execWindowFillDone o.id s = _
  unfold execWindowFillDone
  simp only [ho, hk, window, ended]
  rfl

theorem windowFillDone_says {s : State} {o : Op} {cp : Copy} {k : Nat} {x : Gang} {w : Window} (ho : s.op? o.id = some o)
    (hk : o.kind = .copy cp) (window : cp.window = some k) (started : cp.started = true) (all : copyPieces cp.desc ≤ cp.done)
    (hx : s.gang? o.gang = some x) (hw : x.windows[k]? = some (some w)) :
    ∃ u x', exec (.windowFillDone o.id) s = .next u ∧ u.op? o.id = none ∧ u.mem = s.mem ∧ u.gang? o.gang = some x' ∧
      x'.windows[k]? = some (some { w with state := .present }) ∧ (∀ j, j ≠ k → x'.windows[j]? = x.windows[j]?) ∧
      (∀ b, cp.bar = some b → Memory.wf x.sp = true → s.storeRaces o.gang b none = false →
        x'.barrier b = (arriveVal (x.barrier b) (BitVec.ofNat 32 (descBytes cp.desc)) 0).1) := by
  have filled : (s.modGang o.gang (fills k)).gang? o.gang = some (fills k x) := by
    rw [gang?_modGang _ _ _ (by intro y; rfl), hx]
    rfl
  have at_k : (fills k x).windows[k]? = some (some { w with state := .present }) := by
    simp [fills, hw]
  have elsewhere : ∀ j, j ≠ k → (fills k x).windows[j]? = x.windows[j]? := by
    intro j hj
    simp [fills, Ne.symm hj]
  rw [windowFillDone_runs ho hk window started all]
  cases bar : cp.bar with
  | none =>
    exact ⟨_, fills k x, rfl, op?_dropOp _ _, rfl, filled, at_k, elsewhere, fun b h => by simp at h⟩
  | some b =>
    obtain ⟨x', arrived, value⟩ := arrive_arrived filled b (BitVec.ofNat 32 (descBytes cp.desc)) 0 none
    refine ⟨_, x', rfl, op?_dropOp _ _, arrived.mem, arrived.gang, by rw [arrived.windows, at_k],
      fun j hj => by rw [arrived.windows, elsewhere j hj], ?_⟩
    rintro c ⟨⟩
    exact value

/-! ### Leave from the pool -/

/-- The slot whose LEAVE is granted. -/
def grants (z : Slot) : Slot := { z with stall := none, phase := { z.phase with granted := true } }

/-- A request of a stalled slot that the pool can serve now (R273, R428). -/
theorem leaveGrant_says {s : State} {r : LeaveReq} {z : Slot} {y : Tussock} (head : s.poolHead = some r) (free : r.op = none)
    (hz : s.slot? r.gang r.tk r.slot = some z) (hy : s.tk? r.gang r.tk = some y) (stalls : z.stall = some (.leave r.id))
    (enough : r.tokens ≤ s.dev.pool) :
    ∃ u z' y', exec (.leaveGrant r.id) s = .next u ∧ u.mem = s.mem ∧ u.ops = s.ops ∧ u.dev.pool = s.dev.pool - r.tokens ∧
      (∀ q ∈ u.dev.poolQ, q.id ≠ r.id) ∧ u.slot? r.gang r.tk r.slot = some z' ∧ z'.stall = none ∧ z'.phase.granted = true ∧
      z'.pc = z.pc ∧ u.tk? r.gang r.tk = some y' ∧ y'.tokens = y.tokens + (if r.hold then r.tokens else 0) ∧ y'.n = y.n := by
  have asks : s.asks r = true := by simp [State.asks, free, hz, stalls]
  have slot : y.slots[r.slot]? = some z := by rwa [State.slot?, hy] at hz
  change ∃ u z' y', execLeaveGrant r.id s = _ ∧ _
  unfold execLeaveGrant
  simp only [head, asks, free, bne_self_eq_false, Bool.not_true, Bool.false_eq_true, if_false, if_neg (Nat.not_lt.2 enough)]
  generalize hv : (State.modPart _ _ _ : State) = v
  have tk : v.tk? r.gang r.tk = some y := by rw [← hv]; exact hy
  have kept : v.mem = s.mem ∧ v.ops = s.ops ∧ v.dev.pool = s.dev.pool - r.tokens ∧ (∀ q ∈ v.dev.poolQ, q.id ≠ r.id) := by
    rw [← hv]
    exact ⟨rfl, rfl, rfl, fun q hq => by simpa using (List.mem_filter.1 hq).2⟩
  obtain ⟨mem, ops, pool, gone⟩ := kept
  clear hv
  generalize hu : (if r.hold then v.giveTokens r.gang r.tk r.tokens else v : State) = u
  have tk' : u.tk? r.gang r.tk = some { y with tokens := y.tokens + (if r.hold then r.tokens else 0) } := by
    rw [← hu]
    split
    · rw [State.giveTokens, tk?_modTk, tk]
      rfl
    · exact tk
  have kept : u.mem = v.mem ∧ u.ops = v.ops ∧ u.dev = v.dev := by
    rw [← hu]
    split <;> exact ⟨rfl, rfl, rfl⟩
  obtain ⟨mem', ops', dev'⟩ := kept
  have slots : (u.modSlot r.gang r.tk r.slot grants).slot? r.gang r.tk r.slot = some (grants z) := by
    rw [slot?_modSlot, State.slot?, tk', Option.bind_some, slot, Option.map_some]
  have last := tk?_modTk u r.gang r.tk (fun x => { x with slots := x.slots.modify r.slot grants })
  rw [tk', Option.map_some] at last
  exact ⟨_, _, _, rfl, mem'.trans mem, ops'.trans ops, (congrArg Device.pool dev').trans pool,
    fun q hq => gone q (by rw [← dev']; exact hq), slots, rfl, rfl, rfl, last, rfl, rfl⟩

/-- Settles O39: each direction of a piece by what its reads and writes leave, the others by the step itself. -/
theorem copiesFillsAndLeave : Obligations.CopiesFillsAndLeave := by
  unfold Obligations.CopiesFillsAndLeave
  refine ⟨?starts, ?pieces, ?fills, ?leave⟩
  case starts =>
    intro s id o ho due
    obtain rfl := op?_id ho
    exact ⟨fun c hk new => copy_starts ho due hk new, fun f hk new => shuf_starts ho due hk new,
      fun m hk new fresh => merge_starts ho due hk new fresh⟩
  case pieces =>
    intro s id core o cp x p ho hk hx hc hp started paused owed waits more due injs up mem sp _ _
    obtain rfl := op?_id ho
    have r : Ready s core o cp x p := ⟨ho, hk, hx, hc, hp, started, paused, owed, waits, more, due, injs, up, mem, sp⟩
    rw [r.exec]
    refine ⟨fun ls dir walked => ?_, fun ls dir walked => ?_, fun q dir plain sup walked => ?_,
      fun q dir plain user walked ⟨lv, kind⟩ => ?_, fun dir => ?_⟩
    · obtain ⟨v, vmem, gangs, ops, run⟩ := copyPiece_in r dir walked
      obtain ⟨x', gang, same, credits, inside, outside⟩ := broughtIn ho hk hx sp ((walked_length _ ls).trans (walked_sum walked)) gangs ops
      exact ⟨_, x', congrArg _ run, gang, same.trans vmem, credits, inside, outside⟩
    · obtain ⟨x', gang, credits, beside, written, elsewhere⟩ := sentOut r dir walked
      exact ⟨_, x', rfl, gang, credits, beside, written, elsewhere⟩
    · exact congrArg _ (supervisorFault dir plain sup walked)
    · obtain ⟨o', c', f, same, op, kind', paused'⟩ := recordedFault r dir plain user walked lv kind
      exact ⟨_, o', c', f, rfl, same, op, kind', paused'⟩
    · obtain ⟨v, bs, vmem, gangs, ops, len, bytes, run⟩ := copyPiece_within r dir
      obtain ⟨x', gang, same, credits, inside, outside⟩ := broughtIn ho hk hx sp len gangs ops
      exact ⟨_, x', congrArg _ run, gang, same.trans vmem, credits,
        fun j hj beside free => (inside j hj beside).trans (bytes j hj free), outside⟩
  case fills =>
    intro s id k o cp x w ho hk window started all hx hw
    obtain rfl := op?_id ho
    exact windowFillDone_says ho hk window started all hx hw
  case leave =>
    intro s r z y head free hz hy stalls enough
    exact leaveGrant_says head free hz hy stalls enough

end Sys2Proof.EngineCopies
end

-- Refutation of the statement on futures and queue configuration (spec/05_memory_as_kernels_see_it.md)
section
/-! SUPPORT. What a word that retires can do to its gang, and a statement on futures that asks for more than its hypotheses give. -/

namespace Sys2Proof.FutureLimits

open Sys2Proof Sys2Proof.Machine Sys2Proof.Says Sys2Proof.LaneState Sys2Proof.GangFrames

/-! ### A word that retires without a join

A join numbers free values for the queue entries that become undefined (R38, R55), so a state with few free values taken has seen none. -/

/-- The free values that the rules of R38 number in one application. -/
def joinSeeds : Nat := 400 * 512

theorem foldl_seed {α : Type} {f : State → α → State} (h : ∀ s a, (f s a).seed = s.seed) (l : List α) (s : State) :
    (l.foldl f s).seed = s.seed :=
  List.foldlRecOn (motive := fun u : State => u.seed = s.seed) l f rfl (fun u hu a _ => (h u a).trans hu)

theorem emit_seed (s : State) (p op : Nat) (a0 a1 a2 : BitVec 64) : (s.emit p op a0 a1 a2).seed = s.seed := by
  unfold State.emit
  split <;> rfl

theorem event_seed (s : State) (p op : Nat) (a0 a1 a2 : BitVec 64) : (s.event p op a0 a1 a2).seed = s.seed := by
  unfold State.event
  split
  · rfl
  · dsimp only
    split
    · exact emit_seed ..
    · rfl

theorem decTask_seed (s : State) (t : Nat) : (s.decTask t).seed = s.seed := by
  unfold State.decTask
  split
  · rfl
  · split_ifs <;> rfl

theorem stepCheck_seed (s : State) (p scene : Nat) : (s.stepCheck p scene).seed = s.seed := by
  unfold State.stepCheck
  split
  · rfl
  · split
    · split
      · exact decTask_seed ..
      · rfl
    · rfl

theorem islandGangEnded_seed (s : State) (p : Nat) (i : IslGang) (task : Nat) : (s.islandGangEnded p i task).seed = s.seed :=
  stepCheck_seed ..

theorem endTask_seed (s : State) (t status : Nat) (aborted : Bool) : (s.endTask t status aborted).seed = s.seed := by
  have links : ∀ (u : State) (good : Bool) (ls : List Nat), (if good then ls.foldl (fun s l => s.decTask l) u else u).seed = u.seed := by
    intro u good ls
    split
    · exact foldl_seed (fun _ _ => decTask_seed ..) _ _
    · rfl
  unfold State.endTask
  cases s.task? t with
  | none => rfl
  | some x =>
    dsimp only
    split
    · rfl
    have island : ∀ u : State, (match x.isl with
      | some i => u.islandGangEnded x.part i t
      | none => u).seed = u.seed := by
      intro u
      split
      · exact islandGangEnded_seed ..
      · rfl
    split
    · refine (event_seed ..).trans ((island _).trans ((links _ _ _).trans ?_))
      split <;> rfl
    · refine (island _).trans ((links _ _ _).trans ?_)
      split <;> rfl

theorem closeJobs_seed (s : State) (p : Nat) : (s.closeJobs p).seed = s.seed := by
  unfold State.closeJobs
  split
  · rfl
  · refine foldl_seed (fun s j => ?_) _ _
    exact event_seed ..

theorem abortDomain_seed (s : State) (p tenant : Nat) (root : Option Nat) (code : Nat) (pc : BitVec 64) :
    (s.abortDomain p tenant root code pc).seed = s.seed := by
  unfold State.abortDomain
  dsimp only
  rw [closeJobs_seed, event_seed, foldl_seed fun s t => endTask_seed ..]
  refine (foldl_seed (f := fun (s : State) g => (s.dropLocks g).dropSubs g) (fun _ _ => rfl) _ _).trans ?_
  refine foldl_seed (fun s e => ?_) _ _
  rfl

theorem withdraw_seed (s : State) (g t k : Nat) : (s.withdraw g t k).seed = s.seed := by
  unfold State.withdraw
  split
  · rfl
  · refine (foldl_seed (fun s m => ?_) _ _).trans ?_
    · rfl
    · dsimp only [State.modGang_seed]
      split <;> rfl

theorem noteReady_seed (s : State) (g t : Nat) : (s.noteReady g t).seed = s.seed := by
  unfold State.noteReady
  split
  · rfl
  · split <;> rfl

theorem takeTrap_seed (s : State) (g t k : Nat) (tr : Trap) : (s.takeTrap g t k tr).seed = s.seed := by
  unfold State.takeTrap
  dsimp only
  split
  · split
    · exact (noteReady_seed ..).trans (withdraw_seed ..)
    split
    · exact (abortDomain_seed ..).trans (withdraw_seed ..)
    · exact (noteReady_seed ..).trans (withdraw_seed ..)
  · exact withdraw_seed ..

theorem breakTeam_seed (s : State) (g t : Nat) : (s.breakTeam g t).seed = s.seed := by
  unfold State.breakTeam
  split
  · rfl
  dsimp only
  split
  · rfl
  · refine foldl_seed (fun s m => ?_) _ _
    split
    · rfl
    · exact takeTrap_seed ..

theorem bargCheck_seed (s : State) (g : Nat) : (s.bargCheck g).seed = s.seed := by
  unfold State.bargCheck
  split
  · rfl
  dsimp only
  split <;> rfl

theorem releaseGang_seed (s : State) (g : Nat) : (s.releaseGang g).seed = s.seed := by
  unfold State.releaseGang
  split
  · rfl
  split <;> rfl

theorem endGang_seed (s : State) (g : Nat) : (s.endGang g).seed = s.seed := by
  unfold State.endGang
  split
  · rfl
  · exact (releaseGang_seed ..).trans ((closeJobs_seed ..).trans (endTask_seed ..))

theorem endCheck_seed (s : State) (g t : Nat) : (s.endCheck g t).seed = s.seed := by
  unfold State.endCheck
  split
  · rfl
  split
  · exact bargCheck_seed ..
  dsimp only
  split
  · exact breakTeam_seed ..
  split
  · exact (endGang_seed ..).trans (breakTeam_seed ..)
  · exact (bargCheck_seed ..).trans (breakTeam_seed ..)

/-- One application of the rules of R38 numbers its free values. -/
theorem joinIn_seed {s : State} {g t : Nat} (k : Nat) {y : Tussock} (hy : s.tk? g t = some y) :
    (s.joinIn g t k).seed = s.seed + joinSeeds := by
  unfold State.joinIn State.overRecords
  rw [hy]
  dsimp only
  split <;> rfl

theorem joinIn_seed_le (s : State) (g t k : Nat) : s.seed ≤ (s.joinIn g t k).seed := by
  cases hy : s.tk? g t with
  | none =>
    unfold State.joinIn State.overRecords
    rw [hy]
  | some y => exact (joinIn_seed k hy).symm ▸ Nat.le_add_right ..

theorem resumeTrapped_seed_le (s : State) (g t : Nat) (skip : Bool) : s.seed ≤ (s.resumeTrapped g t skip).seed := by
  unfold State.resumeTrapped
  split
  · exact le_rfl
  split
  · exact le_rfl
  dsimp only
  split
  · exact le_rfl
  split
  · refine le_trans ?_ (joinIn_seed_le _ g t _)
    exact le_rfl
  · exact le_rfl

theorem join_seed {s : State} {g t : Nat} (k : Nat) {y : Tussock} (hy : s.tk? g t = some y) :
    s.seed + joinSeeds ≤ (s.join g t k).seed := by
  unfold State.join
  dsimp only
  rw [endCheck_seed, ← joinIn_seed k hy]
  split
  · split
    · exact resumeTrapped_seed_le ..
    · exact le_rfl
  · exact le_rfl

/-- A step to the next word that loses the gang has come to a join. -/
theorem goto_gone {s : State} {g : Nat} (t k : Nat) (pc : Addr) {y : Gang} (hy : s.gang? g = some y) (gone : (s.goto g t k pc).gang? g = none) :
    s.seed + joinSeeds ≤ (s.goto g t k pc).seed := by
  obtain ⟨tks, there⟩ := (TksOnly.modSlot s g t k (fun x => { x with pc := pc, phase := {}, stall := none })).gang y hy
  have seed : (s.modSlot g t k (fun x => { x with pc := pc, phase := {}, stall := none })).seed = s.seed := rfl
  unfold State.goto at gone ⊢
  dsimp only at gone ⊢
  generalize s.modSlot g t k (fun x => { x with pc := pc, phase := {}, stall := none }) = u at there seed gone ⊢
  have stays : u.gang? g ≠ none := by rw [there]; exact Option.some_ne_none _
  cases hx : u.slot? g t k with
  | none =>
    rw [hx] at gone
    exact absurd gone stays
  | some x =>
    rw [hx] at gone
    dsimp only at gone ⊢
    split at gone
    · next joins =>
      obtain ⟨z, hz, -⟩ := Option.bind_eq_some_iff.1 hx
      rw [if_pos joins, ← seed]
      exact join_seed k hz
    · exact absurd gone stays

/-- A word that retires and whose gang is gone then has come to a join. -/
theorem retire_gone {s : State} {c : Ctx} (tl : Tail) {y : Gang} (hy : s.gang? c.g = some y) (held : Bool) (pc : Addr)
    (gone : (c.retire tl s held pc).gang? c.g = none) : joinSeeds ≤ (c.retire tl s held pc).seed := by
  have kept : ∃ y', (s.retireTail c.g c.t c.k c.core tl held).gang? c.g = some y' := by
    unfold State.retireTail
    dsimp only
    split <;> exact ⟨_, ((TksOnly.modSlot s c.g c.t c.k _).gang y hy).choose_spec⟩
  obtain ⟨y', hy'⟩ := kept
  exact (Nat.le_add_left ..).trans (goto_gone c.t c.k pc hy' gone)

/-! ### A FSET whose push reads a failed entry of the subscription table

The write of a FSET makes the home agent read the location's subscription entry; where an error lasts in that entry, the fault domains of
its subscribers abort (R120, R435, R438), here the domain of the gang that issued the FSET. -/

/-- The cell of the FSET, at a physical address. -/
def subscribedCell : Nat := 0x200000

/-- A double error that lasts in the entry. -/
def entryError : Inj := { array := 6, home := 0, persist := true, addr := BitVec.ofNat 48 subscribedCell, mask := 3 }

/-- The plain machine in which gang 1 subscribes to the cell it is to fill. -/
def subscribesItself : State :=
  { wMG [0x10000] with
    subs := [{ addr := subscribedCell, subs := [{ gang := 1, slot := 0 }] }]
    dev := { (wMG [0x10000]).dev with injs := [entryError] } }

theorem fset_ends_gang :
    ∃ u, exec (.fset t0 false false g10 g11) subscribesItself = .next u ∧ (u.gang? 1 = none ∧ u.seed < joinSeeds) :=
  nextWhere (by decide +kernel)

theorem fset_may_act :
    ∃ c a, Passes subscribesItself t0 c ∧
      c.cell (spent subscribesItself) (c.part subscribesItself) false true (c.tk.uval g10) = .ok a ∧
      c.act ≠ 0 ∧ (c.g = 1 ∧ a.2.2.getLsbD 64 = false ∧ a.1.mem.wf = true ∧ a.1.ownAccs c.g c.t c.k = [] ∧
        a.1.fifoAll (c.core / 8) ≤ a.1.now ∧ (a.1.gang? c.g).any (fun y => Memory.wf y.sp) = true) :=
  meetsG (by decide +kernel)

/-- Refutes O31: a FSET that fills an empty cell is to leave its gang in the state, but the home's read of the cell's subscription entry
can meet an error that lasts, which aborts the fault domain of the gang itself. -/
theorem not_futuresAndQueueConfiguration : ¬ Obligations.FuturesAndQueueConfiguration := by
  intro h
  obtain ⟨c, ⟨s1, x, old⟩, passes, cell, act, gang, empty, wf, own, fifo, sp⟩ := fset_may_act
  obtain ⟨y, hy, hsp⟩ := (Option.any_eq_true _ _).1 sp
  obtain ⟨-, -, -, fset, -⟩ := h.1 t0 false false g10 g11 .discard subscribesItself c passes
  obtain ⟨-, -, fills⟩ := fset s1 x old act cell wf (fun no => absurd no (by decide)) (fun _ => ⟨own, fifo⟩)
  obtain ⟨s2, y', o, run, -, -, -, -, -, here, -⟩ := fills empty y hy hsp
  obtain ⟨u, run', gone, few⟩ := fset_ends_gang
  obtain rfl : u = c.retire t0 s2 true (c.sl.pc + 8) := Host.Outcome.next.inj (run'.symm.trans run)
  exact absurd few (Nat.not_lt.2 (retire_gone t0 here true _ (by rw [gang]; exact gone)))

end Sys2Proof.FutureLimits
end
